-- ==== Sys2Proof/Word.lean ====
section
/-! DEFINITION. The words of the host link and their byte order (R186). -/

namespace Sys2Proof

/-- One byte of the host link. -/
abbrev Byte := BitVec 8

/-- A two-byte field of a host-link body. -/
abbrev Half := BitVec 16

/-- A four-byte field of a host-link body. -/
abbrev Quad := BitVec 32

end Sys2Proof
end

