-- ==== Sys2Proof/Syntax.lean ====
section
/-! DEFINITION. The commands of the PF-24: one constructor of `Instr` per row of the opcode table. -/

namespace Sys2Proof

/-- Carriages A and B (section 0.2). -/
inductive Carriage where
  | A
  | B
  deriving DecidableEq, Repr

/-- The continuation field of STEP DONE and LIFT DONE (R121). -/
inductive Continuation where
  | next
  | standing
  deriving DecidableEq, Repr

/-- The status of a saw-link status record (R155). -/
inductive SawReport where
  | auto
  | manual
  deriving DecidableEq, Repr

/-- Remnant size class (Table 2-2); absent is `none` of an `Option`. -/
inductive SizeClass where
  | S
  | M
  | L
  deriving DecidableEq, Repr

abbrev Place := Fin 32
abbrev Saw := Fin 4
abbrev Curtain := Fin 4
abbrev Gate := Fin 2
abbrev Zone := Fin 16
abbrev Profile := Fin 8

/-- Floor coordinates in mm, as a drive reports them (section 0.7). -/
structure Pos where
  x : Nat
  y : Nat
  deriving DecidableEq, Repr

/-- A run record as a request carries it (Table 10-5). -/
structure WireRun where
  material : Half
  thickness : Half
  profile : Byte
  size : Byte
  count : Byte
  deriving DecidableEq, Repr

/-- A request of the host, its fields as the bytes of its body carry them (Table 10-2). A field
outside its range is still a request: its owner refuses it BAD VALUE. -/
inductive Request where
  | partStatus
  | setZoneMap (starts : List Half)
  | setCurtain (curtain first last : Byte)
  | setAccessGate (gate first last : Byte)
  | setGripProfile (profile low high floor : Byte)
  | setCellParameters (tolerance digLimit trigger : Byte)
  | definePlace (place kind : Byte) (x y base : Half) (limit : Byte) (height : Half) (saw : Byte)
  | sawConfig (saw mode threshold : Byte) (timeout wait : Half) (lock : Byte)
  | loadStack (place hold : Byte) (runs : List WireRun)
  | addRuns (place : Byte) (runs : List WireRun)
  | unloadPlace (place : Byte)
  | unlockPlace (place : Byte)
  | order (number : Half) (saw : Byte) (material thickness : Half) (cls : Byte) (quantity : Half)
      (divert : Byte)
  | cancelOrder (number : Half)
  | flushOrders
  | home (carriage : Byte)
  | hold (carriage : Byte)
  | release (carriage : Byte)
  | resume (carriage disposition : Byte)
  | setDown (carriage place : Byte)
  | zoneClose (first last : Byte)
  | zoneOpen (first last : Byte)
  | reportsOff
  | reportsOn
  | queryCarriage (carriage : Byte)
  | queryPlace (place : Byte)
  | querySaw (saw : Byte)
  | queryOrder (number : Half)
  | queryZones
  | queryEventsSummary
  | queryEventsList (start : Quad)
  | cellReset
  deriving DecidableEq, Repr

/-- The commands of spec/opcode_table.json, one constructor per row. The rows of the host's requests
stand for the request's frame arriving whole and good at the receiver. -/
inductive Instr where
  /-- POWER_ON (R142) -/
  | powerOn
  /-- FRAME_COMPLETE (R180): the byte that completes a frame. -/
  | frameComplete (byte : Byte)
  /-- FRAMING_ERROR (R178): the byte above 240 in state LENGTH. -/
  | framingError (byte : Byte)
  /-- FRAME_TIMEOUT (R179) -/
  | frameTimeout
  /-- FRAME_FREED (R183) -/
  | frameFreed
  /-- UNKNOWN_KIND (R182): a good frame whose kind byte is no request code. -/
  | unknownKind (kind : Byte) (body : List Byte)
  /-- DROPPED_REQUEST (R187) -/
  | droppedRequest
  /-- PART_STATUS (R184) -/
  | partStatus
  /-- SET_ZONE_MAP (R3) -/
  | setZoneMap (starts : List Half)
  /-- SET_CURTAIN (R10) -/
  | setCurtain (curtain first last : Byte)
  /-- SET_ACCESS_GATE (R11) -/
  | setAccessGate (gate first last : Byte)
  /-- SET_GRIP_PROFILE (R12) -/
  | setGripProfile (profile low high floor : Byte)
  /-- SET_CELL_PARAMETERS (R14) -/
  | setCellParameters (tolerance digLimit trigger : Byte)
  /-- DEFINE_PLACE (R6) -/
  | definePlace (place kind : Byte) (x y base : Half) (limit : Byte) (height : Half) (saw : Byte)
  /-- SAW_CONFIG (R146) -/
  | sawConfig (saw mode threshold : Byte) (timeout wait : Half) (lock : Byte)
  /-- LOAD_STACK (R23); the run count of the body is the length of the list. -/
  | loadStack (place hold : Byte) (runs : List WireRun)
  /-- ADD_RUNS (R25) -/
  | addRuns (place : Byte) (runs : List WireRun)
  /-- UNLOAD_PLACE (R26) -/
  | unloadPlace (place : Byte)
  /-- UNLOCK_PLACE (R27) -/
  | unlockPlace (place : Byte)
  /-- ORDER (R43) -/
  | order (number : Half) (saw : Byte) (material thickness : Half) (cls : Byte) (quantity : Half)
      (divert : Byte)
  /-- CANCEL_ORDER (R60) -/
  | cancelOrder (number : Half)
  /-- FLUSH_ORDERS (R61) -/
  | flushOrders
  /-- HOME (R134) -/
  | home (carriage : Byte)
  /-- HOLD (R136) -/
  | hold (carriage : Byte)
  /-- RELEASE (R138) -/
  | release (carriage : Byte)
  /-- RESUME (R133) -/
  | resume (carriage disposition : Byte)
  /-- SET_DOWN (R87) -/
  | setDown (carriage place : Byte)
  /-- ZONE_CLOSE (R102) -/
  | zoneClose (first last : Byte)
  /-- ZONE_OPEN (R103) -/
  | zoneOpen (first last : Byte)
  /-- REPORTS_OFF (R172) -/
  | reportsOff
  /-- REPORTS_ON (R172) -/
  | reportsOn
  /-- QUERY_CARRIAGE (R143) -/
  | queryCarriage (carriage : Byte)
  /-- QUERY_PLACE (R37) -/
  | queryPlace (place : Byte)
  /-- QUERY_SAW (R160) -/
  | querySaw (saw : Byte)
  /-- QUERY_ORDER (R64) -/
  | queryOrder (number : Half)
  /-- QUERY_ZONES (R118) -/
  | queryZones
  /-- QUERY_EVENTS_SUMMARY (R175) -/
  | queryEventsSummary
  /-- QUERY_EVENTS_LIST (R176) -/
  | queryEventsList (start : Quad)
  /-- CELL_RESET (R187) -/
  | cellReset
  /-- READY_REPORT (R122): every drive report carries the drive's position (R121). -/
  | readyReport (c : Carriage) (pos : Pos)
  /-- CONTACT (R125), the height in 0.1 mm -/
  | contact (c : Carriage) (pos : Pos) (height : Nat)
  /-- GRIP_READING (R126), the vacuum in kPa -/
  | gripReading (c : Carriage) (pos : Pos) (vacuum : Nat)
  /-- LIFT_DONE (R127) -/
  | liftDone (c : Carriage) (pos : Pos) (cont : Continuation)
  /-- RELEASE_DONE (R128) -/
  | releaseDone (c : Carriage) (pos : Pos)
  /-- STEP_DONE (R124) -/
  | stepDone (c : Carriage) (pos : Pos) (cont : Continuation)
  /-- HOME_DONE (R135) -/
  | homeDone (c : Carriage) (pos : Pos)
  /-- STOPPED (R129) -/
  | stopped (c : Carriage) (pos : Pos)
  /-- VACUUM_LOW (R130) -/
  | vacuumLow (c : Carriage) (pos : Pos) (vacuum : Nat)
  /-- DRIVE_FAULT (R131) -/
  | driveFault (c : Carriage) (pos : Pos) (code : Nat)
  /-- SAW_STATUS_RECORD (R155) -/
  | sawStatusRecord (saw : Saw) (status : SawReport)
  /-- REMNANT_RECORD (R163) -/
  | remnantRecord (saw : Saw) (material thickness : Nat) (size : Option SizeClass)
  /-- SAW_LINK_SILENCE (R155) -/
  | sawLinkSilence (saw : Saw)
  /-- BOOK_TIMER_EXPIRY (R151) -/
  | bookTimerExpiry (saw : Saw)
  /-- WAIT_TIMER_EXPIRY (R77) -/
  | waitTimerExpiry (c : Carriage)
  /-- READY_ASSERTED (R149) -/
  | readyAsserted (saw : Saw)
  /-- READY_DEASSERTED (R149) -/
  | readyDeasserted (saw : Saw)
  /-- CUT_DONE (R153) -/
  | cutDone (saw : Saw)
  /-- CUT_DONE_DEASSERTED (R153) -/
  | cutDoneDeasserted (saw : Saw)
  /-- CURTAIN_ASSERTED (R108) -/
  | curtainAsserted (k : Curtain)
  /-- CURTAIN_DEASSERTED (R110) -/
  | curtainDeasserted (k : Curtain)
  /-- ACCESS_REQUEST_ASSERTED (R104) -/
  | accessRequestAsserted (g : Gate)
  /-- ACCESS_REQUEST_DEASSERTED (R107) -/
  | accessRequestDeasserted (g : Gate)
  /-- E_STOP_ASSERTED (R139) -/
  | eStopAsserted
  /-- E_STOP_RELEASED (R140) -/
  | eStopReleased
  /-- WORK_REQUEST (R48): the sequencer of `c` takes its work notice and asks. -/
  | workRequest (c : Carriage)
  /-- BYTE_RECEIVED (R178) -/
  | byteReceived (byte : Byte)
  deriving DecidableEq, Repr

end Sys2Proof
end

