-- ==== Sys2Proof/Config.lean ====
section
/-! DEFINITION. Capacities the manual fixes, and the free values it leaves open. -/

namespace Sys2Proof.Config

/-- Pieces a run or a stack may hold at most (Table 2-2, Table 0-1). -/
def maxPieces : Nat := 250

/-- Runs of one stack (R17). -/
def maxRuns : Nat := 8

/-- Order entries of the queue (R43). -/
def maxOrders : Nat := 32

/-- Pending event entries (R169). -/
def maxEvents : Nat := 96

/-- Frames of the outbound queue (R183). -/
def maxFrames : Nat := 8

/-- Requests that may wait (R180). -/
def maxWaiting : Nat := 2

/-- Maximum of an inventory counter, 2^40 - 1 (R38). -/
def maxCounter : Nat := 1099511627775

/-- Maximum of a link error count (R184). -/
def maxLinkCount : Nat := 65535

/-- Maximum of an owed count, a repeat count, the displaced count and an overrun count
(R181, R169, R161). -/
def maxSmall : Nat := 255

/-- Maximum of the rank counter and of the creation counter (R44, R169). -/
def maxRank : Nat := 4294967295

/-- Pieces a RETURN place holds (R5, R163). -/
def returnLimit : Nat := 4

/-- Pieces an INFEED place holds (R5). -/
def infeedLimit : Nat := 8

/-- X at which zone 15 ends (section 1.2, R98). -/
def railEnd : Nat := 65535

/-- Gap timer of the receiver in ms (R179). -/
def gapMs : Nat := 50

/-- Silence timer of a saw link in ms (R155). -/
def silenceMs : Nat := 2000

/-- Free value: the detail of a ZONE CLOSED raised for a gate whose range is NONE (R104, R106: the
detail is the first zone of a range that has none). The argument is a count that rises at each use. -/
opaque freeDetail : Nat → Int

/-- Free value: the two bytes of a field that the manual gives no coding for when it is absent
(R186 gives FFh for one-byte fields only). The arguments are a count that rises with each frame and
the offset of the field in its body. -/
opaque freeHalf : Nat → Nat → Half

end Sys2Proof.Config
end

