-- ==== Sys2Proof/Machine/State.lean ====
section
/-! DEFINITION. The state of the PF-24, block by block (Table 0-3), and its value after power-on. -/

namespace Sys2Proof.Machine

/-- Why a command stops with a fault. The manual gives every event an effect and describes none that
stops the part, so there is no reason and no command raises one. -/
inductive Fault
  deriving DecidableEq, Repr

/-- Why a command is refused a meaning. -/
inductive Refusal where
  /-- Raised by an arm of `exec` whose command has no meaning yet. Safe: the machine stops. -/
  | notModelled (mnemonic : String)
  deriving DecidableEq, Repr

/-- A value for each carriage. -/
structure PerCarriage (α : Type) where
  a : α
  b : α
  deriving DecidableEq, Repr

/-- A timer: whether it runs and its remaining time in ms. -/
structure Timer where
  running : Bool
  ms : Nat
  deriving DecidableEq, Repr

/-- A contiguous range of zones, first and last included. -/
structure ZoneRange where
  first : Nat
  last : Nat
  deriving DecidableEq, Repr

/-! ### Host Link Controller -/

/-- The receiver with what it has kept (R178). -/
inductive Receiver where
  | hunt
  | length
  | kind (length : Byte)
  | body (length kind : Byte) (kept : List Byte)
  | check (length kind : Byte) (body : List Byte) (low : Option Byte)
  deriving DecidableEq, Repr

/-- A frame the part sends: its kind byte and its body (Table 10-1). -/
structure Frame where
  kind : Byte
  body : List Byte
  deriving DecidableEq, Repr

/-- A waiting request: a good frame, unexamined, and the mark a CELL RESET puts on it (R180, R187). -/
structure WaitingRequest where
  kind : Byte
  body : List Byte
  dropped : Bool
  deriving DecidableEq, Repr

/-- The state of the Host Link Controller (R178 to R184). -/
structure HostLink where
  rx : Receiver
  gap : Timer
  waiting : List WaitingRequest
  owedBad : Nat
  owedBusy : Nat
  owedBadKind : Byte
  owedBusyKind : Byte
  outbound : List Frame
  framingErrors : Nat
  frameTimeouts : Nat
  badChecks : Nat
  overruns : Nat
  deriving DecidableEq, Repr

/-! ### Cell Map -/

/-- What a place is for (Table 1-3). -/
inductive PlaceKind where
  | unused
  | stock
  | buffer
  | remnant
  | infeed
  | return_
  deriving DecidableEq, Repr

/-- A place definition (Table 1-2). -/
structure PlaceDef where
  kind : PlaceKind
  x : Nat
  y : Nat
  base : Nat
  pieceLimit : Nat
  heightLimit : Nat
  saw : Option Saw
  deriving DecidableEq, Repr

/-- The vacuum values of a grip profile, in kPa (R12). -/
structure GripProfile where
  low : Nat
  high : Nat
  floor : Nat
  deriving DecidableEq, Repr

/-- The records of the Cell Map (Table 1-1). -/
structure CellMap where
  starts : Vector Nat 16
  places : Vector PlaceDef 32
  curtains : Vector (Option ZoneRange) 4
  gates : Vector (Option ZoneRange) 2
  profiles : Vector GripProfile 8
  tolerance : Nat
  digLimit : Nat
  trigger : Nat
  deriving DecidableEq, Repr

/-! ### Stack Table -/

/-- A piece, or a run less its count (Table 2-2). -/
structure Piece where
  material : Nat
  thickness : Nat
  profile : Profile
  size : Option SizeClass
  deriving DecidableEq, Repr

/-- A run record; an unknown count is `none` (R17). -/
structure Run where
  piece : Piece
  count : Option Nat
  deriving DecidableEq, Repr

/-- Why a stack is LOCKED (Table 2-6). -/
inductive LockReason where
  | mismatch
  | gripFail
  | overflow
  | host
  deriving DecidableEq, Repr

/-- State of a stack record; the lock reason is present in LOCKED only (Table 2-1). -/
inductive StackState where
  | empty
  | ready
  | measure
  | locked (reason : LockReason)
  deriving DecidableEq, Repr

/-- A stack record (Table 2-1). -/
structure StackRec where
  state : StackState
  user : Option Carriage
  runs : List Run
  deriving DecidableEq, Repr

/-- The five inventory counters (R38). -/
structure Counters where
  loaded : Nat
  returned : Nat
  cut : Nat
  unloaded : Nat
  lost : Nat
  deriving DecidableEq, Repr

/-! ### Order Queue -/

/-- The class of work, rising (R40). -/
inductive WorkClass where
  | normal
  | priority
  | rush
  deriving DecidableEq, Repr

/-- Why an order is STARVED (R52). -/
inductive StarveReason where
  | noStock
  | digLimit
  | unreachable
  deriving DecidableEq, Repr

/-- Why an order is BLOCKED (Table 3-1). -/
inductive OrderBlock where
  | infeedTimeout
  | sawBlocked
  | overrun
  deriving DecidableEq, Repr

/-- State of an order entry with the fields present in it (R40, R41). -/
inductive OrderState where
  | queued
  | active (c : Carriage)
  | suspended (c : Carriage)
  | starved (reason : StarveReason)
  | blocked (reason : OrderBlock)
  deriving DecidableEq, Repr

/-- An order entry (Table 3-1). -/
structure OrderEntry where
  number : Nat
  saw : Saw
  material : Nat
  thickness : Nat
  cls : WorkClass
  quantity : Nat
  remaining : Nat
  placed : Nat
  divert : Option Place
  state : OrderState
  rank : Nat
  deriving DecidableEq, Repr

/-- State of a return entry with the fields present in it (R45). -/
inductive ReturnState where
  | notDue
  | due (rank : Nat)
  | taken (c : Carriage) (rank : Nat)
  | suspended (c : Carriage) (rank : Nat)
  deriving DecidableEq, Repr

/-- An entry of the return-work list (R45); its saw is its index in the list. -/
structure ReturnEntry where
  place : Place
  count : Nat
  ready : Bool
  withdrawn : Bool
  state : ReturnState
  deriving DecidableEq, Repr

/-- The Order Queue (R40 to R46). -/
structure OrderQueue where
  entries : List OrderEntry
  returns : Vector (Option ReturnEntry) 4
  nextRank : Nat
  deriving DecidableEq, Repr

/-! ### Carriage Sequencers -/

/-- The ten carriage states (Table 6-1). -/
inductive CarState where
  | unreferenced
  | homing
  | idle
  | claiming
  | moving
  | sawWait
  | blocked
  | held
  | faulted
  | stopped
  deriving DecidableEq, Repr

/-- What the current work is, with its reference and the data of its offer (R65). A SET DOWN made by
a cancel has no target until its destination is chosen; it keeps the order's divert place (R83). -/
inductive WorkKind where
  | order (number : Nat) (saw : Saw) (material thickness : Nat) (infeed : Place)
      (divert : Option Place)
  | returnJob (place : Place) (saw : Saw)
  | setDown (target : Option Place) (divert : Option Place)
  deriving DecidableEq, Repr

/-- Phase of the current work; dig remaining and the dug stack are present in DIG only (R65). -/
inductive Phase where
  | source
  | dig (remaining : Nat) (dug : Place)
  | deliver
  | carry
  | divert
  deriving DecidableEq, Repr

/-- The current work record (Table 4-1). -/
structure Work where
  kind : WorkKind
  cls : WorkClass
  phase : Phase
  source : Option Place
  dest : Option Place
  deriving DecidableEq, Repr

/-- What a suspended-work record refers to (R66). -/
inductive SuspendedRef where
  | order (number : Nat)
  | returnJob (place : Place)
  deriving DecidableEq, Repr

/-- The phase of work at its suspension (R66). -/
inductive SuspendedPhase where
  | source
  | dig
  | deliver
  deriving DecidableEq, Repr

/-- A suspended-work record (R66). -/
structure Suspended where
  ref : SuspendedRef
  phase : SuspendedPhase
  dug : Option Place
  deriving DecidableEq, Repr

/-- The piece a carriage holds (R67), with the profile values of its pick (R13). -/
structure Load where
  piece : Piece
  origin : Place
  sure : Bool
  profile : GripProfile
  deriving DecidableEq, Repr

/-- The notices a HELD sequencer has latched, beside the cancel notice (R136). -/
structure Latched where
  work : Bool
  content : Bool
  release : Bool
  opening : Bool
  deriving DecidableEq, Repr

/-- The records of a Carriage Sequencer (Table 4-3, R119). -/
structure Sequencer where
  state : CarState
  work : Option Work
  /-- The suspend stack, bottom first (R66). -/
  suspended : List Suspended
  load : Option Load
  wait : Timer
  /-- An expiry of the wait timer taken during a step, to be acted on when it completes (R77). -/
  expired : Bool
  holdPending : Bool
  cancelPending : Bool
  resumePending : Bool
  /-- The queue has told that the order of the current work has counted down to 0 (R55). -/
  orderDone : Bool
  /-- BUFFER FULL has been raised for the present want of a destination (R88). -/
  fullRaised : Bool
  /-- In DELIVER: the carriage has arrived at the infeed of its order and not left it (R75, R138). -/
  atInfeed : Bool
  /-- A work notice, or the sequencer's own occasion to ask, is pending (R47). -/
  ask : Bool
  latched : Latched
  deriving DecidableEq, Repr

/-! ### Drive Link Ports -/

/-- Link state of a port (R122). -/
inductive LinkState where
  | disabled
  | notReady
  | ready
  | fault
  deriving DecidableEq, Repr

/-- How far a PICK in a slot has come (R125, R126). -/
inductive PickPhase where
  | descending
  | firstGrip
  | secondGrip
  | lifting
  | lifted
  | abandoning
  deriving DecidableEq, Repr

/-- A step in a slot with what its command carries (Table 6-3) and how far it has come. `slipped`
notes a VACUUM LOW of the pick (R130); `released` a RELEASE DONE of the place (R128). -/
inductive Step where
  | travel (x y : Nat) (floor : Option Nat)
  | pick (place : Place) (top search : Nat) (profile : GripProfile) (phase : PickPhase)
      (slipped : Bool)
  | place (place : Place) (top floor : Nat) (released : Bool)
  | home
  deriving DecidableEq, Repr

/-- Whether a step command is sent as current or as next (R120). -/
inductive Slot where
  | current
  | next
  deriving DecidableEq, Repr

/-- A command sent to a drive (Table 6-3). -/
inductive DriveCmd where
  | travel (slot : Slot) (x y : Nat) (floor : Option Nat)
  | pick (slot : Slot) (top search floor : Nat)
  | grip
  | regrip
  | lift
  | abandon
  | place (slot : Slot) (top floor : Nat)
  | withdrawNext
  | home
  | stop
  | clear
  deriving DecidableEq, Repr

/-- The records of a Drive Link Port (R120 to R123, R129). -/
structure DrivePort where
  link : LinkState
  position : Option Pos
  current : Option Step
  next : Option Step
  withdrawing : Bool
  stopping : Bool
  clearPending : Bool
  /-- The commands sent to the drive since power-on, oldest first: the output of the drive link. -/
  sent : List DriveCmd
  deriving DecidableEq, Repr

/-! ### Zone Arbiter -/

/-- A reason a zone is closed to travel (R89). -/
inductive ClosureSource where
  | curtain (k : Curtain)
  | gate (g : Gate)
  | host
  deriving DecidableEq, Repr

/-- A zone record; `sources` has one place per closure source, in the order of the closure-source byte
of R186: CURTAIN 0 to 3, GATE 0 to 1, HOST. -/
structure ZoneRec where
  holder : Option Carriage
  sources : Vector Bool 7
  deriving DecidableEq, Repr

/-- The two kinds of ordered move (R98). -/
inductive MoveKind where
  | makeWay
  | clearOut
  deriving DecidableEq, Repr

/-- An ordered move with its target zone (R98). -/
structure OrderedMove where
  kind : MoveKind
  target : Nat
  deriving DecidableEq, Repr

/-- The arbiter's record of a carriage, but for its state and its waiting claim (R90). -/
structure ArbRecord where
  accepted : Option Pos
  zone : Option Nat
  ordered : Option OrderedMove
  deriving DecidableEq, Repr

/-- A waiting claim (R92); its span is taken afresh at each judgement, its place in the waiting order
is its place in the list. -/
structure WaitingClaim where
  carriage : Carriage
  target : Nat
  cls : WorkClass
  stalled : Bool
  deriving DecidableEq, Repr

/-- State of a gate's closing record with the range taken at the request (R101). -/
inductive GateState where
  | off
  | awaiting (range : Option ZoneRange)
  | granted (range : Option ZoneRange)
  deriving DecidableEq, Repr

/-- A gate's closing record, its stall flag and its ACCESS GRANT line (R101, R106). -/
structure GateRec where
  state : GateState
  stalled : Bool
  grant : Bool
  deriving DecidableEq, Repr

/-- The host closing record: NONE or AWAITING with a range, and its stall flag (R101). -/
structure HostClosing where
  awaiting : Option ZoneRange
  stalled : Bool
  deriving DecidableEq, Repr

/-- The Zone Arbiter (R89, R90, R101). -/
structure Arbiter where
  zones : Vector ZoneRec 16
  records : PerCarriage ArbRecord
  /-- Waiting claims, the one that began waiting first first (R92). -/
  waiting : List WaitingClaim
  gates : Vector GateRec 2
  host : HostClosing
  deriving DecidableEq, Repr

/-! ### Saw Station Controllers -/

/-- How books are formed (R144). -/
inductive SawMode where
  | book
  | basic
  deriving DecidableEq, Repr

/-- Why an infeed is BLOCKED (Table 7-1). -/
inductive InfeedBlock where
  | fallback
  | strandedBook
  | overrun
  deriving DecidableEq, Repr

/-- Condition of an infeed; the block reason is present in BLOCKED only (Table 7-1). -/
inductive InfeedState where
  | undefined
  | closed
  | opened
  | cutting
  | blocked (reason : InfeedBlock)
  deriving DecidableEq, Repr

/-- The status of the last status record taken from a saw link (Table 7-1). -/
inductive SawStatus where
  | none
  | auto
  | manual
  deriving DecidableEq, Repr

/-- A Saw Station Controller: infeed record (Table 7-1), lines, and return record (Table 8-1). -/
structure SawStation where
  mode : SawMode
  state : InfeedState
  threshold : Nat
  /-- Book timeout in s; 0 means no timer. -/
  timeout : Nat
  bookTimer : Timer
  /-- Wait limit in s. -/
  waitLimit : Nat
  lock : Bool
  basicTaken : Bool
  releasePending : Bool
  fallbackPending : Bool
  status : SawStatus
  silent : Bool
  silence : Timer
  ready : Bool
  cutDone : Bool
  cutGo : Bool
  overrun : Bool
  overrunCount : Nat
  permitHold : Bool
  /-- Last fed list, most recent first: material and profile (R162). -/
  lastFed : List (Nat × Profile)
  deriving DecidableEq, Repr

/-! ### Event Unit -/

/-- Event kinds in the order of Table 9-1. -/
inductive EventKind where
  | eStop
  | curtainBreach
  | zoneConflict
  | gripLoss
  | driveFault
  | gripFail
  | stackMismatch
  | stackOverflow
  | infeedTimeout
  | sawFallback
  | returnOverrun
  | claimStall
  | bufferFull
  | noStock
  | linkOverrun
  | orderDone
  | cutReleased
  | homeDone
  | zoneClosed
  | stackEmpty
  deriving DecidableEq, Repr

/-- The class of an event (section 9.1). -/
inductive EventClass where
  | alarm
  | warning
  | notice
  deriving DecidableEq, Repr

/-- The source of an event (Table 9-1). -/
inductive EventSource where
  | cell
  | curtain (k : Curtain)
  | carriage (c : Carriage)
  | place (p : Place)
  | saw (w : Saw)
  | order (number : Nat)
  | gate (g : Gate)
  | host
  | hostLink
  deriving DecidableEq, Repr

/-- A pending entry; its class is fixed by its kind (Table 9-2). -/
structure EventEntry where
  kind : EventKind
  source : EventSource
  detail : Int
  repeats : Nat
  sent : Bool
  creation : Nat
  deriving DecidableEq, Repr

/-- The Event Unit (R169); the entries stand in rising creation number. -/
structure EventUnit where
  entries : List EventEntry
  gateOpen : Bool
  nextCreation : Nat
  displaced : Nat
  deriving DecidableEq, Repr

/-! ### The whole part -/

/-- The discrete input lines whose level the part reads (Table 0-2); READY and CUT DONE are in the
saw stations. -/
structure Lines where
  curtain : Vector Bool 4
  access : Vector Bool 2
  eStop : Bool
  deriving DecidableEq, Repr

/-- The notices of the running step not yet acted on: an examination is due (R93), a BLOCKED carriage
is to choose again (R88), a carriage in SAW WAIT is to put its questions again (R76). -/
structure Todo where
  exam : Bool
  blocked : PerCarriage Bool
  wait : PerCarriage Bool
  deriving DecidableEq, Repr

/-- The state of the part, and the queue of commands waiting for it. -/
structure State where
  pending : List Instr
  link : HostLink
  cell : CellMap
  /-- One record per place; a place of kind UNUSED has none (R16). -/
  stackRecs : Vector (Option StackRec) 32
  counters : Counters
  queue : OrderQueue
  seq : PerCarriage Sequencer
  port : PerCarriage DrivePort
  arb : Arbiter
  saws : Vector SawStation 4
  events : EventUnit
  lines : Lines
  todo : Todo
  /-- The count that free values are drawn with (the model's own). -/
  free : Nat
  deriving DecidableEq, Repr

/-! ### Power-on values -/

/-- A stopped timer with nothing remaining. -/
def Timer.stopped : Timer := ⟨false, 0⟩

/-- The Host Link Controller after power-on (R178, R180, R181, R183, R184). -/
def HostLink.reset : HostLink where
  rx := .hunt
  gap := Timer.stopped
  waiting := []
  owedBad := 0
  owedBusy := 0
  owedBadKind := 0
  owedBusyKind := 0
  outbound := []
  framingErrors := 0
  frameTimeouts := 0
  badChecks := 0
  overruns := 0

/-- A place after power-on (Table 1-1). -/
def PlaceDef.reset : PlaceDef := ⟨.unused, 0, 0, 0, 0, 0, none⟩

/-- The Cell Map after power-on (Table 1-1). -/
def CellMap.reset : CellMap where
  starts := Vector.ofFn fun k => k.val * 4000
  places := Vector.replicate 32 PlaceDef.reset
  curtains := Vector.replicate 4 none
  gates := Vector.replicate 2 none
  profiles := Vector.replicate 8 ⟨40, 90, 30⟩
  tolerance := 20
  digLimit := 40
  trigger := 2

/-- The Order Queue after power-on (Table 3-4). -/
def OrderQueue.reset : OrderQueue := ⟨[], Vector.replicate 4 none, 1⟩

/-- No notice latched. -/
def Latched.none : Latched := ⟨false, false, false, false⟩

/-- A sequencer after power-on (Table 4-3, Table 6-6). -/
def Sequencer.reset : Sequencer where
  state := .unreferenced
  work := none
  suspended := []
  load := none
  wait := Timer.stopped
  expired := false
  holdPending := false
  cancelPending := false
  resumePending := false
  orderDone := false
  fullRaised := false
  atInfeed := false
  ask := false
  latched := Latched.none

/-- A port after power-on (Table 6-6). -/
def DrivePort.reset : DrivePort where
  link := .notReady
  position := none
  current := none
  next := none
  withdrawing := false
  stopping := false
  clearPending := false
  sent := []

/-- A zone after power-on (R89). -/
def ZoneRec.reset : ZoneRec := ⟨none, Vector.replicate 7 false⟩

/-- The arbiter after power-on (R114). -/
def Arbiter.reset : Arbiter where
  zones := Vector.replicate 16 ZoneRec.reset
  records := ⟨⟨none, none, none⟩, ⟨none, none, none⟩⟩
  waiting := []
  gates := Vector.replicate 2 ⟨.off, false, false⟩
  host := ⟨none, false⟩

/-- A saw station after power-on (Table 7-1, Table 8-1). -/
def SawStation.reset : SawStation where
  mode := .basic
  state := .undefined
  threshold := 1
  timeout := 0
  bookTimer := Timer.stopped
  waitLimit := 60
  lock := false
  basicTaken := false
  releasePending := false
  fallbackPending := false
  status := .none
  silent := true
  silence := Timer.stopped
  ready := false
  cutDone := false
  cutGo := false
  overrun := false
  overrunCount := 0
  permitHold := false
  lastFed := []

/-- The Event Unit after power-on (R169). -/
def EventUnit.reset : EventUnit := ⟨[], true, 1, 0⟩

/-- No notice outstanding inside a step. -/
def Todo.none : Todo := ⟨false, ⟨false, false⟩, ⟨false, false⟩⟩

/-- The part after power-on with every input line deasserted: every block at its initial values
(R1, R16, R38, R63, R114, R142, R144, R161, R169, R178). -/
def State.reset : State where
  pending := []
  link := HostLink.reset
  cell := CellMap.reset
  stackRecs := Vector.replicate 32 none
  counters := ⟨0, 0, 0, 0, 0⟩
  queue := OrderQueue.reset
  seq := ⟨Sequencer.reset, Sequencer.reset⟩
  port := ⟨DrivePort.reset, DrivePort.reset⟩
  arb := Arbiter.reset
  saws := Vector.replicate 4 SawStation.reset
  events := EventUnit.reset
  lines := ⟨Vector.replicate 4 false, Vector.replicate 2 false, false⟩
  todo := Todo.none
  free := 0

end Sys2Proof.Machine
end

