-- ==== Sys2Proof/Machine/Ops.lean ====
section
/-! DEFINITION. Named operations over the records of the part: accessors and updates, the outbound
queue, the Event Unit, and the passing of time. -/

namespace Sys2Proof.Machine

/-! ### Carriages -/

/-- The other carriage. -/
def other : Carriage → Carriage
  | .A => .B
  | .B => .A

/-- The value of a carriage. -/
def PerCarriage.get {α : Type} (v : PerCarriage α) : Carriage → α
  | .A => v.a
  | .B => v.b

/-- Replace the value of a carriage. -/
def PerCarriage.set {α : Type} (v : PerCarriage α) (c : Carriage) (x : α) : PerCarriage α :=
  match c with
  | .A => { v with a := x }
  | .B => { v with b := x }

/-- The sequencer of a carriage. -/
def State.sq (s : State) (c : Carriage) : Sequencer := s.seq.get c

/-- The drive port of a carriage. -/
def State.pt (s : State) (c : Carriage) : DrivePort := s.port.get c

/-- The arbiter's record of a carriage. -/
def State.arec (s : State) (c : Carriage) : ArbRecord := s.arb.records.get c

/-- Change the sequencer of a carriage. -/
def State.modSeq (s : State) (c : Carriage) (f : Sequencer → Sequencer) : State :=
  { s with seq := s.seq.set c (f (s.sq c)) }

/-- Change the port of a carriage. -/
def State.modPort (s : State) (c : Carriage) (f : DrivePort → DrivePort) : State :=
  { s with port := s.port.set c (f (s.pt c)) }

/-- Change the arbiter's record of a carriage. -/
def State.modRec (s : State) (c : Carriage) (f : ArbRecord → ArbRecord) : State :=
  { s with arb := { s.arb with records := s.arb.records.set c (f (s.arec c)) } }

/-- Change the record of a saw station. -/
def State.modSaw (s : State) (w : Saw) (f : SawStation → SawStation) : State :=
  { s with saws := s.saws.set w.val (f s.saws[w]) }

/-- Change the Host Link Controller's record. -/
def State.modLink (s : State) (f : HostLink → HostLink) : State := { s with link := f s.link }

/-- A carriage is referenced in every state but UNREFERENCED, HOMING and STOPPED (R119). -/
def referenced : CarState → Bool
  | .unreferenced => false
  | .homing => false
  | .stopped => false
  | _ => true

/-! ### Zones -/

/-- The holder of a zone; a number above 15 names no zone. -/
def State.holder (s : State) (z : Nat) : Option Carriage :=
  if h : z < 16 then s.arb.zones[z].holder else none

/-- A zone has a closure source (R89). -/
def State.zoneClosed (s : State) (z : Nat) : Bool :=
  if h : z < 16 then s.arb.zones[z].sources.toList.any id else false

/-- Place of a closure source in a zone's set (R186). -/
def sourceIndex : ClosureSource → Fin 7
  | .curtain k => ⟨k.val, by omega⟩
  | .gate g => ⟨4 + g.val, by omega⟩
  | .host => 6

/-- A zone number lies in a range. -/
def inRange (r : ZoneRange) (z : Nat) : Bool := r.first ≤ z && z ≤ r.last

/-- A zone number lies in a range that may be NONE. -/
def inOptRange (r : Option ZoneRange) (z : Nat) : Bool :=
  match r with
  | some r => inRange r z
  | none => false

/-- Change every zone record. -/
def State.mapZones (s : State) (f : Nat → ZoneRec → ZoneRec) : State :=
  { s with arb := { s.arb with zones := Vector.ofFn fun z : Fin 16 => f z.val s.arb.zones[z] } }

/-- Carriage `c` becomes holder of every zone that `p` picks out. -/
def State.holdZones (s : State) (c : Carriage) (p : Nat → Bool) : State :=
  s.mapZones fun z r => if p z then { r with holder := some c } else r

/-- Every zone of carriage `c` that `keep` does not pick out is released (R95). -/
def State.releaseZones (s : State) (c : Carriage) (keep : Nat → Bool) : State :=
  s.mapZones fun z r => if r.holder = some c && !keep z then { r with holder := none } else r

/-- Add a closure source to the zones that `p` picks out (R89: once in a zone's set). -/
def State.addSource (s : State) (src : ClosureSource) (p : Nat → Bool) : State :=
  s.mapZones fun z r =>
    if p z then { r with sources := r.sources.set (sourceIndex src).val true } else r

/-- Remove a closure source from the zones that `p` picks out. -/
def State.removeSource (s : State) (src : ClosureSource) (p : Nat → Bool) : State :=
  s.mapZones fun z r =>
    if p z then { r with sources := r.sources.set (sourceIndex src).val false } else r

/-- The numbers of the zones carriage `c` holds, lowest first. -/
def State.heldZones (s : State) (c : Carriage) : List Nat :=
  (List.range 16).filter fun z => s.holder z = some c

/-- The zones of `r` that some carriage holds. -/
def State.rangeHeld (s : State) (r : ZoneRange) : Bool :=
  (List.range 16).any fun z => inRange r z && (s.holder z).isSome

/-! ### The work still to be done in the running step -/

/-- An examination of the arbiter is due (R93). -/
def State.dueExam (s : State) : State := { s with todo := { s.todo with exam := true } }

/-- Tell a carriage BLOCKED for want of a destination to choose again; a HELD one latches the notice
by `latch` (R88, R136). -/
def State.nudgeBlocked (s : State) (c : Carriage) (latch : Latched → Latched) : State :=
  match (s.sq c).state with
  | .blocked => { s with todo := { s.todo with blocked := s.todo.blocked.set c true } }
  | .held => s.modSeq c fun q => { q with latched := latch q.latched }
  | _ => s

/-- Tell a carriage in SAW WAIT to put its questions again (R76). -/
def State.nudgeWait (s : State) (c : Carriage) : State :=
  { s with todo := { s.todo with wait := s.todo.wait.set c true } }

/-- The sequencer of `c` changes its state and hands the change to the arbiter, which examines (R93),
and to the other sequencer, which retries its choice when BLOCKED (R119, R88). -/
def State.setCarState (s : State) (c : Carriage) (st : CarState) : State :=
  if (s.sq c).state = st then s
  else
    ((s.modSeq c fun q => { q with state := st }).dueExam).nudgeBlocked (other c)
      fun l => { l with release := true }

/-! ### Numbers as bytes (R186) -/

/-- The low byte of a number. -/
def byte (n : Nat) : Byte := BitVec.ofNat 8 n

/-- The bytes of a two-byte word, low byte first. -/
def halfBytes (h : Half) : List Byte := [h.setWidth 8, (h >>> 8).setWidth 8]

/-- A number in two bytes, low byte first. -/
def num16 (n : Nat) : List Byte := halfBytes (BitVec.ofNat 16 n)

/-- The bytes of a four-byte word, low byte first. -/
def quadBytes (q : Quad) : List Byte :=
  [q.setWidth 8, (q >>> 8).setWidth 8, (q >>> 16).setWidth 8, (q >>> 24).setWidth 8]

/-- A number in four bytes, low byte first. -/
def num32 (n : Nat) : List Byte := quadBytes (BitVec.ofNat 32 n)

/-- A number in five bytes, low byte first: an inventory counter. -/
def num40 (n : Nat) : List Byte := num32 (n % 4294967296) ++ [byte (n / 4294967296)]

/-- A flag: 1 for YES, asserted or running, 0 otherwise. -/
def flagByte (b : Bool) : Byte := if b then 1 else 0

/-- An absent one-byte field or NONE. -/
def absent : Byte := 0xFF

/-- An optional one-byte number. -/
def optByte (o : Option Nat) : Byte :=
  match o with
  | some n => byte n
  | none => absent

/-- Code of a carriage. -/
def carriageCode : Carriage → Nat
  | .A => 0
  | .B => 1

/-- Code of a user or holder: 0 for none, 1 for A, 2 for B. -/
def userByte : Option Carriage → Byte
  | none => 0
  | some c => byte (carriageCode c + 1)

/-! ### The outbound queue -/

/-- Free frames of the outbound queue (R183). -/
def State.freeFrames (s : State) : Nat := Config.maxFrames - s.link.outbound.length

/-- Queue a frame behind the others. -/
def State.queueFrame (s : State) (f : Frame) : State :=
  s.modLink fun l => { l with outbound := l.outbound ++ [f] }

/-- An ACCEPT reply to a request of the given kind (R185). -/
def acceptFrame (kind : Byte) (fields : List Byte) : Frame := ⟨0x80, kind :: fields⟩

/-- A REFUSE frame: answered kind, reason code, field index or count (Table 10-3). -/
def refuseFrame (kind reason last : Byte) : Frame := ⟨0x81, [kind, reason, last]⟩

/-! ### The Event Unit -/

/-- The class of an event kind (Table 9-1). -/
def eventClass : EventKind → EventClass
  | .eStop => .alarm
  | .curtainBreach => .alarm
  | .zoneConflict => .alarm
  | .gripLoss => .alarm
  | .driveFault => .alarm
  | .gripFail => .warning
  | .stackMismatch => .warning
  | .stackOverflow => .warning
  | .infeedTimeout => .warning
  | .sawFallback => .warning
  | .returnOverrun => .warning
  | .claimStall => .warning
  | .bufferFull => .warning
  | .noStock => .warning
  | .linkOverrun => .warning
  | .orderDone => .notice
  | .cutReleased => .notice
  | .homeDone => .notice
  | .zoneClosed => .notice
  | .stackEmpty => .notice

/-- Code of an event kind, 0 to 19 in the order of Table 9-1. -/
def eventCode : EventKind → Nat
  | .eStop => 0
  | .curtainBreach => 1
  | .zoneConflict => 2
  | .gripLoss => 3
  | .driveFault => 4
  | .gripFail => 5
  | .stackMismatch => 6
  | .stackOverflow => 7
  | .infeedTimeout => 8
  | .sawFallback => 9
  | .returnOverrun => 10
  | .claimStall => 11
  | .bufferFull => 12
  | .noStock => 13
  | .linkOverrun => 14
  | .orderDone => 15
  | .cutReleased => 16
  | .homeDone => 17
  | .zoneClosed => 18
  | .stackEmpty => 19

/-- Code of an event class; a lower code is a higher class (Table 10-7). -/
def classCode : EventClass → Nat
  | .alarm => 0
  | .warning => 1
  | .notice => 2

/-- Code and number of an event source; a source that has no number gives none (Table 10-7). -/
def sourceCode : EventSource → Nat × Option Nat
  | .cell => (0, none)
  | .curtain k => (1, some k.val)
  | .carriage c => (2, some (carriageCode c))
  | .place p => (3, some p.val)
  | .saw w => (4, some w.val)
  | .order n => (5, some n)
  | .gate g => (6, some g.val)
  | .host => (7, none)
  | .hostLink => (8, none)

/-- The 14 bytes of an entry (Table 10-7); `filler` stands for the number of a source that has none. -/
def eventBody (filler : Half) (e : EventEntry) : List Byte :=
  let src := sourceCode e.source
  [byte (eventCode e.kind), byte (classCode (eventClass e.kind)), byte src.1]
    ++ (match src.2 with | some n => num16 n | none => halfBytes filler)
    ++ quadBytes (BitVec.ofInt 32 e.detail) ++ [byte e.repeats] ++ num32 e.creation

/-- An entry may be sent: it is unsent, and an ALARM or the gate is open (R171). -/
def sendable (gateOpen : Bool) (e : EventEntry) : Bool :=
  !e.sent && (eventClass e.kind = .alarm || gateOpen)

/-- The first entry in sending order among those `p` picks out: class, highest first, then creation
number, lowest first (R171). The entries stand in rising creation number. -/
def firstInOrder (p : EventEntry → Bool) (es : List EventEntry) : Option EventEntry :=
  match es.find? fun e => p e && eventClass e.kind = .alarm with
  | some e => some e
  | none =>
    match es.find? fun e => p e && eventClass e.kind = .warning with
    | some e => some e
    | none => es.find? p

/-- Two entries stand for the same kind and source (R169). -/
def sameEvent (kind : EventKind) (source : EventSource) (e : EventEntry) : Bool :=
  e.kind = kind && e.source = source

/-- Mark an entry sent. -/
def markSent (e : EventEntry) (es : List EventEntry) : List EventEntry :=
  es.map fun x => if sameEvent e.kind e.source x then { x with sent := true } else x

/-- The sending of R171, at most `n` reports: while at least 2 frames are free, the first eligible
entry goes out and becomes sent. -/
def State.sendReportsN : Nat → State → State
  | 0, s => s
  | n + 1, s =>
    if s.freeFrames < 2 then s
    else
      match firstInOrder (sendable s.events.gateOpen) s.events.entries with
      | none => s
      | some e =>
        let s1 := s.queueFrame ⟨0x90, eventBody (Config.freeHalf s.free 3) e⟩
        State.sendReportsN n
          { s1 with
            events := { s1.events with entries := markSent e s1.events.entries }
            free := s1.free + 1 }

/-- The sending of R171; each report takes one of the 8 frames. -/
def State.sendReports (s : State) : State := s.sendReportsN Config.maxFrames

/-- The next creation number and the event unit after handing it out; the entries present are first
renumbered from 1 when the number would pass its maximum (R169). -/
def EventUnit.nextNumber (u : EventUnit) : Nat × EventUnit :=
  if u.nextCreation ≤ Config.maxRank then
    (u.nextCreation, { u with nextCreation := u.nextCreation + 1 })
  else
    let es := u.entries.mapIdx fun i e => { e with creation := i + 1 }
    (es.length + 1, { u with entries := es, nextCreation := es.length + 2 })

/-- Add a new entry (R170). -/
def EventUnit.create (u : EventUnit) (kind : EventKind) (source : EventSource) (detail : Int) :
    EventUnit :=
  let n := u.nextNumber
  { n.2 with entries := n.2.entries ++ [⟨kind, source, detail, 0, false, n.1⟩] }

/-- The oldest entry of the lowest class present (R170). -/
def oldestLowest (es : List EventEntry) : Option EventEntry :=
  match es.find? fun e => eventClass e.kind = .notice with
  | some e => some e
  | none =>
    match es.find? fun e => eventClass e.kind = .warning with
    | some e => some e
    | none => es.head?

/-- Count a displaced entry, holding at 255 (R169). -/
def EventUnit.countDisplaced (u : EventUnit) : EventUnit :=
  { u with displaced := min (u.displaced + 1) Config.maxSmall }

/-- The pending set after a raising (R170), and whether an entry was made or changed. -/
def EventUnit.raise (u : EventUnit) (kind : EventKind) (source : EventSource) (detail : Int) :
    EventUnit × Bool :=
  if u.entries.any (sameEvent kind source) then
    ({ u with
      entries := u.entries.map fun e =>
        if sameEvent kind source e then
          { e with repeats := min (e.repeats + 1) Config.maxSmall, detail := detail, sent := false }
        else e }, true)
  else if u.entries.length < Config.maxEvents then (u.create kind source detail, true)
  else
    match oldestLowest u.entries with
    | none => (u, false)
    | some e =>
      if classCode (eventClass kind) ≤ classCode (eventClass e.kind) then
        let kept := u.entries.filter fun x => !sameEvent e.kind e.source x
        (({ u with entries := kept }.create kind source detail).countDisplaced, true)
      else (u.countDisplaced, false)

/-- Raise an event (R170) and send what R171 then lets through. -/
def State.raise (s : State) (kind : EventKind) (source : EventSource) (detail : Int) : State :=
  let r := s.events.raise kind source detail
  let s1 := { s with events := r.1 }
  if r.2 then s1.sendReports else s1

/-- Remove the pending entries that `p` picks out (section 9.4). -/
def State.clearEvents (s : State) (p : EventEntry → Bool) : State :=
  { s with events := { s.events with entries := s.events.entries.filter fun e => !p e } }

/-- The alarm entries of a carriage that a RESUME or a HOME DONE clears (R173). -/
def carriageAlarm (c : Carriage) (e : EventEntry) : Bool :=
  e.source = .carriage c
    && (e.kind = .zoneConflict || e.kind = .gripLoss || e.kind = .driveFault)

/-! ### Inventory counters -/

/-- An increase that holds at the maximum (R38). -/
def countUp (n k : Nat) : Nat := min (n + k) Config.maxCounter

/-- Change the inventory counters. -/
def State.modCounters (s : State) (f : Counters → Counters) : State :=
  { s with counters := f s.counters }

/-! ### Timers and time -/

/-- A timer loaded with a number of ms and running. -/
def Timer.start (ms : Nat) : Timer := ⟨true, ms⟩

/-- A timer stopped with its remaining time kept. -/
def Timer.halt (t : Timer) : Timer := { t with running := false }

/-- One ms passes for a timer. -/
def Timer.tick (t : Timer) : Timer := if t.running then { t with ms := t.ms - 1 } else t

/-- One ms passes for every timer of the part. -/
def State.tick (s : State) : State :=
  { s with
    link := { s.link with gap := s.link.gap.tick }
    seq := ⟨{ s.seq.a with wait := s.seq.a.wait.tick }, { s.seq.b with wait := s.seq.b.wait.tick }⟩
    saws := s.saws.map fun w => { w with bookTimer := w.bookTimer.tick, silence := w.silence.tick } }

end Sys2Proof.Machine
end

