-- ==== Sys2Proof/Machine/Operands.lean ====
section
/-! DEFINITION. The fields of a request: how a body spells them (R182, R186, Tables 10-2, 10-5 and
10-6), their ranges, and the codes of enumerated values. -/

namespace Sys2Proof.Machine

/-- Refusal reasons in the order of their codes (Table 10-3). -/
inductive Reason where
  | badFrame
  | unknownKind
  | badLength
  | badValue
  | busy
  | notNow
  | inUse
  | full
  | duplicate
  | unknownOrder
  | notDefined
  | zoneClosed
  | notReferenced
  | loaded
  | sawNotAuto
  deriving DecidableEq, Repr

/-- Code of a refusal reason (Table 10-3). -/
def reasonCode : Reason → Byte
  | .badFrame => 0
  | .unknownKind => 1
  | .badLength => 2
  | .badValue => 3
  | .busy => 4
  | .notNow => 5
  | .inUse => 6
  | .full => 7
  | .duplicate => 8
  | .unknownOrder => 9
  | .notDefined => 10
  | .zoneClosed => 11
  | .notReferenced => 12
  | .loaded => 13
  | .sawNotAuto => 14

/-- The outcome of a request: ACCEPT with its fields, or REFUSE with its reason and field index
(R182). -/
inductive Reply where
  | accept (fields : List Byte)
  | refuse (reason : Reason) (index : Nat)
  deriving DecidableEq, Repr

/-- A refusal BAD VALUE with its field index. -/
def Reply.badValue (index : Nat) : Reply := .refuse .badValue index

/-- The frame of a reply to a request of the given kind (R182, R185). -/
def Reply.frame (kind : Byte) : Reply → Frame
  | .accept fields => acceptFrame kind fields
  | .refuse reason index => refuseFrame kind (reasonCode reason) (byte index)

/-! ### Reading a body -/

/-- A two-byte field, low byte first. -/
def half (lo hi : Byte) : Half := hi ++ lo

/-- A four-byte field, low byte first. -/
def quad (a b c d : Byte) : Quad := d ++ c ++ b ++ a

/-- The two-byte fields of a body. -/
def readHalves : List Byte → List Half
  | lo :: hi :: rest => half lo hi :: readHalves rest
  | _ => []

/-- The run records of a body (Table 10-5). -/
def readRuns : List Byte → List WireRun
  | m0 :: m1 :: t0 :: t1 :: p :: z :: n :: rest => ⟨half m0 m1, half t0 t1, p, z, n⟩ :: readRuns rest
  | _ => []

/-- A frame read as a request, or the refusal of R182 steps 1 and 2. -/
inductive Parsed where
  | request (r : Request)
  | refused (reason : Reason) (index : Nat)
  deriving DecidableEq, Repr

/-- The refusal of a body whose length is not that of its kind. -/
def Parsed.badLength : Parsed := .refused .badLength 0

/-- A body with no field. -/
def parse0 (r : Request) : List Byte → Parsed
  | [] => .request r
  | _ => .badLength

/-- A body of one byte. -/
def parse1 (f : Byte → Request) : List Byte → Parsed
  | [a] => .request (f a)
  | _ => .badLength

/-- A body of two bytes. -/
def parse2 (f : Byte → Byte → Request) : List Byte → Parsed
  | [a, b] => .request (f a b)
  | _ => .badLength

/-- A body of three bytes. -/
def parse3 (f : Byte → Byte → Byte → Request) : List Byte → Parsed
  | [a, b, c] => .request (f a b c)
  | _ => .badLength

/-- A body of four bytes. -/
def parse4 (f : Byte → Byte → Byte → Byte → Request) : List Byte → Parsed
  | [a, b, c, d] => .request (f a b c d)
  | _ => .badLength

/-- A body of one two-byte field. -/
def parseHalf (f : Half → Request) : List Byte → Parsed
  | [a, b] => .request (f (half a b))
  | _ => .badLength

/-- The body of SET ZONE MAP: 16 two-byte starts. -/
def parseZoneMap (body : List Byte) : Parsed :=
  if body.length = 32 then .request (.setZoneMap (readHalves body)) else .badLength

/-- The body of DEFINE PLACE (R6, Table 1-2). -/
def parseDefinePlace : List Byte → Parsed
  | [p, k, x0, x1, y0, y1, b0, b1, n, h0, h1, w] =>
    .request (.definePlace p k (half x0 x1) (half y0 y1) (half b0 b1) n (half h0 h1) w)
  | _ => .badLength

/-- The body of SAW CONFIG (R146). -/
def parseSawConfig : List Byte → Parsed
  | [w, m, n, t0, t1, l0, l1, k] => .request (.sawConfig w m n (half t0 t1) (half l0 l1) k)
  | _ => .badLength

/-- A run count of a request is in range. -/
def runCountOk (n : Byte) : Bool := 1 ≤ n.toNat && n.toNat ≤ 8

/-- The body of LOAD STACK: its length is judged by the run count it carries (R182, Table 10-6). -/
def parseLoadStack : List Byte → Parsed
  | p :: h :: n :: rest =>
    if !runCountOk n then .refused .badValue 3
    else if rest.length = 7 * n.toNat then .request (.loadStack p h (readRuns rest))
    else .badLength
  | _ => .badLength

/-- The body of ADD RUNS (R25, R182). -/
def parseAddRuns : List Byte → Parsed
  | p :: n :: rest =>
    if !runCountOk n then .refused .badValue 2
    else if rest.length = 7 * n.toNat then .request (.addRuns p (readRuns rest))
    else .badLength
  | _ => .badLength

/-- The body of ORDER (Table 10-6). -/
def parseOrder : List Byte → Parsed
  | [n0, n1, w, m0, m1, t0, t1, c, q0, q1, d] =>
    .request (.order (half n0 n1) w (half m0 m1) (half t0 t1) c (half q0 q1) d)
  | _ => .badLength

/-- The body of QUERY EVENTS: its length is judged by the form it carries (R175, R176, R182). -/
def parseQueryEvents : List Byte → Parsed
  | [] => .badLength
  | form :: rest =>
    if form = 0 then (match rest with | [] => .request .queryEventsSummary | _ => .badLength)
    else if form = 1 then
      (match rest with
        | [a, b, c, d] => .request (.queryEventsList (quad a b c d))
        | _ => .badLength)
    else .refused .badValue 1

/-- Steps 1 and 2 of R182: the kind byte is a request code of Table 10-2, and the length is that of
the kind. -/
def parseRequest (kind : Byte) (body : List Byte) : Parsed :=
  match kind.toNat with
  | 0x01 => parse0 .partStatus body
  | 0x02 => parseZoneMap body
  | 0x03 => parse3 .setCurtain body
  | 0x04 => parse3 .setAccessGate body
  | 0x05 => parse4 .setGripProfile body
  | 0x06 => parse3 .setCellParameters body
  | 0x07 => parseDefinePlace body
  | 0x08 => parseSawConfig body
  | 0x09 => parseLoadStack body
  | 0x0A => parseAddRuns body
  | 0x0B => parse1 .unloadPlace body
  | 0x0C => parse1 .unlockPlace body
  | 0x0D => parseOrder body
  | 0x0E => parseHalf .cancelOrder body
  | 0x0F => parse0 .flushOrders body
  | 0x10 => parse1 .home body
  | 0x11 => parse1 .hold body
  | 0x12 => parse1 .release body
  | 0x13 => parse2 .resume body
  | 0x14 => parse2 .setDown body
  | 0x15 => parse2 .zoneClose body
  | 0x16 => parse2 .zoneOpen body
  | 0x17 => parse0 .reportsOff body
  | 0x18 => parse0 .reportsOn body
  | 0x19 => parse1 .queryCarriage body
  | 0x1A => parse1 .queryPlace body
  | 0x1B => parse1 .querySaw body
  | 0x1C => parseHalf .queryOrder body
  | 0x1D => parse0 .queryZones body
  | 0x1E => parseQueryEvents body
  | 0x1F => parse0 .cellReset body
  | _ => .refused .unknownKind 0

/-! ### Writing a body -/

/-- A run record as bytes (Table 10-5). -/
def wireRunBytes (r : WireRun) : List Byte :=
  halfBytes r.material ++ halfBytes r.thickness ++ [r.profile, r.size, r.count]

/-- The kind byte of a request (Table 10-2). -/
def Request.kind : Request → Byte
  | .partStatus => 0x01
  | .setZoneMap _ => 0x02
  | .setCurtain _ _ _ => 0x03
  | .setAccessGate _ _ _ => 0x04
  | .setGripProfile _ _ _ _ => 0x05
  | .setCellParameters _ _ _ => 0x06
  | .definePlace _ _ _ _ _ _ _ _ => 0x07
  | .sawConfig _ _ _ _ _ _ => 0x08
  | .loadStack _ _ _ => 0x09
  | .addRuns _ _ => 0x0A
  | .unloadPlace _ => 0x0B
  | .unlockPlace _ => 0x0C
  | .order _ _ _ _ _ _ _ => 0x0D
  | .cancelOrder _ => 0x0E
  | .flushOrders => 0x0F
  | .home _ => 0x10
  | .hold _ => 0x11
  | .release _ => 0x12
  | .resume _ _ => 0x13
  | .setDown _ _ => 0x14
  | .zoneClose _ _ => 0x15
  | .zoneOpen _ _ => 0x16
  | .reportsOff => 0x17
  | .reportsOn => 0x18
  | .queryCarriage _ => 0x19
  | .queryPlace _ => 0x1A
  | .querySaw _ => 0x1B
  | .queryOrder _ => 0x1C
  | .queryZones => 0x1D
  | .queryEventsSummary => 0x1E
  | .queryEventsList _ => 0x1E
  | .cellReset => 0x1F

/-- The body of a request (R186, Tables 10-2, 10-5, 10-6). -/
def Request.body : Request → List Byte
  | .partStatus => []
  | .setZoneMap starts => starts.flatMap halfBytes
  | .setCurtain k f l => [k, f, l]
  | .setAccessGate g f l => [g, f, l]
  | .setGripProfile p lo hi fl => [p, lo, hi, fl]
  | .setCellParameters t d r => [t, d, r]
  | .definePlace p k x y b n h w =>
    [p, k] ++ halfBytes x ++ halfBytes y ++ halfBytes b ++ [n] ++ halfBytes h ++ [w]
  | .sawConfig w m n t l k => [w, m, n] ++ halfBytes t ++ halfBytes l ++ [k]
  | .loadStack p h runs => [p, h, byte runs.length] ++ runs.flatMap wireRunBytes
  | .addRuns p runs => [p, byte runs.length] ++ runs.flatMap wireRunBytes
  | .unloadPlace p => [p]
  | .unlockPlace p => [p]
  | .order n w m t c q d =>
    halfBytes n ++ [w] ++ halfBytes m ++ halfBytes t ++ [c] ++ halfBytes q ++ [d]
  | .cancelOrder n => halfBytes n
  | .flushOrders => []
  | .home c => [c]
  | .hold c => [c]
  | .release c => [c]
  | .resume c d => [c, d]
  | .setDown c p => [c, p]
  | .zoneClose f l => [f, l]
  | .zoneOpen f l => [f, l]
  | .reportsOff => []
  | .reportsOn => []
  | .queryCarriage c => [c]
  | .queryPlace p => [p]
  | .querySaw w => [w]
  | .queryOrder n => halfBytes n
  | .queryZones => []
  | .queryEventsSummary => [0]
  | .queryEventsList n => 1 :: quadBytes n
  | .cellReset => []

/-! ### Fields and their ranges -/

/-- A place field, 0 to 31. -/
def placeOf (b : Byte) : Option Place := if h : b.toNat < 32 then some ⟨b.toNat, h⟩ else none

/-- A saw field, 0 to 3. -/
def sawOf (b : Byte) : Option Saw := if h : b.toNat < 4 then some ⟨b.toNat, h⟩ else none

/-- A curtain field, 0 to 3. -/
def curtainOf (b : Byte) : Option Curtain := if h : b.toNat < 4 then some ⟨b.toNat, h⟩ else none

/-- A gate field, 0 to 1. -/
def gateOf (b : Byte) : Option Gate := if h : b.toNat < 2 then some ⟨b.toNat, h⟩ else none

/-- A grip profile field, 0 to 7. -/
def profileOf (b : Byte) : Option Profile := if h : b.toNat < 8 then some ⟨b.toNat, h⟩ else none

/-- A carriage field: A is 0, B is 1. -/
def carriageOf (b : Byte) : Option Carriage :=
  match b.toNat with
  | 0 => some .A
  | 1 => some .B
  | _ => none

/-- A YES or NO field: 1 is YES, 0 is NO. -/
def flagOf (b : Byte) : Option Bool :=
  match b.toNat with
  | 0 => some false
  | 1 => some true
  | _ => none

/-- A place kind field (Table 1-2). -/
def kindOf (b : Byte) : Option PlaceKind :=
  match b.toNat with
  | 0 => some .unused
  | 1 => some .stock
  | 2 => some .buffer
  | 3 => some .remnant
  | 4 => some .infeed
  | 5 => some .return_
  | _ => none

/-- A class field (Table 3-1). -/
def workClassOf (b : Byte) : Option WorkClass :=
  match b.toNat with
  | 0 => some .normal
  | 1 => some .priority
  | 2 => some .rush
  | _ => none

/-- A mode field (R146). -/
def modeOf (b : Byte) : Option SawMode :=
  match b.toNat with
  | 0 => some .book
  | 1 => some .basic
  | _ => none

/-- A size class field: 0 absent, 1 S, 2 M, 3 L; the outer `none` is a byte with no meaning. -/
def sizeOf? (b : Byte) : Option (Option SizeClass) :=
  match b.toNat with
  | 0 => some none
  | 1 => some (some .S)
  | 2 => some (some .M)
  | 3 => some (some .L)
  | _ => none

/-- A zone range given as two bytes, both FFh for NONE; otherwise the index of the field at fault
(R10, R11, R186). -/
inductive RangeField where
  | none
  | range (r : ZoneRange)
  | bad (index : Nat)
  deriving DecidableEq, Repr

/-- Read the two bytes of a zone range whose fields have the indexes `i` and `i + 1`; NONE is not
among the values (R102). -/
def readRange (i : Nat) (first last : Byte) : RangeField :=
  if 15 < first.toNat then .bad i
  else if 15 < last.toNat then .bad (i + 1)
  else if last.toNat < first.toNat then .bad (i + 1)
  else .range ⟨first.toNat, last.toNat⟩

/-- Read a zone range that may be NONE (R10, R11). -/
def readOptRange (first last : Byte) : RangeField :=
  if first = absent ∧ last = absent then .none else readRange 2 first last

/-- A run record of a request in range, or the place of its first bad field, 0 to 4; a count of 0 is
in range where `zeroOk` (R23, R25). -/
def readRun (zeroOk : Bool) (r : WireRun) : Run ⊕ Nat :=
  if r.material.toNat < 1 || 4095 < r.material.toNat then .inr 0
  else if r.thickness.toNat < 30 || 600 < r.thickness.toNat then .inr 1
  else
    match profileOf r.profile, sizeOf? r.size with
    | none, _ => .inr 2
    | _, none => .inr 3
    | some p, some z =>
      if Config.maxPieces < r.count.toNat || (r.count.toNat = 0 && !zeroOk) then .inr 4
      else
        .inl
          ⟨⟨r.material.toNat, r.thickness.toNat, p, z⟩,
            if r.count.toNat = 0 then none else some r.count.toNat⟩

/-- The run records of a request whose first run begins at field index `i`, or the index of the first
bad field. -/
def readRunList (zeroOk : Bool) (i : Nat) : List WireRun → List Run ⊕ Nat
  | [] => .inl []
  | r :: rest =>
    match readRun zeroOk r with
    | .inr k => .inr (i + k)
    | .inl run =>
      match readRunList zeroOk (i + 5) rest with
      | .inr k => .inr k
      | .inl runs => .inl (run :: runs)

/-! ### Codes of enumerated values (R186) -/

/-- Code of a carriage state (Table 6-1). -/
def carStateCode : CarState → Nat
  | .unreferenced => 0
  | .homing => 1
  | .idle => 2
  | .claiming => 3
  | .moving => 4
  | .sawWait => 5
  | .blocked => 6
  | .held => 7
  | .faulted => 8
  | .stopped => 9

/-- Code of an order state (Table 3-1). -/
def orderStateCode : OrderState → Nat
  | .queued => 0
  | .active _ => 1
  | .suspended _ => 2
  | .starved _ => 3
  | .blocked _ => 4

/-- Code of a starve reason (Table 3-1). -/
def starveCode : StarveReason → Nat
  | .noStock => 0
  | .digLimit => 1
  | .unreachable => 2

/-- Code of an order's block reason (Table 3-1). -/
def orderBlockCode : OrderBlock → Nat
  | .infeedTimeout => 0
  | .sawBlocked => 1
  | .overrun => 2

/-- Code of a class of work (Table 3-1). -/
def workClassCode : WorkClass → Nat
  | .normal => 0
  | .priority => 1
  | .rush => 2

/-- Code of a return entry's state (R45). -/
def returnStateCode : ReturnState → Nat
  | .notDue => 0
  | .due _ => 1
  | .taken _ _ => 2
  | .suspended _ _ => 3

/-- Code of a place kind (Table 1-2). -/
def placeKindCode : PlaceKind → Nat
  | .unused => 0
  | .stock => 1
  | .buffer => 2
  | .remnant => 3
  | .infeed => 4
  | .return_ => 5

/-- Code of a stack state (R186: EMPTY 0, READY 1, MEASURE 2, LOCKED 3). -/
def stackStateCode : StackState → Nat
  | .empty => 0
  | .ready => 1
  | .measure => 2
  | .locked _ => 3

/-- Code of a lock reason: 0 none, then MISMATCH, GRIP FAIL, OVERFLOW, HOST (Table 10-9). -/
def lockCode : StackState → Nat
  | .locked .mismatch => 1
  | .locked .gripFail => 2
  | .locked .overflow => 3
  | .locked .host => 4
  | _ => 0

/-- Code of a size class in a run record (Table 10-5). -/
def sizeCode : Option SizeClass → Nat
  | none => 0
  | some .S => 1
  | some .M => 2
  | some .L => 3

/-- Code of an infeed state (Table 7-1). -/
def infeedStateCode : InfeedState → Nat
  | .undefined => 0
  | .closed => 1
  | .opened => 2
  | .cutting => 3
  | .blocked _ => 4

/-- Code of an infeed block reason, absent outside BLOCKED (Table 7-1). -/
def infeedBlockCode : InfeedState → Option Nat
  | .blocked .fallback => some 0
  | .blocked .strandedBook => some 1
  | .blocked .overrun => some 2
  | _ => none

/-- Code of a saw mode (Table 7-1). -/
def modeCode : SawMode → Nat
  | .book => 0
  | .basic => 1

/-- Code of a last saw status (Table 7-1). NONE is the first value of that enumeration and is coded 0 like
it (R186), not FFh as the NONE of an absent field (the model's choice, log entry 19). -/
def sawStatusCode : SawStatus → Nat
  | .none => 0
  | .auto => 1
  | .manual => 2

/-- Code of a link state (Table 10-8). -/
def linkStateCode : LinkState → Nat
  | .disabled => 0
  | .notReady => 1
  | .ready => 2
  | .fault => 3

/-- Code of a phase of work (Table 10-8). -/
def phaseCode : Phase → Nat
  | .source => 0
  | .dig _ _ => 1
  | .deliver => 2
  | .carry => 3
  | .divert => 4

/-- Code of the phase of a suspended work. -/
def suspendedPhaseCode : SuspendedPhase → Nat
  | .source => 0
  | .dig => 1
  | .deliver => 2

/-- Code of the step in a slot (Table 10-8). -/
def slotCode : Option Step → Nat
  | none => 0
  | some (.travel _ _ _) => 1
  | some (.pick _ _ _ _ _ _) => 2
  | some (.place _ _ _ _) => 3
  | some .home => 4

/-- Code of a gate closing's state (R101). -/
def gateStateCode : GateState → Nat
  | .off => 0
  | .awaiting _ => 1
  | .granted _ => 2

/-- Code of an ordered move's kind (R98). -/
def moveKindCode : MoveKind → Nat
  | .makeWay => 0
  | .clearOut => 1

end Sys2Proof.Machine
end

