-- ==== Sys2Proof/Machine/Flags.lean ====
section
/-! DEFINITION. The conditions the blocks judge: zones, reach, heights, acceptance, sources,
claimable spans, fallback. None of them changes anything. -/

namespace Sys2Proof.Machine

/-! ### Zones and reach (chapter 1) -/

/-- The zone of an X coordinate: the highest-numbered zone whose start is at or below it (R2). -/
def zoneOf (starts : Vector Nat 16) (x : Nat) : Nat :=
  (List.finRange 16).foldl (fun acc z => if starts[z] ≤ x then z.val else acc) 0

/-- The zone of a place, from its X and the zone map in force (R2). -/
def State.placeZone (s : State) (p : Place) : Nat := zoneOf s.cell.starts s.cell.places[p].x

/-- The zone of a reported position (R2). -/
def State.posZone (s : State) (p : Pos) : Nat := zoneOf s.cell.starts p.x

/-- A zone lies in the reach of a carriage (R8). -/
def inReach : Carriage → Nat → Bool
  | .A, z => z ≤ 14
  | .B, z => 1 ≤ z && z ≤ 15

/-- A zone is the carriage's current zone or lies on its home side of it (R9, R91). -/
def homeSide : Carriage → Nat → Nat → Bool
  | .A, cur, z => z ≤ cur
  | .B, cur, z => cur ≤ z

/-- A zone lies on the side of carriage `c` of every zone the other carriage holds (R9, R111). -/
def State.onOwnSide (s : State) (c : Carriage) (z : Nat) : Bool :=
  (s.heldZones (other c)).all fun h =>
    match c with
    | .A => z < h
    | .B => h < z

/-- A place is reachable by a carriage at this moment (R9). -/
def State.reachable (s : State) (c : Carriage) (p : Place) : Bool :=
  let z := s.placeZone p
  let o := (s.sq (other c)).state
  referenced (s.sq c).state && inReach c z
    && (if o = .unreferenced || o = .homing then
          (match (s.arec c).zone with
            | some cur => homeSide c cur z
            | none => false)
        else true)
    && (if o = .faulted then s.onOwnSide c z else true)

/-- Distance in zones (R70). -/
def zoneDistance (a b : Nat) : Nat := if a ≤ b then b - a else a - b

/-- Distance in zones from a carriage's current zone to a place. -/
def State.distanceTo (s : State) (c : Carriage) (p : Place) : Nat :=
  match (s.arec c).zone with
  | some cur => zoneDistance cur (s.placeZone p)
  | none => 0

/-! ### Places and stacks (chapter 2) -/

/-- Every place number, lowest first. -/
def allPlaces : List Place := List.finRange 32

/-- The kind of a place. -/
def State.kindAt (s : State) (p : Place) : PlaceKind := s.cell.places[p].kind

/-- The INFEED place of a saw (R40). -/
def State.infeedPlace (s : State) (w : Saw) : Option Place :=
  allPlaces.find? fun p => s.kindAt p = .infeed && s.cell.places[p].saw = some w

/-- The RETURN place of a saw (R161). -/
def State.returnPlace (s : State) (w : Saw) : Option Place :=
  allPlaces.find? fun p => s.kindAt p = .return_ && s.cell.places[p].saw = some w

/-- The piece count of a run list, when every count is known (R17). -/
def pieceCount : List Run → Option Nat
  | [] => some 0
  | r :: rest =>
    match r.count, pieceCount rest with
    | some n, some k => some (n + k)
    | _, _ => none

/-- The known piece count: 0 for a stack whose run count is unknown (R17). -/
def knownCount (runs : List Run) : Nat := (pieceCount runs).getD 0

/-- The height of a run list, when every count is known (R19). -/
def runsHeight : List Run → Option Nat
  | [] => some 0
  | r :: rest =>
    match r.count, runsHeight rest with
    | some n, some k => some (n * r.piece.thickness + k)
    | _, _ => none

/-- The run list of a place; a place without a record has none. -/
def State.runsAt (s : State) (p : Place) : List Run :=
  match s.stackRecs[p] with
  | some r => r.runs
  | none => []

/-- The state of a place's stack record, if it has one. -/
def State.stackState (s : State) (p : Place) : Option StackState := s.stackRecs[p].map (·.state)

/-- The user of a place. -/
def State.userAt (s : State) (p : Place) : Option Carriage :=
  match s.stackRecs[p] with
  | some r => r.user
  | none => none

/-- Expected top height of a place, unless a run count is unknown (R19). -/
def State.topHeight (s : State) (p : Place) : Option Nat :=
  (runsHeight (s.runsAt p)).map (s.cell.places[p].base + ·)

/-- The book count of a saw (R144). -/
def State.bookCount (s : State) (w : Saw) : Nat :=
  match s.infeedPlace w with
  | some p => knownCount (s.runsAt p)
  | none => 0

/-- The top run of a list is equal to the piece (R17). -/
def topEquals (runs : List Run) (x : Piece) : Bool :=
  match runs with
  | r :: _ => r.piece = x
  | [] => false

/-- The place accepts the piece (R20). -/
def State.accepts (s : State) (p : Place) (x : Piece) : Bool :=
  match s.stackRecs[p] with
  | none => false
  | some r =>
    (r.state = .empty || r.state = .ready)
      && (match pieceCount r.runs with
          | some n => n + 1 ≤ s.cell.places[p].pieceLimit
          | none => false)
      && (match s.topHeight p with
          | some h => h + x.thickness ≤ s.cell.places[p].heightLimit
          | none => false)
      && (r.runs.length < Config.maxRuns || topEquals r.runs x)

/-- The place has no user or is used by the carriage. -/
def State.freeFor (s : State) (c : Carriage) (p : Place) : Bool :=
  match s.userAt p with
  | none => true
  | some u => u = c

/-- The number of places a carriage is user of (R21). -/
def State.useCount (s : State) (c : Carriage) : Nat :=
  (allPlaces.filter fun p => s.userAt p = some c).length

/-- A carriage may become user of the place as far as users go (R21). -/
def State.mayUse (s : State) (c : Carriage) (p : Place) : Bool :=
  match s.userAt p with
  | some u => u = c
  | none => s.stackRecs[p].isSome && s.useCount c < 2

/-- A source claim is granted (R21). -/
def State.mayClaimSource (s : State) (c : Carriage) (p : Place) : Bool :=
  s.mayUse c p && (s.stackState p = some .ready || s.stackState p = some .measure)

/-- A destination claim for a piece is granted (R21). -/
def State.mayClaimDest (s : State) (c : Carriage) (p : Place) (x : Piece) : Bool :=
  s.mayUse c p && s.accepts p x

/-! ### Sources and destinations (chapter 4) -/

/-- The run is of the material and thickness. -/
def runMatches (material thickness : Nat) (r : Run) : Bool :=
  r.piece.material = material && r.piece.thickness = thickness

/-- The dig count of a run list: the pieces above its first matching run (R70); none if no run
matches. -/
def digCount (material thickness : Nat) : List Run → Option Nat
  | [] => none
  | r :: rest =>
    if runMatches material thickness r then some 0
    else (digCount material thickness rest).map (r.count.getD 0 + ·)

/-- The place is a matching place for the material and thickness, with its dig count: STOCK or BUFFER,
READY or MEASURE, holding such a run (R52). -/
def State.matching (s : State) (material thickness : Nat) (p : Place) : Option Nat :=
  if (s.kindAt p = .stock || s.kindAt p = .buffer)
      && (s.stackState p = some .ready || s.stackState p = some .measure) then
    digCount material thickness (s.runsAt p)
  else none

/-- The place is a usable source for the carriage, leaving the infeed aside (R70, R49). -/
def State.usableSource (s : State) (c : Carriage) (material thickness : Nat) (p : Place) : Bool :=
  (match s.matching material thickness p with
    | some n => n ≤ s.cell.digLimit
    | none => false)
    && s.freeFor c p && s.reachable c p

/-- A first difference in a list of numbers decides. -/
def keyLess : List Nat → List Nat → Bool
  | [], [] => false
  | [], _ :: _ => true
  | _ :: _, [] => false
  | a :: as, b :: bs => if a < b then true else if b < a then false else keyLess as bs

/-- The place of least key; the lowest place number wins among equals, the list rising. -/
def leastBy (key : Place → List Nat) (ps : List Place) : Option Place :=
  ps.foldl
    (fun best p =>
      match best with
      | none => some p
      | some b => if keyLess (key p) (key b) then some p else best)
    none

/-- The source of an order for the carriage: least dig count, then nearest, then lowest number; none
unless the order's infeed is reachable too (R70). -/
def State.resolveSource (s : State) (c : Carriage) (material thickness : Nat) (infeed : Place) :
    Option Place :=
  if s.reachable c infeed then
    leastBy
      (fun p => [(s.matching material thickness p).getD 0, s.distanceTo c p])
      (allPlaces.filter (s.usableSource c material thickness))
  else none

/-- 0 when the piece merges into the place's top run, 1 when it does not. -/
def State.mergeKey (s : State) (p : Place) (x : Piece) : Nat :=
  if topEquals (s.runsAt p) x then 0 else 1

/-- The place accepts the piece, is free for the carriage and reachable (R72, R77, R83, R84). -/
def State.canTake (s : State) (c : Carriage) (x : Piece) (p : Place) : Bool :=
  s.accepts p x && s.freeFor c p && s.reachable c p

/-- The buffer for a dug piece (R72). -/
def State.digBuffer (s : State) (c : Carriage) (dug : Place) (x : Piece) : Option Place :=
  leastBy (fun p => [s.mergeKey p x, s.distanceTo c p])
    (allPlaces.filter fun p => s.kindAt p = .buffer && s.canTake c x p && p ≠ dug)

/-- The remnant place for a returned piece (R84). -/
def State.remnantPlace (s : State) (c : Carriage) (x : Piece) : Option Place :=
  leastBy (fun p => [s.mergeKey p x, (s.runsAt p).length, s.distanceTo c p])
    (allPlaces.filter fun p => s.kindAt p = .remnant && s.canTake c x p)

/-- The nearest buffer that takes the piece (R77, R83). -/
def State.nearestBuffer (s : State) (c : Carriage) (x : Piece) : Option Place :=
  leastBy (fun p => [s.distanceTo c p])
    (allPlaces.filter fun p => s.kindAt p = .buffer && s.canTake c x p)

/-- The divert destination (R77): the order's divert place, which is a BUFFER place (R40), or the nearest
buffer; a place made RETURN since takes no piece from a carriage (R167). -/
def State.divertPlace (s : State) (c : Carriage) (given : Option Place) (x : Piece) :
    Option Place :=
  match given with
  | some p => if s.kindAt p = .buffer && s.canTake c x p then some p else s.nearestBuffer c x
  | none => s.nearestBuffer c x

/-- The destination of a SET DOWN made by a cancel: the load's origin, then the order's divert place,
then the nearest buffer (R83). -/
def State.setDownPlace (s : State) (c : Carriage) (origin : Place) (given : Option Place)
    (x : Piece) : Option Place :=
  let good := fun p : Place => (s.kindAt p = .stock || s.kindAt p = .buffer) && s.canTake c x p
  if good origin then some origin
  else
    match given with
    | some p => if good p then some p else s.nearestBuffer c x
    | none => s.nearestBuffer c x

/-! ### Orders (chapter 3) -/

/-- Some place is a source of the order for the carriage, and its infeed is reachable (R49). -/
def State.orderEligible (s : State) (c : Carriage) (e : OrderEntry) : Bool :=
  match s.infeedPlace e.saw with
  | some p => (s.resolveSource c e.material e.thickness p).isSome
  | none => false

/-- A return entry is eligible for the carriage (R49). -/
def State.returnEligible (s : State) (c : Carriage) (r : ReturnEntry) : Bool :=
  s.reachable c r.place && s.freeFor c r.place
    && allPlaces.any fun p => s.kindAt p = .remnant && s.reachable c p

/-- The starve reason of an order, if it is starved (R52). -/
def State.starveReason (s : State) (e : OrderEntry) : Option StarveReason :=
  let found := allPlaces.filter fun p => (s.matching e.material e.thickness p).isSome
  let near := found.filter fun p =>
    (s.matching e.material e.thickness p).getD 0 ≤ s.cell.digLimit
  let served := fun c : Carriage =>
    (near.any fun p => s.reachable c p)
      && (match s.infeedPlace e.saw with
          | some p => s.reachable c p
          | none => false)
  if found.isEmpty then some .noStock
  else if near.isEmpty then some .digLimit
  else if !served .A && !served .B then some .unreachable
  else none

/-- The entry of an order number. -/
def State.orderOf (s : State) (n : Nat) : Option OrderEntry :=
  s.queue.entries.find? fun e => e.number = n

/-- The order entry counts for an order end notice (R56). -/
def endCounted (w : Saw) (e : OrderEntry) : Bool :=
  e.saw = w
    && (match e.state with
        | .starved _ => false
        | _ => true)

/-- A return entry is due by its inputs (R46). -/
def ReturnEntry.isDue (r : ReturnEntry) (trigger : Nat) : Bool :=
  r.ready && 1 ≤ r.count && (trigger ≤ r.count || r.withdrawn)

/-! ### Saw stations (chapter 7) -/

/-- The infeed is BLOCKED, with its reason. -/
def State.infeedBlocked (s : State) (w : Saw) : Option InfeedBlock :=
  match s.saws[w].state with
  | .blocked r => some r
  | _ => none

/-- The block reason of an order from that of its infeed (Table 3-3). -/
def orderBlockOf : InfeedBlock → OrderBlock
  | .fallback => .sawBlocked
  | .strandedBook => .sawBlocked
  | .overrun => .overrun

/-- The fallback condition of a saw (R155). -/
def SawStation.fallback (w : SawStation) : Bool := w.status ≠ .auto || w.silent

/-- The infeed takes a placement (R148). -/
def State.infeedTakes (s : State) (w : Saw) : Bool :=
  s.saws[w].state = .opened
    && (match s.saws[w].mode with
        | .book => s.bookCount w < s.saws[w].threshold && !s.saws[w].releasePending
        | .basic => !s.saws[w].basicTaken)

/-- The RETURN PERMIT line: the saw has a RETURN place and the permit hold is NO (R161). -/
def State.returnPermit (s : State) (w : Saw) : Bool :=
  (s.returnPlace w).isSome && !s.saws[w].permitHold

/-! ### Claims (chapter 5) -/

/-- The span from one zone to another, both included (section 5.2). -/
def spanOf (a b : Nat) : ZoneRange := ⟨min a b, max a b⟩

/-- The range of an AWAITING gate closing. -/
def GateRec.awaitingRange (g : GateRec) : Option ZoneRange :=
  match g.state with
  | .awaiting r => r
  | _ => none

/-- The zone lies in the range of an AWAITING closing (R91). -/
def State.awaited (s : State) (z : Nat) : Bool :=
  inOptRange s.arb.gates[(0 : Gate)].awaitingRange z
    || inOptRange s.arb.gates[(1 : Gate)].awaitingRange z || inOptRange s.arb.host.awaiting z

/-- The other carriage holds the zone: blocking cause OTHER (R91). -/
def State.blockedOther (s : State) (c : Carriage) (z : Nat) : Bool :=
  s.holder z = some (other c)

/-- A blocking cause other than OTHER: CLOSED, REAR or REACH (R91); `clearOut` exempts the zones of
AWAITING ranges. -/
def State.blockedHard (s : State) (c : Carriage) (clearOut : Bool) (z : Nat) : Bool :=
  s.zoneClosed z || (s.awaited z && !clearOut)
    || (let o := (s.sq (other c)).state
        if o = .unreferenced || o = .homing then
          (match (s.arec c).zone with
            | some cur => !homeSide c cur z
            | none => true)
        else false)
    || !inReach c z

/-- The zone is claimable by the carriage (R91). -/
def State.claimable (s : State) (c : Carriage) (clearOut : Bool) (z : Nat) : Bool :=
  !s.blockedOther c z && !s.blockedHard c clearOut z

/-- The numbers of a range. -/
def rangeZones (r : ZoneRange) : List Nat := (List.range 16).filter (inRange r)

/-- Every zone of the span is claimable (R91). -/
def State.spanClaimable (s : State) (c : Carriage) (clearOut : Bool) (r : ZoneRange) : Bool :=
  (rangeZones r).all (s.claimable c clearOut)

/-- The zones from one zone to another in the order of travel. -/
def travelOrder (a b : Nat) : List Nat :=
  if a ≤ b then rangeZones ⟨a, b⟩ else (rangeZones ⟨b, a⟩).reverse

/-- The waiting claim of a carriage. -/
def State.claimOf (s : State) (c : Carriage) : Option WaitingClaim :=
  s.arb.waiting.find? fun w => w.carriage = c

/-- The span of a waiting claim, taken afresh from the current zone (R92). -/
def State.claimSpan (s : State) (w : WaitingClaim) : ZoneRange :=
  match (s.arec w.carriage).zone with
  | some cur => spanOf cur w.target
  | none => spanOf w.target w.target

/-- The claim's span is claimable. -/
def State.claimGrantable (s : State) (w : WaitingClaim) : Bool :=
  s.spanClaimable w.carriage false (s.claimSpan w)

/-- Each blocking zone of the claim fails through OTHER alone (R91). -/
def State.freeable (s : State) (w : WaitingClaim) : Bool :=
  (rangeZones (s.claimSpan w)).all fun z => !s.blockedHard w.carriage false z

/-- The first blocking zone of the claim, in the order of travel (R99). -/
def State.firstBlocking (s : State) (w : WaitingClaim) : Nat :=
  let cur := ((s.arec w.carriage).zone).getD w.target
  ((travelOrder cur w.target).find? fun z => !s.claimable w.carriage false z).getD w.target

/-- Two ranges share a zone. -/
def rangesOverlap (a b : ZoneRange) : Bool := a.first ≤ b.last && b.first ≤ a.last

/-- The last reported position lies in another zone than the recorded current zone: the carriage has
moved while standing (R112). -/
def State.strayed (s : State) (c : Carriage) : Option Nat :=
  match (s.pt c).position, (s.arec c).zone with
  | some p, some z => if s.posZone p = z then none else some (s.posZone p)
  | _, _ => none

/-- A reported zone is keepable by the carriage (R111). -/
def State.keepable (s : State) (c : Carriage) (z : Nat) : Bool :=
  s.holder z ≠ some (other c) && !s.zoneClosed z && s.onOwnSide c z

/-- The closed-rail question of R100: some zone has a closure source or some closing is AWAITING. -/
def State.railClosed (s : State) : Bool :=
  ((List.range 16).any fun z => s.zoneClosed z)
    || ((List.finRange 2).any fun g =>
        match s.arb.gates[g].state with
        | .awaiting _ => true
        | _ => false)
    || s.arb.host.awaiting.isSome

/-- Some carriage is HOMING (R102, R106). -/
def State.anyHoming (s : State) : Bool :=
  (s.sq .A).state = .homing || (s.sq .B).state = .homing

end Sys2Proof.Machine
end

