-- ==== Sys2Proof/Machine/Queue.lean ====
section
/-! DEFINITION. The Order Queue: work notices, ranks, requeues, the return-work list, the walk that
answers a work request, and what moves an entry (chapter 3). -/

namespace Sys2Proof.Machine

/-! ### Work notices -/

/-- A sequencer takes a work notice: an idle one with no load and no work is to ask for work, a held
one latches the notice, a busy one takes no action (R47, R136). -/
def State.noticeTo (s : State) (c : Carriage) : State :=
  match (s.sq c).state with
  | .idle =>
    if (s.sq c).load.isNone && (s.sq c).work.isNone then s.modSeq c fun q => { q with ask := true }
    else s
  | .held => s.modSeq c fun q => { q with latched := { q.latched with work := true } }
  | _ => s

/-- The work notice, to both sequencers (R47). -/
def State.workNotice (s : State) : State := (s.noticeTo .A).noticeTo .B

/-! ### Order entries -/

/-- Change the order entries that `p` picks out. -/
def State.mapOrders (s : State) (p : OrderEntry → Bool) (f : OrderEntry → OrderEntry) : State :=
  { s with
    queue := { s.queue with entries := s.queue.entries.map fun e => if p e then f e else e } }

/-- Put the order of a number into a state. -/
def State.setOrderState (s : State) (n : Nat) (st : OrderState) : State :=
  s.mapOrders (fun e => e.number = n) fun e => { e with state := st }

/-- Take the order of a number out of the queue. -/
def State.dropOrder (s : State) (n : Nat) : State :=
  { s with
    queue := { s.queue with entries := s.queue.entries.filter fun e => e.number ≠ n } }

/-- The state an entry takes when it is requeued: BLOCKED under a BLOCKED infeed, QUEUED otherwise
(R42). -/
def State.requeuedState (s : State) (e : OrderEntry) : OrderState :=
  match s.infeedBlocked e.saw with
  | some r => .blocked (orderBlockOf r)
  | none => .queued

/-- Requeue the entries that `p` picks out (R42); one that enters QUEUED causes the work notice. -/
def State.requeueWhere (s : State) (p : OrderEntry → Bool) : State :=
  let s1 := s.mapOrders p fun e => { e with state := s.requeuedState e }
  if s.queue.entries.any fun e => p e && s.requeuedState e = .queued then s1.workNotice else s1

/-- The entry is STARVED. -/
def OrderEntry.isStarved (e : OrderEntry) : Bool :=
  match e.state with
  | .starved _ => true
  | _ => false

/-- The entry is BLOCKED. -/
def OrderEntry.isBlocked (e : OrderEntry) : Bool :=
  match e.state with
  | .blocked _ => true
  | _ => false

/-- The entry is ACTIVE or SUSPENDED with the carriage. -/
def OrderEntry.heldBy (c : Carriage) (e : OrderEntry) : Bool :=
  e.state = .active c || e.state = .suspended c

/-- Requeue every STARVED entry (R36, R54). -/
def State.requeueStarved (s : State) : State := s.requeueWhere (·.isStarved)

/-- A saw's infeed has entered OPEN: requeue its BLOCKED entries (R59). -/
def State.requeueBlocked (s : State) (w : Saw) : State :=
  s.requeueWhere fun e => e.isBlocked && e.saw = w

/-- A saw's infeed has entered BLOCKED: its QUEUED and STARVED entries become BLOCKED (R58). -/
def State.blockOrders (s : State) (w : Saw) (r : InfeedBlock) : State :=
  s.mapOrders (fun e => e.saw = w && (e.state = .queued || e.isStarved))
    fun e => { e with state := .blocked (orderBlockOf r) }

/-- The wait for an infeed has timed out: the ACTIVE entry becomes BLOCKED (R57). -/
def State.blockTimedOut (s : State) (c : Carriage) (n : Nat) : State :=
  s.mapOrders (fun e => e.number = n && e.state = .active c)
    fun e => { e with state := .blocked .infeedTimeout }

/-! ### Ranks -/

/-- The due rank of a return entry. -/
def ReturnEntry.rank? (r : ReturnEntry) : Option Nat :=
  match r.state with
  | .notDue => none
  | .due n => some n
  | .taken _ n => some n
  | .suspended _ n => some n

/-- A return entry with its due rank changed. -/
def ReturnEntry.mapRank (f : Nat → Nat) (r : ReturnEntry) : ReturnEntry :=
  match r.state with
  | .notDue => r
  | .due n => { r with state := .due (f n) }
  | .taken c n => { r with state := .taken c (f n) }
  | .suspended c n => { r with state := .suspended c (f n) }

/-- Every rank present in the queue. -/
def OrderQueue.ranks (q : OrderQueue) : List Nat :=
  q.entries.map (·.rank) ++ (q.returns.toList.filterMap id).filterMap (·.rank?)

/-- The queue with its ranks given anew from 1 in their old order (R44). -/
def OrderQueue.renumber (q : OrderQueue) : OrderQueue :=
  let place := fun n : Nat => (q.ranks.filter (· < n)).length + 1
  { entries := q.entries.map fun e => { e with rank := place e.rank }
    returns := q.returns.map fun r => r.map (·.mapRank place)
    nextRank := q.ranks.length + 1 }

/-- The next value of the rank counter, and the queue after handing it out (R44). -/
def OrderQueue.takeRank (q : OrderQueue) : Nat × OrderQueue :=
  let q1 := if q.nextRank ≤ Config.maxRank then q else q.renumber
  (q1.nextRank, { q1 with nextRank := q1.nextRank + 1 })

/-! ### The return-work list -/

/-- Change the return entry of a saw. -/
def State.modReturn (s : State) (w : Saw) (f : ReturnEntry → ReturnEntry) : State :=
  { s with
    queue := { s.queue with returns := s.queue.returns.set w.val (s.queue.returns[w].map f) } }

/-- Give or take away the return entry of a saw. -/
def State.putReturn (s : State) (w : Saw) (r : Option ReturnEntry) : State :=
  { s with queue := { s.queue with returns := s.queue.returns.set w.val r } }

/-- Judge the return entry of a saw (R46). -/
def State.judge (s : State) (w : Saw) : State :=
  match s.queue.returns[w] with
  | none => s
  | some r =>
    match r.state with
    | .notDue =>
      if r.isDue s.cell.trigger then
        let t := s.queue.takeRank
        (({ s with queue := t.2 }).modReturn w fun x => { x with state := .due t.1 }).workNotice
      else s
    | .due _ =>
      if r.isDue s.cell.trigger then s else s.modReturn w fun x => { x with state := .notDue }
    | _ => s

/-- The Stack Table hands the piece count and READY state of a return place (R45, R46). -/
def State.handCount (s : State) (w : Saw) (count : Nat) (ready : Bool) : State :=
  (s.modReturn w fun r => { r with count := count, ready := ready }).judge w

/-- A saw station hands the state of its permit (R165). -/
def State.handPermit (s : State) (w : Saw) (withdrawn : Bool) : State :=
  (s.modReturn w fun r => { r with withdrawn := withdrawn }).judge w

/-- A return job has ended: its entry is judged at once (R50). -/
def State.returnEnded (s : State) (w : Saw) : State :=
  (s.modReturn w fun r => { r with state := .notDue }).judge w

/-- The due rank of a return entry that the carriage has, TAKEN or SUSPENDED. -/
def ReturnEntry.heldRank (c : Carriage) (r : ReturnEntry) : Option Nat :=
  match r.state with
  | .taken x n => if x = c then some n else none
  | .suspended x n => if x = c then some n else none
  | _ => none

/-- A return entry that a faulted or stopped carriage had goes back to DUE with its old rank, or to
NOT DUE (R62). -/
def State.returnLost (s : State) (c : Carriage) (w : Saw) : State :=
  match s.queue.returns[w] with
  | none => s
  | some r =>
    match r.heldRank c with
    | none => s
    | some n =>
      if r.isDue s.cell.trigger then
        (s.modReturn w fun x => { x with state := .due n }).workNotice
      else s.modReturn w fun x => { x with state := .notDue }

/-- The queue takes back the work of a carriage (R62). -/
def State.handBack (s : State) (c : Carriage) : State :=
  (List.finRange 4).foldl (fun t w => t.returnLost c w)
    (s.requeueWhere (OrderEntry.heldBy c))

/-! ### Answering a work request -/

/-- A candidate of a walk: an order by its number, a return entry by its saw. -/
inductive Candidate where
  | order (number : Nat)
  | return_ (saw : Saw)
  deriving DecidableEq, Repr

/-- Put a ranked candidate into a list of rising rank. -/
def insertRanked (x : Nat × Candidate) : List (Nat × Candidate) → List (Nat × Candidate)
  | [] => [x]
  | y :: rest => if x.1 ≤ y.1 then x :: y :: rest else y :: insertRanked x rest

/-- Candidates in rising rank. -/
def inRankOrder (xs : List (Nat × Candidate)) : List Candidate :=
  (xs.foldr insertRanked []).map (·.2)

/-- The DUE return entries, lowest due rank first. -/
def State.dueReturns (s : State) : List Candidate :=
  inRankOrder <| (List.finRange 4).filterMap fun w =>
    match s.queue.returns[w] with
    | some r =>
      match r.state with
      | .due n => some (n, Candidate.return_ w)
      | _ => none
    | none => none

/-- The QUEUED orders of a class, lowest admission rank first. -/
def State.queuedOrders (s : State) (k : WorkClass) : List Candidate :=
  inRankOrder <| s.queue.entries.filterMap fun e =>
    if e.state = .queued && e.cls = k then some (e.rank, Candidate.order e.number) else none

/-- A class exceeds the bound of a request (R40, R48). -/
def exceeds (k : WorkClass) (bound : Option WorkClass) : Bool :=
  match bound with
  | none => true
  | some b => workClassCode b < workClassCode k

/-- The candidates of a request in the order they are visited (R48). -/
def State.candidates (s : State) (bound : Option WorkClass) : List Candidate :=
  (if exceeds .rush bound then s.queuedOrders .rush else [])
    ++ (if exceeds .priority bound then s.dueReturns ++ s.queuedOrders .priority else [])
    ++ (if exceeds .normal bound then s.queuedOrders .normal else [])

/-- An order is STARVED, and NO STOCK is raised (R48, R53). -/
def State.starve (s : State) (n : Nat) (r : StarveReason) : State :=
  (s.setOrderState n (.starved r)).raise .noStock (.order n) (starveCode r)

/-- The walk over the candidates: the first eligible one is offered, an order found starved is
STARVED on the way (R48, R49). -/
def State.walk (c : Carriage) : List Candidate → State → State × Option Candidate
  | [], s => (s, none)
  | .return_ w :: rest, s =>
    match s.queue.returns[w] with
    | some r => if s.returnEligible c r then (s, some (.return_ w)) else State.walk c rest s
    | none => State.walk c rest s
  | .order n :: rest, s =>
    match s.orderOf n with
    | none => State.walk c rest s
    | some e =>
      if s.orderEligible c e then (s, some (.order n))
      else
        match s.starveReason e with
        | some r => State.walk c rest (s.starve n r)
        | none => State.walk c rest s

/-- A work request with a class bound is answered (R48, R51). -/
def State.request (s : State) (c : Carriage) (bound : Option WorkClass) : State × Option Candidate :=
  State.walk c (s.candidates bound) s

/-- The carriage's current work record, with what belongs to the work before it cleared. -/
def State.beginWork (s : State) (c : Carriage) (w : Work) : State :=
  s.modSeq c fun q =>
    { q with work := some w, orderDone := false, expired := false, fullRaised := false }

/-- The current work record of an order, in SOURCE with no source (R65, R80). -/
def orderWork (e : OrderEntry) (infeed : Place) : Work where
  kind := .order e.number e.saw e.material e.thickness infeed e.divert
  cls := e.cls
  phase := .source
  source := none
  dest := none

/-- The current work record of a return job. -/
def returnWork (p : Place) (w : Saw) : Work := ⟨.returnJob p w, .priority, .source, none, none⟩

/-- An order becomes ACTIVE with the carriage and its current work (R50). -/
def State.startOrder (s : State) (c : Carriage) (n : Nat) : State :=
  match s.orderOf n with
  | none => s
  | some e =>
    match s.infeedPlace e.saw with
    | none => s
    | some p => (s.setOrderState n (.active c)).beginWork c (orderWork e p)

/-- A return entry becomes TAKEN by the carriage and its current work, its due rank kept (R50). -/
def State.startReturn (s : State) (c : Carriage) (w : Saw) : State :=
  match s.queue.returns[w] with
  | none => s
  | some r =>
    (s.modReturn w fun x => { x with state := .taken c (r.rank?.getD 0) }).beginWork c
      (returnWork r.place w)

/-- The offered work becomes the carriage's current work (R50). -/
def State.takeOffer (s : State) (c : Carriage) : Candidate → State
  | .order n => s.startOrder c n
  | .return_ w => s.startReturn c w

/-- The current work's entry becomes SUSPENDED (R50). -/
def State.suspendEntry (s : State) (c : Carriage) (k : WorkKind) : State :=
  match k with
  | .order n _ _ _ _ _ => s.setOrderState n (.suspended c)
  | .returnJob _ w => s.modReturn w fun r => { r with state := .suspended c (r.rank?.getD 0) }
  | .setDown _ _ => s

/-- The class of a suspended-work record (R66). -/
def State.suspendedClass (s : State) (r : Suspended) : WorkClass :=
  match r.ref with
  | .order n =>
    match s.orderOf n with
    | some e => e.cls
    | none => .normal
  | .returnJob _ => .priority

/-- A sequencer reports that it can resolve no source for its order: starved or requeued (R53). -/
def State.reportNoSource (s : State) (n : Nat) : State :=
  match s.orderOf n with
  | none => s
  | some e =>
    match s.starveReason e with
    | some r => s.starve n r
    | none => s.requeueWhere fun x => x.number = n

end Sys2Proof.Machine
end

