-- ==== Sys2Proof/Machine/Stack.lean ====
section
/-! DEFINITION. The Stack Table's own changes: run lists, content changes and their notices, checks at
CONTACT, locks (chapter 2), and the permit that follows the count of a return table (R165). -/

namespace Sys2Proof.Machine

/-! ### Run lists -/

/-- A piece laid on a run list, merged into an equal top run (R32). -/
def addPiece (x : Piece) : List Run → List Run
  | [] => [⟨x, some 1⟩]
  | r :: rest =>
    if r.piece = x then { r with count := r.count.map (· + 1) } :: rest
    else ⟨x, some 1⟩ :: r :: rest

/-- A run laid on a run list, merged into an equal top run (R24, R25). -/
def addRun (r : Run) : List Run → List Run
  | [] => [r]
  | t :: rest =>
    if t.piece = r.piece then
      { t with count :=
          match r.count, t.count with
          | some m, some n => some (m + n)
          | _, _ => none } :: rest
    else r :: t :: rest

/-- Runs, top first, laid on a run list with equal neighbours merged (R24, R25). -/
def layRuns (added below : List Run) : List Run := added.foldr addRun below

/-- A run list less one piece of its top run (R31). -/
def dropPiece : List Run → List Run
  | [] => []
  | r :: rest =>
    match r.count with
    | some n => if n ≤ 1 then rest else { r with count := some (n - 1) } :: rest
    | none => rest

/-- The top run of a place, less its count. -/
def State.topPiece (s : State) (p : Place) : Option Piece := (s.runsAt p).head?.map (·.piece)

/-! ### Permit -/

/-- The permit hold of a saw is set, and a change of it is handed to the queue (R165). -/
def State.setPermitHold (s : State) (w : Saw) (hold : Bool) : State :=
  if s.saws[w].permitHold = hold then s
  else (s.modSaw w fun x => { x with permitHold := hold }).handPermit w hold

/-- The permit hold follows the piece count of the return place (R165). -/
def State.permitByCount (s : State) (w : Saw) (count : Nat) : State :=
  if Config.returnLimit ≤ count then s.setPermitHold w true
  else if s.saws[w].overrun then s
  else s.setPermitHold w false

/-! ### Content changes -/

/-- The carriage waits at the infeed on this place. -/
def Sequencer.waitsAt (q : Sequencer) (p : Place) : Bool :=
  match q.state, q.work with
  | .sawWait, some w =>
    match w.kind with
    | .order _ _ _ _ infeed _ => infeed = p
    | _ => false
  | _, _ => false

/-- A sequencer takes a content-change notice: BLOCKED or waiting at that infeed it tries again, held
it latches the notice (R36, R76, R88). -/
def State.contentNotice (s : State) (p : Place) (c : Carriage) : State :=
  if (s.sq c).waitsAt p then s.nudgeWait c
  else s.nudgeBlocked c fun l => { l with content := true }

/-- The notices of a content change of a place (R36). -/
def State.contentChange (s : State) (p : Place) : State :=
  let s1 := (s.requeueStarved.contentNotice p .A).contentNotice p .B
  match s1.kindAt p, s1.cell.places[p].saw with
  | .return_, some w =>
    let n := knownCount (s1.runsAt p)
    (s1.handCount w n (s1.stackState p = some .ready)).permitByCount w n
  | _, _ => s1

/-- Change the stack record of a place, if it has one. -/
def State.modStack (s : State) (p : Place) (f : StackRec → StackRec) : State :=
  { s with stackRecs := s.stackRecs.set p.val (s.stackRecs[p].map f) }

/-- Give a place a stack record or take it away. -/
def State.putStack (s : State) (p : Place) (r : Option StackRec) : State :=
  { s with stackRecs := s.stackRecs.set p.val r }

/-- A place's run list and state change, with the notices of R36. -/
def State.setStack (s : State) (p : Place) (st : StackState) (runs : List Run) : State :=
  (s.modStack p fun r => { r with state := st, runs := runs }).contentChange p

/-- A place is LOCKED with its runs kept (R35). -/
def State.lockStack (s : State) (p : Place) (why : LockReason) : State :=
  s.setStack p (.locked why) (s.runsAt p)

/-- The state of a record once a piece has been added: EMPTY becomes READY (R32, R33). -/
def stateAfterAdd : StackState → StackState
  | .empty => .ready
  | st => st

/-- A piece joins the record of a place (R32, R33). -/
def State.addTo (s : State) (p : Place) (x : Piece) : State :=
  s.setStack p (stateAfterAdd ((s.stackState p).getD .empty)) (addPiece x (s.runsAt p))

/-- The record of a place empties. -/
def State.emptyStack (s : State) (p : Place) : State := s.setStack p .empty []

/-- One piece of the top run leaves the record (R31); an emptied stack raises STACK EMPTY. -/
def State.liftFrom (s : State) (p : Place) : State :=
  let rest := dropPiece (s.runsAt p)
  if rest = [] then
    (s.emptyStack p).raise .stackEmpty (.place p)
      (match s.topPiece p with | some x => x.material | none => 0)
  else s.setStack p ((s.stackState p).getD .empty) rest

/-! ### Checks of a pick -/

/-- The contact check of a READY stack (R28): the state after it, and whether the pick goes on. -/
def State.contactCheck (s : State) (p : Place) (height : Nat) : State × Bool :=
  match s.topHeight p with
  | none => (s, false)
  | some top =>
    let dev : Int := (height : Int) - (top : Int)
    if dev.natAbs ≤ s.cell.tolerance then (s, true)
    else ((s.lockStack p .mismatch).raise .stackMismatch (.place p) dev, false)

/-- The number of pieces of thickness `t` in a height `h`, rounded to the nearest, a half up (R29). -/
def pieceQuotient (h : Int) (t : Nat) : Nat :=
  if 2 * h < t then 0 else (2 * h.toNat + t) / (2 * t)

/-- The measurement of a MEASURE stack (R29): the state after it, and whether the pick goes on. -/
def State.measure (s : State) (p : Place) (height : Nat) : State × Bool :=
  match s.runsAt p with
  | [] => (s, false)
  | r :: _ =>
    let d := s.cell.places[p]
    let h : Int := (height : Int) - (d.base : Int)
    let t := r.piece.thickness
    let q := pieceQuotient h t
    let residue := (h - (q * t : Nat)).natAbs
    if q = 0 then ((s.emptyStack p).raise .stackEmpty (.place p) r.piece.material, false)
    else if Config.maxPieces < q ∨ d.pieceLimit < q ∨ d.heightLimit < d.base + q * t then
      ((s.lockStack p .overflow).raise .stackOverflow (.place p) q, false)
    else if s.cell.tolerance < residue then
      ((s.lockStack p .mismatch).raise .stackMismatch (.place p) residue, false)
    else
      ((s.modCounters fun k => { k with loaded := countUp k.loaded q }).setStack p .ready
        [{ r with count := some q }], true)

/-- The verdict on a CONTACT: the check or the measurement by the state of the stack. A stack in
another state admits no pick (R18). -/
def State.judgeContact (s : State) (p : Place) (height : Nat) : State × Bool :=
  match s.stackState p with
  | some .ready => s.contactCheck p height
  | some .measure => s.measure p height
  | _ => (s, false)

/-- The second grip reading of a pick is out of band (R30). -/
def State.gripFail (s : State) (p : Place) (vacuum : Nat) : State :=
  (s.lockStack p .gripFail).raise .gripFail (.place p) vacuum

end Sys2Proof.Machine
end

