-- ==== Sys2Proof/Machine/Saw.lean ====
section
/-! DEFINITION. The Saw Station Controllers: opening and blocking an infeed, releasing a book,
placements, fallback, remnants (chapters 7 and 8), and the clearing of a place's user (R22, R151). -/

namespace Sys2Proof.Machine

/-! ### Notices -/

/-- A sequencer takes an opening notice of a saw (R76, R136). -/
def State.openingNoticeTo (s : State) (w : Saw) (c : Carriage) : State :=
  match (s.sq c).state, s.infeedPlace w with
  | .held, _ => s.modSeq c fun q => { q with latched := { q.latched with opening := true } }
  | _, some p => if (s.sq c).waitsAt p then s.nudgeWait c else s
  | _, none => s

/-- The opening notice, to both sequencers (R148). -/
def State.openingNotice (s : State) (w : Saw) : State :=
  (s.openingNoticeTo w .A).openingNoticeTo w .B

/-! ### Entering a state -/

/-- The infeed takes a state other than CUTTING, in which CUT GO is down (R151). -/
def SawStation.enter (st : InfeedState) (x : SawStation) : SawStation :=
  { x with state := st, cutGo := false }

/-- The infeed enters OPEN from another state: the queue and both sequencers are told (R148). -/
def State.enterOpen (s : State) (w : Saw) : State :=
  ((s.modSaw w (SawStation.enter .opened)).requeueBlocked w).openingNotice w

/-- The infeed enters BLOCKED (R158): the book timer is stopped and release pending becomes NO; the
queue is told unless the infeed was BLOCKED already. -/
def State.enterInfeedBlocked (s : State) (w : Saw) (r : InfeedBlock) : State :=
  let s1 := s.modSaw w fun x =>
    { x.enter (.blocked r) with bookTimer := x.bookTimer.halt, releasePending := false }
  match s.saws[w].state with
  | .blocked _ => s1
  | _ => s1.blockOrders w r

/-- The infeed takes OPEN when READY is asserted, CLOSED otherwise; one that stays OPEN hands no
notice (R145, R147, R153, R156, R158). -/
def State.followReady (s : State) (w : Saw) : State :=
  if s.saws[w].ready then (if s.saws[w].state = .opened then s else s.enterOpen w)
  else s.modSaw w (SawStation.enter .closed)

/-! ### Fallback -/

/-- Cause of a fallback as the fallback condition shows it: 0 MANUAL, 1 SILENCE (R156). -/
def SawStation.fallbackCause (x : SawStation) : Nat := if x.status = .auto then 1 else 0

/-- SAW FALLBACK is raised (R156). -/
def State.raiseFallback (s : State) (w : Saw) : State :=
  s.raise .sawFallback (.saw w) s.saws[w].fallbackCause

/-- Outcomes 2 and 3 of a fallback: an empty book (R156). -/
def State.emptyOutcome (s : State) (w : Saw) : State :=
  if s.saws[w].lock then s.enterInfeedBlocked w .fallback
  else
    (s.modSaw w fun x =>
      { x with mode := .basic, basicTaken := false, bookTimer := Timer.stopped }).followReady w

/-- The fallback outcome for an empty book, with its warning (R156). -/
def State.fallbackEmpty (s : State) (w : Saw) : State := (s.raiseFallback w).emptyOutcome w

/-- A fallback is taken (R155, R156, R157). -/
def State.takeFallback (s : State) (w : Saw) : State :=
  if s.saws[w].mode = .book then
    match s.saws[w].state with
    | .cutting => (s.raiseFallback w).modSaw w fun x => { x with fallbackPending := true }
    | .closed =>
      if s.bookCount w = 0 then s.fallbackEmpty w
      else (s.raiseFallback w).enterInfeedBlocked w .strandedBook
    | .opened =>
      if s.bookCount w = 0 then s.fallbackEmpty w
      else (s.raiseFallback w).enterInfeedBlocked w .strandedBook
    | _ => s
  else s

/-! ### Books -/

/-- The book is released: CUT GO, CUTTING, timer stopped with nothing remaining (R151). -/
def State.releaseBook (s : State) (w : Saw) : State :=
  s.modSaw w fun x =>
    { x with cutGo := true, state := .cutting, bookTimer := Timer.stopped, releasePending := false }

/-- The user of a saw's INFEED place. -/
def State.infeedUser (s : State) (w : Saw) : Option Carriage :=
  match s.infeedPlace w with
  | some p => s.userAt p
  | none => none

/-- A book release is decided (R151); while one is pending already this changes nothing. -/
def State.decideRelease (s : State) (w : Saw) : State :=
  if s.saws[w].releasePending then s
  else if (s.infeedUser w).isSome then
    s.modSaw w fun x => { x with releasePending := true, bookTimer := x.bookTimer.halt }
  else s.releaseBook w

/-- The infeed is OPEN or CLOSED. -/
def SawStation.servable (x : SawStation) : Bool := x.state = .opened || x.state = .closed

/-- The saw station takes an order end notice (R56, R152). -/
def State.orderEnd (s : State) (w : Saw) : State :=
  if (s.queue.entries.filter (endCounted w)).length = 0 ∧ s.saws[w].mode = .book
      ∧ s.saws[w].servable = true ∧ 1 ≤ s.bookCount w then
    s.decideRelease w
  else s

/-- The INFEED place of the saw would not take a further piece of the thickness by its height
(R150). -/
def State.bookFullHeight (s : State) (p : Place) (thickness : Nat) : Bool :=
  match s.topHeight p with
  | some h => s.cell.places[p].heightLimit < h + thickness
  | none => false

/-- A book is complete, by its threshold or by its height (R150). -/
def State.bookComplete (s : State) (w : Saw) (p : Place) (thickness : Nat) : Bool :=
  s.saws[w].threshold ≤ s.bookCount w || s.bookFullHeight p thickness

/-- The last fed list after a placement: the material at the front, once, at most 8 entries (R162). -/
def fedList (x : Piece) (l : List (Nat × Profile)) : List (Nat × Profile) :=
  ((x.material, x.profile) :: l.filter fun e => e.1 ≠ x.material).take 8

/-- The infeed record takes a completed placement in BOOK mode (R150). -/
def State.bookPlacement (s : State) (w : Saw) (p : Place) (x : Piece) : State :=
  let ms := s.saws[w].timeout * 1000
  match s.saws[w].state with
  | .opened =>
    let s1 := s.modSaw w fun y => { y with bookTimer := ⟨y.timeout ≠ 0, ms⟩ }
    if s1.bookComplete w p x.thickness then s1.decideRelease w else s1
  | .closed =>
    let s1 := s.modSaw w fun y => { y with bookTimer := ⟨false, ms⟩ }
    if s1.bookComplete w p x.thickness then s1.decideRelease w else s1
  | .blocked .fallback => s.modSaw w (SawStation.enter (.blocked .strandedBook))
  | _ => s

/-- The infeed record takes a completed placement in BASIC mode (R154): a panel lies on the infeed and
waits for READY to fall, also through a block (R144, R158). -/
def State.basicPlacement (s : State) (w : Saw) : State :=
  let taken : State := s.modSaw w fun y => { y with basicTaken := true }
  match s.saws[w].state with
  | .opened => taken
  | .closed => taken
  | .blocked .fallback => taken.modSaw w (SawStation.enter (.blocked .strandedBook))
  | .blocked _ => taken
  | _ => s

/-- The saw station takes a completed placement of a piece on its INFEED place (R150, R154, R162). -/
def State.placement (s : State) (w : Saw) (p : Place) (x : Piece) : State :=
  let s1 := s.modSaw w fun y => { y with lastFed := fedList x y.lastFed }
  match s1.saws[w].mode with
  | .book => s1.bookPlacement w p x
  | .basic => s1.basicPlacement w

/-- The INFEED place of a saw is emptied by the saw, its pieces counted as cut (R33). -/
def State.cutInfeed (s : State) (w : Saw) : State :=
  match s.infeedPlace w with
  | some p =>
    let n := s.bookCount w
    (s.modCounters fun k => { k with cut := countUp k.cut n }).emptyStack p
  | none => s

/-! ### Users of places -/

/-- Set the user of a place. -/
def State.setUser (s : State) (p : Place) (u : Option Carriage) : State :=
  s.modStack p fun r => { r with user := u }

/-- The Stack Table tells that the user of an INFEED place is cleared: a pending release goes to the
saw (R151). -/
def State.userCleared (s : State) (p : Place) : State :=
  match s.kindAt p, s.cell.places[p].saw with
  | .infeed, some w =>
    if s.saws[w].releasePending && s.saws[w].servable then s.releaseBook w else s
  | _, _ => s

/-- A carriage's claim on a place is released (R22); the other sequencer is told (R88). -/
def State.releasePlace (s : State) (c : Carriage) (p : Place) : State :=
  if s.userAt p = some c then
    ((s.setUser p none).userCleared p).nudgeBlocked (other c) fun l => { l with release := true }
  else s

/-- Every place claim of a carriage is released (R22). -/
def State.releasePlaces (s : State) (c : Carriage) : State :=
  allPlaces.foldl (fun t p => t.releasePlace c p) s

/-! ### The return table -/

/-- The saw's return overrun flag acts on the infeed (R158). -/
def State.overrunInfeed (s : State) (w : Saw) : State :=
  match s.saws[w].state with
  | .closed => s.enterInfeedBlocked w .overrun
  | .opened => s.enterInfeedBlocked w .overrun
  | .blocked _ => s.enterInfeedBlocked w .overrun
  | _ => s

/-- Count a remnant that is not recorded, holding at 255 (R163). -/
def State.countOverrun (s : State) (w : Saw) : State :=
  s.modSaw w fun x => { x with overrunCount := min (x.overrunCount + 1) Config.maxSmall }

/-- The grip profile of a material by the last fed list, or profile 0 (R163). -/
def fedProfile (material : Nat) (l : List (Nat × Profile)) : Profile :=
  match l.find? fun e => e.1 = material with
  | some e => e.2
  | none => 0

/-- A remnant is taken in (R163, R33). -/
def State.intake (s : State) (w : Saw) (p : Place) (material thickness : Nat)
    (size : Option SizeClass) : State :=
  let x : Piece := ⟨material, thickness, fedProfile material s.saws[w].lastFed, size⟩
  (s.modCounters fun k => { k with returned := countUp k.returned 1 }).addTo p x

/-- The return overrun (R164). -/
def State.returnOverrun (s : State) (w : Saw) (material : Nat) : State :=
  let s1 := (s.modSaw w fun x => { x with overrun := true, permitHold := true }).countOverrun w
  ((s1.raise .returnOverrun (.saw w) material).overrunInfeed w).handPermit w true

/-- The saw station takes a well-formed REMNANT record (R163). -/
def State.takeRemnant (s : State) (w : Saw) (material thickness : Nat) (size : Option SizeClass) :
    State :=
  match s.returnPlace w with
  | none => (s.countOverrun w).raise .returnOverrun (.saw w) material
  | some p =>
    if s.saws[w].overrun then s.countOverrun w
    else if Config.returnLimit ≤ knownCount (s.runsAt p) then s.returnOverrun w material
    else s.intake w p material thickness size

/-- The book timer is loaded in full on leaving BLOCKED; it runs for a book in OPEN in BOOK mode
(R147, R158). -/
def State.reloadBookTimer (s : State) (w : Saw) : State :=
  let run := s.saws[w].state = .opened && s.saws[w].mode = .book && decide (1 ≤ s.bookCount w)
    && decide (1 ≤ s.saws[w].timeout)
  s.modSaw w fun x => { x with bookTimer := ⟨run, x.timeout * 1000⟩ }

/-- The infeed leaves an OVERRUN block once the overrun flag is cleared (R158). A fallback outcome that
turns it to BASIC in CLOSED or OPEN leaves BLOCKED too, so the book timer is loaded in full and stopped,
where R156 would leave it at 0 (the model's choice, log entry 48). -/
def State.leaveOverrun (s : State) (w : Saw) : State :=
  if s.saws[w].state = .blocked .overrun then
    if s.saws[w].mode = .book && s.saws[w].fallback then
      if s.bookCount w = 0 then
        let s1 := s.fallbackEmpty w
        if s1.saws[w].servable then s1.reloadBookTimer w else s1
      else s.enterInfeedBlocked w .strandedBook
    else (s.followReady w).reloadBookTimer w
  else s

/-- The recovery of a return table by UNLOAD PLACE (R166). -/
def State.recoverReturn (s : State) (w : Saw) : State :=
  let s1 := s.modSaw w fun x => { x with overrun := false, overrunCount := 0, permitHold := false }
  (s1.leaveOverrun w).handPermit w false

/-- The book of an infeed has been removed by UNLOAD PLACE (R159). -/
def State.bookRemoved (s : State) (w : Saw) : State :=
  let x := s.saws[w]
  let again := x.state = .opened
    && (x.releasePending || (x.mode = .basic && x.basicTaken))
  let s1 := s.modSaw w fun y =>
    { y with bookTimer := Timer.stopped, releasePending := false, basicTaken := false }
  let s2 := if again then s1.openingNotice w else s1
  if x.state = .blocked .strandedBook then s2.fallbackEmpty w else s2

/-! ### Defining places -/

/-- The infeed leaves UNDEFINED (R145). -/
def State.infeedDefined (s : State) (w : Saw) : State :=
  if s.saws[w].overrun then s.enterInfeedBlocked w .overrun
  else if s.saws[w].mode = .book && s.saws[w].fallback then s.fallbackEmpty w
  else s.followReady w

/-- The infeed returns to UNDEFINED (R145). -/
def State.infeedUndefined (s : State) (w : Saw) : State :=
  s.modSaw w fun x =>
    { x.enter .undefined with
      bookTimer := Timer.stopped
      basicTaken := false
      releasePending := false
      fallbackPending := false }

end Sys2Proof.Machine
end

