-- ==== Sys2Proof/Machine/Port.lean ====
section
/-! DEFINITION. The Drive Link Port: the commands it sends, its two step slots, stopping
(sections 6.2, 6.3 and 6.6). -/

namespace Sys2Proof.Machine

/-- A command goes to the drive; none in DISABLED (R122). -/
def State.send (s : State) (c : Carriage) (cmd : DriveCmd) : State :=
  if (s.pt c).link = .disabled then s
  else s.modPort c fun d => { d with sent := d.sent ++ [cmd] }

/-- The command of a step for a slot (Table 6-3). -/
def stepCmd (slot : Slot) : Step → DriveCmd
  | .travel x y floor => .travel slot x y floor
  | .pick _ top search profile _ _ => .pick slot top search profile.floor
  | .place _ top floor _ => .place slot top floor
  | .home => .home

/-- A step command goes to the drive, only while the link is READY (R120). -/
def State.sendStep (s : State) (c : Carriage) (slot : Slot) (x : Step) : State :=
  if (s.pt c).link = .ready then s.send c (stepCmd slot x) else s

/-- The sequencer hands a step: current when that slot is empty, next otherwise (R123). -/
def State.handStep (s : State) (c : Carriage) (x : Step) : State :=
  match (s.pt c).current with
  | none => (s.modPort c fun d => { d with current := some x }).sendStep c .current x
  | some _ =>
    (s.modPort c fun d => { d with next := some x, withdrawing := false }).sendStep c .next x

/-- STOP goes to the drive, and the port is stopping (R129), also where it is stopping already (log entry
34). -/
def State.sendStop (s : State) (c : Carriage) : State :=
  (s.send c .stop).modPort c fun d => { d with stopping := true }

/-- STOP goes to the drive unless the port is stopping already, as R130 and R131 say for a referenced
carriage. -/
def State.stopDrive (s : State) (c : Carriage) : State :=
  if (s.pt c).stopping then s else s.sendStop c

/-- CLEAR goes to the drive (R133, R134). -/
def State.sendClear (s : State) (c : Carriage) : State :=
  (s.send c .clear).modPort c fun d => { d with clearPending := true }

/-- A step in the next slot is withdrawn, unless the port is stopping (R123, R132). -/
def State.withdrawNext (s : State) (c : Carriage) : State :=
  if (s.pt c).stopping || (s.pt c).next.isNone || (s.pt c).withdrawing then s
  else (s.send c .withdrawNext).modPort c fun d => { d with withdrawing := true }

/-- Change the step in the current slot. -/
def State.setCurrent (s : State) (c : Carriage) (x : Step) : State :=
  s.modPort c fun d => { d with current := some x }

/-- The port records the position of a report (R121). -/
def State.recordPos (s : State) (c : Carriage) (p : Pos) : State :=
  s.modPort c fun d => { d with position := some p }

/-- What a completion leads to at the port (R124). -/
inductive Completion where
  /-- The drive has started the next step, or is to start it: the carriage stays MOVING. -/
  | goesOn
  /-- The next step is to be sent again as current. -/
  | resend (x : Step)
  /-- The drive stands. -/
  | stands
  deriving DecidableEq, Repr

/-- What a completion with this continuation leads to. A NEXT with an empty next slot is taken as
STANDING. -/
def DrivePort.completion (d : DrivePort) (k : Continuation) : Completion :=
  match d.next, k with
  | none, _ => .stands
  | some _, .next => .goesOn
  | some x, .standing => if d.withdrawing then .stands else .resend x

/-- The slots after a completion: the current slot is emptied, and the next step moves up or goes. -/
def DrivePort.complete (d : DrivePort) (k : Continuation) : DrivePort :=
  match d.completion k with
  | .stands => { d with current := none, next := none, withdrawing := false }
  | _ => { d with current := d.next, next := none, withdrawing := false }

/-- The port takes a completion report (R124). -/
def State.completeStep (s : State) (c : Carriage) (k : Continuation) : State :=
  s.modPort c fun d => d.complete k

/-- The position is the X and Y of a place. -/
def State.standsAt (s : State) (c : Carriage) (p : Place) : Bool :=
  (s.pt c).position = some ⟨s.cell.places[p].x, s.cell.places[p].y⟩

/-- The hold floor kept for the load (R120). -/
def Sequencer.loadFloor (q : Sequencer) : Option Nat := q.load.map (·.profile.floor)

/-- The TRAVEL to a place (R69). -/
def State.travelTo (s : State) (c : Carriage) (p : Place) : Step :=
  .travel s.cell.places[p].x s.cell.places[p].y (s.sq c).loadFloor

/-- The PICK at a place: expected top height, base height as search floor, and the profile of the
piece's run as it is read now (R13, R19, R120). -/
def State.pickAt (s : State) (p : Place) : Step :=
  let d := s.cell.places[p]
  let prof := match s.topPiece p with
    | some x => s.cell.profiles[x.profile]
    | none => ⟨0, 0, 0⟩
  .pick p ((s.topHeight p).getD d.heightLimit) d.base prof .descending false

/-- The PLACE at a place (R19, R120). -/
def State.placeAt (s : State) (c : Carriage) (p : Place) : Step :=
  .place p ((s.topHeight p).getD s.cell.places[p].base) ((s.sq c).loadFloor.getD 0) false

end Sys2Proof.Machine
end

