-- ==== Sys2Proof/Machine/Carriage.lean ====
section
/-! DEFINITION. The Carriage Sequencer: faults, claims, choosing and making moves, ends of work,
suspension and resumption, cancel and timeout (chapter 4, sections 5.2, 5.7 and 6.8). -/

namespace Sys2Proof.Machine

/-! ### Clearing -/

/-- What a fault, an E-STOP or a CELL RESET drops from a sequencer: wait timer stopped, pending hold,
pending cancel notice, latched notices, and the work with the suspend stack (R68). -/
def Sequencer.cleared (q : Sequencer) : Sequencer :=
  { q with
    work := none
    suspended := []
    wait := q.wait.halt
    expired := false
    holdPending := false
    cancelPending := false
    orderDone := false
    fullRaised := false
    atInfeed := false
    ask := false
    latched := Latched.none }

/-- The waiting claim of a carriage is withdrawn, which leads to an examination (R93, R94). -/
def State.withdrawClaim (s : State) (c : Carriage) : State :=
  if (s.claimOf c).isSome then
    ({ s with
      arb := { s.arb with waiting := s.arb.waiting.filter fun w => w.carriage ≠ c } }).dueExam
  else s

/-- Every place claim of a carriage is released, or, while its port is stopping, left until STOPPED
(R22). -/
def State.releaseUnlessStopping (s : State) (c : Carriage) : State :=
  if (s.pt c).stopping then s else s.releasePlaces c

/-- The carriage enters FAULTED (R132). -/
def State.enterFaulted (s : State) (c : Carriage) : State :=
  let s1 := (s.handBack c).modSeq c Sequencer.cleared
  let s2 := (s1.releaseUnlessStopping c).withdrawNext c
  (s2.withdrawClaim c).setCarState c .faulted

/-- A referenced carriage is sent STOP, unless its port is already stopping, and faulted (R130, R131). -/
def State.stopAndFault (s : State) (c : Carriage) : State := (s.stopDrive c).enterFaulted c

/-- A homing carriage is sent STOP, also where its port is stopping already, and returns to UNREFERENCED
(R108, R130, R131, R141). -/
def State.stopHoming (s : State) (c : Carriage) : State :=
  (s.sendStop c).setCarState c .unreferenced

/-- The carriage holds this zone alone, which is its current zone (R111, R113). -/
def State.holdAlone (s : State) (c : Carriage) (z : Nat) : State :=
  ((s.releaseZones c fun y => y = z).holdZones c fun y => y = z).dueExam

/-- The holding of a carriage is settled after a failed position check (R111). -/
def State.settleHolding (s : State) (c : Carriage) (p : Pos) : State :=
  let z := s.posZone p
  if s.keepable c z then
    (s.holdAlone c z).modRec c fun r => { r with accepted := some p, zone := some z }
  else
    match (s.arec c).zone with
    | some cur => s.holdAlone c cur
    | none => s

/-- A failed position check (R111): STOP unless the report is STOPPED, FAULTED, ZONE CONFLICT, and the
holding settled. -/
def State.positionConflict (s : State) (c : Carriage) (p : Pos) (isStopped : Bool) : State :=
  let s1 := if isStopped then s else s.sendStop c
  let s2 := if (s1.sq c).state = .faulted then s1 else s1.enterFaulted c
  (s2.raise .zoneConflict (.carriage c) (s.posZone p)).settleHolding c p

/-- A DRIVE FAULT with a code is taken (R131). -/
def State.takeDriveFault (s : State) (c : Carriage) (code : Nat) : State :=
  let s1 := (s.modPort c fun d => { d with link := .fault, clearPending := false }).raise .driveFault
    (.carriage c) code
  match (s.sq c).state with
  | .faulted => s1.modSeq c fun q => { q with resumePending := false }
  | .homing => s1.stopHoming c
  | .unreferenced => s1
  | .stopped => s1
  | _ => s1.stopAndFault c

/-- A report that is not expected: a DRIVE FAULT with code 0 in a referenced carriage other than a
FAULTED one, otherwise taken for its position alone (R121). -/
def State.unexpected (s : State) (c : Carriage) : State :=
  if referenced (s.sq c).state && (s.sq c).state ≠ .faulted then s.takeDriveFault c 0 else s

/-! ### States a sequencer enters -/

/-- The carriage enters IDLE; with no load and no work it is to ask for work (R81). -/
def State.enterIdle (s : State) (c : Carriage) : State :=
  (s.setCarState c .idle).modSeq c fun q =>
    if q.load.isNone && q.work.isNone then { q with ask := true } else q

/-- The carriage enters HELD, stopping a running wait timer (R136, R137). -/
def State.enterHeld (s : State) (c : Carriage) : State :=
  (s.setCarState c .held).modSeq c fun q =>
    { q with holdPending := false, wait := q.wait.halt, expired := false }

/-- Change the current work record. -/
def State.modWork (s : State) (c : Carriage) (f : Work → Work) : State :=
  s.modSeq c fun q => { q with work := q.work.map f }

/-- The claim on the destination is released (R22). -/
def State.releaseDest (s : State) (c : Carriage) : State :=
  match (s.sq c).work with
  | some w =>
    match w.dest with
    | some p => (s.modWork c fun x => { x with dest := none }).releasePlace c p
    | none => s
  | none => s

/-- The claim on the source is released (R22). -/
def State.releaseSource (s : State) (c : Carriage) : State :=
  match (s.sq c).work with
  | some w =>
    match w.source with
    | some p => (s.modWork c fun x => { x with source := none }).releasePlace c p
    | none => s
  | none => s

/-- The carriage enters SAW WAIT: it holds no claim on the infeed; the wait timer is loaded and started
unless it runs on through an ordered move (R75, R98). -/
def State.enterSawWait (s : State) (c : Carriage) (w : Saw) : State :=
  let ms := s.saws[w].waitLimit * 1000
  ((s.releaseDest c).setCarState c .sawWait).modSeq c fun q =>
    { q with wait := if q.wait.running then q.wait else Timer.start ms }

/-- The piece that needs a destination: the load, or the top run of the source less its count. -/
def State.pieceToPlace (s : State) (c : Carriage) : Option Piece :=
  match (s.sq c).load, (s.sq c).work with
  | some l, _ => some l.piece
  | none, some w =>
    match w.source with
    | some p => s.topPiece p
    | none => none
  | none, none => none

/-- The carriage enters BLOCKED for want of a destination; BUFFER FULL is raised on entry (R88). -/
def State.enterCarBlocked (s : State) (c : Carriage) : State :=
  let s1 := s.setCarState c .blocked
  if (s.sq c).fullRaised then s1
  else
    (s1.modSeq c fun q => { q with fullRaised := true }).raise .bufferFull (.carriage c)
      (match s.pieceToPlace c with | some x => x.material | none => 0)

/-! ### What comes next -/

/-- What the current work does next. -/
inductive Action where
  /-- No work. -/
  | rest
  /-- An order resolves a source (R70). -/
  | resolve
  /-- A return job claims its return place (R84). -/
  | startReturn (p : Place)
  /-- A destination is to be chosen (R72, R77, R83, R84). -/
  | choose
  /-- A PICK move to the place. -/
  | pick (p : Place)
  /-- A PLACE move to the place. -/
  | place (p : Place)
  /-- The load goes to the infeed (R75). -/
  | deliver (p : Place) (w : Saw)
  deriving DecidableEq, Repr

/-- A PLACE move to the destination, or the choice of one. -/
def placeOrChoose (dest : Option Place) : Action :=
  match dest with
  | some p => .place p
  | none => .choose

/-- What the current work does next, from its record and the load (Table 4-2). -/
def Sequencer.nextAction (q : Sequencer) : Action :=
  match q.work with
  | none => .rest
  | some w =>
    match w.kind, w.phase with
    | .order _ _ _ _ _ _, .source =>
      match w.source with
      | none => .resolve
      | some p => .pick p
    | .order _ _ _ _ _ _, .dig _ dug =>
      match q.load, w.dest with
      | none, some _ => .pick dug
      | none, none => .choose
      | some _, d => placeOrChoose d
    | .order _ saw _ _ infeed _, .deliver => .deliver infeed saw
    | .order _ _ _ _ _ _, .divert => placeOrChoose w.dest
    | .order _ _ _ _ _ _, .carry => placeOrChoose w.dest
    | .returnJob place _, .source =>
      match w.source with
      | none => .startReturn place
      | some p =>
        match w.dest with
        | none => .choose
        | some _ => .pick p
    | .returnJob _ _, _ => placeOrChoose w.dest
    | .setDown _ _, _ => placeOrChoose w.dest

/-! ### Sources -/

/-- The carriage claims a place as the source of its order, with the phase its dig count gives (R71). -/
def State.claimSource (s : State) (c : Carriage) (p : Place) (material thickness : Nat) : State :=
  let n := (s.matching material thickness p).getD 0
  (s.setUser p (some c)).modWork c fun w =>
    { w with source := some p, phase := if n = 0 then .source else .dig n p }

/-- The source of the current order is resolved and claimed, if there is one (R70, R71). -/
def State.resolveOrder (s : State) (c : Carriage) : Option State :=
  match (s.sq c).work with
  | some w =>
    match w.kind with
    | .order _ _ material thickness infeed _ =>
      match s.resolveSource c material thickness infeed with
      | some p =>
        if s.mayClaimSource c p then some (s.claimSource c p material thickness) else none
      | none => none
    | _ => none
  | none => none

/-- The saw whose return entry for the place the carriage has SUSPENDED (R50). -/
def State.suspendedReturn (s : State) (c : Carriage) (p : Place) : Option Saw :=
  (List.finRange 4).find? fun w =>
    match s.queue.returns[w] with
    | some r =>
      r.place = p
        && (match r.state with
            | .suspended x _ => x = c
            | _ => false)
    | none => false

/-- A popped record is resumed (R82). A return job whose entry has left the list with its place ends at
once, with the work notice of R81 (the model's choice, log entry 43). -/
def State.resumeRecord (s : State) (c : Carriage) (r : Suspended) : State :=
  match r.ref with
  | .order n =>
    let s1 := s.startOrder c n
    match s.orderOf n, r.dug with
    | some e, some p =>
      match s.infeedPlace e.saw with
      | some infeed =>
        if s.reachable c infeed && s.usableSource c e.material e.thickness p
            && s1.mayClaimSource c p then
          s1.claimSource c p e.material e.thickness
        else s1
      | none => s1
    | _, _ => s1
  | .returnJob p =>
    match s.suspendedReturn c p with
    | some w => s.startReturn c w
    | none => s.workNotice

/-! ### Ends of work -/

/-- The queue is told that the current work has ended (R81, R50). -/
def State.tellEnded (s : State) (w : Work) : State :=
  match w.kind with
  | .returnJob _ saw => s.returnEnded saw
  | _ => s

/-- The top record of a suspend stack and the records below it. -/
def popTop (l : List Suspended) : Option (Suspended × List Suspended) :=
  match l.reverse with
  | [] => none
  | top :: below => some (top, below.reverse)

/-- The suspend stack is popped and the queue asked once: the offered work is taken with the record
pushed back, or the record is resumed (R81). -/
def State.popNext (s : State) (c : Carriage) : State :=
  match popTop (s.sq c).suspended with
  | none => s
  | some (top, below) =>
    let r := s.request c (some (s.suspendedClass top))
    match r.2 with
    | some cand => r.1.takeOffer c cand
    | none => (r.1.modSeq c fun q => { q with suspended := below }).resumeRecord c top

/-- The current work ends (R81): claims released, record removed, queue told, suspend stack popped. -/
def State.endWork (s : State) (c : Carriage) : State :=
  match (s.sq c).work with
  | none => s
  | some w =>
    let s1 := (s.releasePlaces c).modSeq c fun q =>
      { q with work := none, orderDone := false, expired := false, fullRaised := false }
    ((s1.tellEnded w).workNotice).popNext c

/-- The number of the order that is the current work. -/
def Work.orderNumber (w : Work) : Option Nat :=
  match w.kind with
  | .order n _ _ _ _ _ => some n
  | _ => none

/-- The queue is told that no source can be resolved for the current order, whose work then ends
(R53, R71). -/
def State.endUnresolved (s : State) (c : Carriage) : State :=
  match (s.sq c).work with
  | some w =>
    match w.orderNumber with
    | some n => (s.reportNoSource n).endWork c
    | none => s.endWork c
  | none => s

/-- The source of a return job is claimed (R84). -/
def State.claimReturn (s : State) (c : Carriage) (p : Place) : State :=
  (s.setUser p (some c)).modWork c fun w => { w with phase := .source, source := some p }

/-- The return place can be claimed and holds a piece (R84). -/
def State.returnReady (s : State) (c : Carriage) (p : Place) : Bool :=
  s.mayUse c p && s.stackState p = some .ready && decide (1 ≤ knownCount (s.runsAt p))

/-- Sources are resolved and claimed, works that cannot go on end and the next is taken up, until the
work has a move to make or there is none and the suspend stack is empty (R71, R81, R82, R84); at most `n`
works are gone through. -/
def State.advanceN : Nat → Carriage → State → State
  | 0, _, s => s
  | n + 1, c, s =>
    match (s.sq c).nextAction with
    | .resolve =>
      match s.resolveOrder c with
      | some t => t
      | none => State.advanceN n c (s.endUnresolved c)
    | .startReturn p =>
      if s.returnReady c p then s.claimReturn c p
      else State.advanceN n c (s.endWork c)
    | .rest =>
      if (s.sq c).suspended.isEmpty then s else State.advanceN n c (s.popNext c)
    | _ => s

/-- Go through works until one has a move to make; a suspend stack of 2 gives at most 3 works, and a
resume check one offer more. -/
def State.advance (s : State) (c : Carriage) : State := State.advanceN 8 c s

/-! ### Moves -/

/-- The class a claim carries (R92). -/
def Sequencer.workClass (q : Sequencer) : WorkClass :=
  match q.work with
  | some w => w.cls
  | none => .normal

/-- The TRAVEL to a place, unless the carriage stands there, then the head step (R69, R123). -/
def State.issueMove (s : State) (c : Carriage) (p : Place) (head : Step) : State :=
  if s.standsAt c p then s.handStep c head else (s.handStep c (s.travelTo c p)).handStep c head

/-- The current work has claimed a destination. -/
def Sequencer.hasDest (q : Sequencer) : Bool :=
  match q.work with
  | some w => w.dest.isSome
  | none => false

/-- The steps of the move for which a span has been granted (R69, R75, R148). -/
def State.issue (s : State) (c : Carriage) : State :=
  match (s.sq c).nextAction with
  | .pick p => s.issueMove c p (s.pickAt p)
  | .place p => s.issueMove c p (s.placeAt c p)
  | .deliver p w =>
    if (s.sq c).atInfeed then
      if s.infeedTakes w && (s.sq c).hasDest then s.handStep c (s.placeAt c p)
      else s.enterSawWait c w
    else s.handStep c (s.travelTo c p)
  | _ => s

/-- A span is granted: the carriage becomes its holder, is MOVING and issues its steps (R92). -/
def State.grantSpan (s : State) (c : Carriage) (r : ZoneRange) : State :=
  (((s.holdZones c (inRange r)).setCarState c .moving).dueExam).issue c

/-- A claim for the span from the current zone to a target (R92, R112). -/
def State.claimMove (s : State) (c : Carriage) (target : Nat) : State :=
  match (s.arec c).zone with
  | none => s
  | some cur =>
    match s.strayed c, (s.pt c).position with
    | some _, some p => s.positionConflict c p false
    | _, _ =>
      if s.spanClaimable c false (spanOf cur target) then s.grantSpan c (spanOf cur target)
      else
        let w : WaitingClaim := ⟨c, target, (s.sq c).workClass, false⟩
        (({ s with arb := { s.arb with waiting := s.arb.waiting ++ [w] } }).setCarState c
          .claiming).dueExam

/-- A claim for the span of the current zone alone: a head step with no travel before it (R92). -/
def State.claimHere (s : State) (c : Carriage) : State :=
  match (s.arec c).zone with
  | some cur => s.claimMove c cur
  | none => s

/-- The arrival questions at the infeed: whether it takes a placement, and the claim on it; then the
claim for the PLACE, or SAW WAIT (R75, R76). -/
def State.arrive (s : State) (c : Carriage) (p : Place) (w : Saw) : State :=
  match (s.sq c).load with
  | none => s
  | some l =>
    if s.infeedTakes w && s.mayClaimDest c p l.piece then
      let s1 := (s.setUser p (some c)).modSeq c fun q =>
        { q with
          atInfeed := true
          wait := q.wait.halt
          work := q.work.map fun x => { x with dest := some p } }
      s1.claimHere c
    else (s.modSeq c fun q => { q with atInfeed := true }).enterSawWait c w

/-- Make the next move, whose places are claimed. -/
def State.moveOn (s : State) (c : Carriage) : State :=
  match (s.sq c).nextAction with
  | .pick p => s.claimMove c (s.placeZone p)
  | .place p => s.claimMove c (s.placeZone p)
  | .deliver p w =>
    if (s.sq c).atInfeed || s.standsAt c p then s.arrive c p w else s.claimMove c (s.placeZone p)
  | _ => s

/-- The destination the current work would choose for a piece (R72, R77, R83, R84). -/
def State.chooseDest (s : State) (c : Carriage) (x : Piece) : Option Place :=
  match (s.sq c).work with
  | none => none
  | some w =>
    match w.kind, w.phase with
    | .order _ _ _ _ _ _, .dig _ dug => s.digBuffer c dug x
    | .order _ _ _ _ _ given, _ => s.divertPlace c given x
    | .returnJob _ _, _ => s.remnantPlace c x
    | .setDown none given, _ =>
      match (s.sq c).load with
      | some l => s.setDownPlace c l.origin given x
      | none => none
    | .setDown (some p) _, _ => if s.canTake c x p then some p else none

/-- A work record with its destination; a SET DOWN takes it as its reference (R65, R83). -/
def Work.withDest (p : Place) (w : Work) : Work :=
  { w with
    dest := some p
    kind :=
      match w.kind with
      | .setDown _ given => .setDown (some p) given
      | k => k }

/-- The choice of a destination: claimed and the move made, or BLOCKED (R72, R88). -/
def State.choose (s : State) (c : Carriage) : State :=
  match s.pieceToPlace c with
  | none => s.enterCarBlocked c
  | some x =>
    match s.chooseDest c x with
    | none => s.enterCarBlocked c
    | some p =>
      if s.mayClaimDest c p x then
        (((s.setUser p (some c)).modWork c (Work.withDest p)).modSeq c fun q =>
          { q with fullRaised := false }).moveOn c
      else s.enterCarBlocked c

/-- The standing carriage goes on: HELD when a hold is pending, IDLE with no work, otherwise its next
choice or move (R124, R137). -/
def State.act (s : State) (c : Carriage) : State :=
  if (s.sq c).holdPending then s.enterHeld c
  else
    match (s.sq c).nextAction with
    | .rest => s.enterIdle c
    | .choose => s.choose c
    | _ => s.moveOn c

/-- Take up works until one has a move, then go on. -/
def State.proceed (s : State) (c : Carriage) : State := (s.advance c).act c

/-! ### Cancel, timeout, preemption -/

/-- The divert place of the current order. -/
def Work.divert (w : Work) : Option Place :=
  match w.kind with
  | .order _ _ _ _ _ d => d
  | _ => none

/-- The sequencer acts on a cancel notice (R83): every place claim is released; with no load the work
ends, with a load it turns into a SET DOWN. -/
def State.actOnCancel (s : State) (c : Carriage) : State :=
  match (s.sq c).work with
  | none => (s.modSeq c fun q => { q with cancelPending := false }).proceed c
  | some w =>
    let s1 := (s.releasePlaces c).modSeq c fun q =>
      { q with cancelPending := false, expired := false, wait := q.wait.halt, fullRaised := false }
    match (s.sq c).load with
    | none => (s1.endWork c).proceed c
    | some _ =>
      (s1.modSeq c fun q =>
        { q with work := some ⟨.setDown none w.divert, w.cls, .carry, none, none⟩ }).proceed c

/-- The sequencer acts on the expiry of its wait timer (R77, R57). -/
def State.actOnExpiry (s : State) (c : Carriage) : State :=
  match (s.sq c).work with
  | none => s
  | some w =>
    match w.kind with
    | .order n saw _ _ _ _ =>
      let s1 := (s.raise .infeedTimeout (.saw saw) n).blockTimedOut c n
      let s2 := (s1.releaseDest c).modSeq c fun q =>
        { q with
          expired := false
          fullRaised := false
          work := q.work.map fun x => { x with phase := .divert, dest := none } }
      s2.act c
    | _ => s

/-- Push a record of the current work and take the offered one (R80). -/
def State.suspendFor (s : State) (c : Carriage) (w : Work) (ph : SuspendedPhase)
    (dug : Option Place) (cand : Candidate) : State :=
  let rec? : Option SuspendedRef :=
    match w.kind with
    | .order n _ _ _ _ _ => some (.order n)
    | .returnJob p _ => some (.returnJob p)
    | .setDown _ _ => none
  match rec? with
  | none => s
  | some r =>
    let s1 := (s.releaseSource c).modSeq c fun q =>
      { q with suspended := q.suspended ++ [⟨r, ph, dug⟩] }
    ((s1.suspendEntry c w.kind).takeOffer c cand).workNotice

/-- A preemption point: the queue is asked with the class of the current work as bound (R79). -/
def State.preempt (s : State) (c : Carriage) (ph : SuspendedPhase) (dug : Option Place) : State :=
  match (s.sq c).work with
  | none => s
  | some w =>
    let r := s.request c (some w.cls)
    match r.2 with
    | some cand => r.1.suspendFor c w ph dug cand
    | none => r.1

/-- The drive stands after a step and the records of the step are made: a cancel notice, then an
expired wait, then the work goes on (R83, R77). -/
def State.goOn (s : State) (c : Carriage) : State :=
  if (s.sq c).cancelPending then s.actOnCancel c
  else if (s.sq c).expired then s.actOnExpiry c
  else s.proceed c

/-! ### Completions -/

/-- The records of a completed PICK (R127, R73, R75, R85): the piece becomes the load; an order's
wanted piece frees its source. -/
def State.pickDone (s : State) (c : Carriage) (p : Place) (profile : GripProfile) (slipped : Bool) :
    State :=
  match s.topPiece p with
  | none => s
  | some x =>
    let s1 := (s.liftFrom p).modSeq c fun q => { q with load := some ⟨x, p, !slipped, profile⟩ }
    match (s.sq c).work with
    | none => s1
    | some w =>
      match w.kind, w.phase with
      | .order _ _ _ _ _ _, .source =>
        ((s1.releaseSource c).modWork c fun y => { y with phase := .deliver }).modSeq c fun q =>
          { q with atInfeed := false }
      | .returnJob _ _, .source =>
        let s2 := s1.modWork c fun y => { y with phase := .deliver }
        match w.dest with
        | some d => if s2.accepts d x then s2 else s2.releaseDest c
        | none => s2
      | _, _ => s1

/-- The records of a pick that ended without a piece (R74, R85). -/
def State.pickAbandoned (s : State) (c : Carriage) : State :=
  let s1 := (s.releaseSource c).releaseDest c
  match (s.sq c).work with
  | none => s1
  | some w =>
    match w.kind with
    | .returnJob _ _ => s1.endWork c
    | _ => s1.modWork c fun y => { y with phase := .source }

/-- What a completed PLACE leads to: the work ends, or it goes on through a preemption point. -/
inductive AfterPlace where
  | ends
  | preempts (w : Work) (ph : SuspendedPhase) (dug : Option Place)
  deriving DecidableEq, Repr

/-- What a completed PLACE leads to for the current work (R73, R78, R80, R86, R87). -/
def State.afterPlace (s : State) (c : Carriage) (w : Work) : AfterPlace :=
  match w.kind, w.phase with
  | .order _ _ _ _ _ _, .dig n dug =>
    if n ≤ 1 then .preempts { w with phase := .source, dest := none } .source (some dug)
    else .preempts { w with phase := .dig (n - 1) dug, dest := none } .dig (some dug)
  | .order _ _ _ _ _ _, .deliver =>
    if (s.sq c).orderDone then .ends
    else .preempts { w with phase := .source, dest := none } .deliver none
  | .returnJob p _, .deliver =>
    if knownCount (s.runsAt p) = 0 then .ends
    else .preempts { w with phase := .source, dest := none } .deliver none
  | _, _ => .ends

/-- The records of a completed PLACE (R73, R78, R86, R87): the destination is released, then the work
ends or meets a preemption point, unless a cancel notice is pending (R83). -/
def State.placeDone (s : State) (c : Carriage) : State :=
  match (s.sq c).work with
  | none => s
  | some w =>
    let s1 := s.releaseDest c
    match s1.afterPlace c w with
    | .ends => if (s.sq c).cancelPending then s1 else s1.endWork c
    | .preempts w' ph dug =>
      let s2 := s1.modSeq c fun q => { q with work := some w' }
      if (s.sq c).cancelPending then s2 else s2.preempt c ph dug

/-- The records of a completed TRAVEL at the arbiter (R95, R98): position accepted, the zones behind
released, an ordered move removed. -/
def State.travelDone (s : State) (c : Carriage) (p : Pos) : State :=
  let z := s.posZone p
  ((s.releaseZones c fun y => y = z).modRec c fun r =>
    { r with accepted := some p, zone := some z, ordered := none }).dueExam

/-- The piece let go of by a PLACE (R128, R32): it joins the record of the place and the load is
removed. -/
def State.letGo (s : State) (c : Carriage) (p : Place) (x : Piece) : State :=
  (s.addTo p x).modSeq c fun q => { q with load := none }

/-- The queue counts an infeed placement of the carriage's order down (R55). -/
def State.countdown (s : State) (c : Carriage) (n : Nat) : State :=
  match s.orderOf n with
  | none => s
  | some e =>
    if e.state = .active c then
      if e.remaining ≤ 1 then
        (((s.dropOrder n).raise .orderDone (.order n) (e.placed + 1)).modSeq c fun q =>
          { q with orderDone := true }).orderEnd e.saw
      else
        s.mapOrders (fun x => x = e) fun x =>
          { x with placed := x.placed + 1, remaining := x.remaining - 1 }
    else s

/-- A placement on an INFEED place: the saw station takes it, then the countdown (R78, R128). -/
def State.fed (s : State) (c : Carriage) (p : Place) (x : Piece) : State :=
  match s.kindAt p, s.cell.places[p].saw with
  | .infeed, some w =>
    let s1 := s.placement w p x
    match (s.sq c).work with
    | some k =>
      match k.orderNumber with
      | some n => s1.countdown c n
      | none => s1
    | none => s1
  | _, _ => s

end Sys2Proof.Machine
end

