-- ==== Sys2Proof/Machine/Arbiter.lean ====
section
/-! DEFINITION. The Zone Arbiter: granting waiting claims, make-way and yield, clear-outs, closings,
and the examination (chapter 5); the notices left at the end of a step. -/

namespace Sys2Proof.Machine

/-! ### Waiting claims -/

/-- Change the waiting claim of a carriage. -/
def State.modClaim (s : State) (c : Carriage) (f : WaitingClaim → WaitingClaim) : State :=
  { s with
    arb := { s.arb with
      waiting := s.arb.waiting.map fun w => if w.carriage = c then f w else w } }

/-- A waiting claim is granted (R92, R93, R112). -/
def State.grantWaiting (s : State) (w : WaitingClaim) : State :=
  match s.strayed w.carriage, (s.pt w.carriage).position with
  | some _, some p => s.positionConflict w.carriage p false
  | _, _ => (s.withdrawClaim w.carriage).grantSpan w.carriage (s.claimSpan w)

/-- Grant a claim if it still waits and its span is still claimable: the grant before it may have found
that carriage astray and settled it on a zone of this span (R91, R112). -/
def State.grantIfWaiting (s : State) (w : WaitingClaim) : State :=
  match s.claimOf w.carriage with
  | some x => if s.claimGrantable x then s.grantWaiting x else s
  | none => s

/-- The claim that is granted when two overlap: the higher class, then the one that began waiting
first, which is `a` (R93). -/
def preferred (a b : WaitingClaim) : WaitingClaim :=
  if workClassCode a.cls < workClassCode b.cls then b else a

/-- The grants of an examination (R93). -/
def State.grantClaims (s : State) : State :=
  match s.arb.waiting.filter s.claimGrantable with
  | [] => s
  | [a] => s.grantWaiting a
  | a :: b :: _ =>
    if rangesOverlap (s.claimSpan a) (s.claimSpan b) then s.grantWaiting (preferred a b)
    else (s.grantWaiting a).grantIfWaiting b

/-! ### Ordered moves -/

/-- The middle of a zone: its start plus half its length, zone 15 ending at 65535 mm (R98). -/
def CellMap.middle (m : CellMap) (z : Nat) : Nat :=
  if h : z < 15 then m.starts[z] + (m.starts[z + 1] - m.starts[z]) / 2
  else m.starts[15] + (Config.railEnd - m.starts[15]) / 2

/-- What came of ordering a move. -/
inductive Ordered where
  | moved (s : State)
  | conflict (s : State)
  | withheld
  deriving DecidableEq, Repr

/-- Order a carriage a move to a target zone (R98, R112); a target that is no zone is not granted. -/
def State.orderMove (s : State) (c : Carriage) (kind : MoveKind) (target : Option Nat) : Ordered :=
  match target, (s.arec c).zone with
  | some z, some cur =>
    if z ≤ 15 && s.spanClaimable c (kind = .clearOut) (spanOf cur z) then
      match s.strayed c, (s.pt c).position with
      | some _, some p => .conflict (s.positionConflict c p false)
      | _, pos =>
        let y := match pos with | some p => p.y | none => 0
        let s1 := ((s.withdrawClaim c).holdZones c (inRange (spanOf cur z))).modRec c fun r =>
          { r with ordered := some ⟨kind, z⟩ }
        let s2 := (s1.setCarState c .moving).modSeq c fun q => { q with atInfeed := false }
        .moved ((s2.dueExam).handStep c
          (.travel (s2.cell.middle z) y (s2.sq c).loadFloor))
    else .withheld
  | _, _ => .withheld

/-- The make-way target of a carriage clear of a span (R98). -/
def makeWayTarget (c : Carriage) (r : ZoneRange) : Option Nat :=
  match c with
  | .A => if r.first = 0 then none else some (r.first - 1)
  | .B => some (r.last + 1)

/-- The carriage stands with nothing that keeps it: IDLE, SAW WAIT or BLOCKED, with no ordered move. -/
def State.movable (s : State) (c : Carriage) : Bool :=
  ((s.sq c).state = .idle || (s.sq c).state = .sawWait || (s.sq c).state = .blocked)
    && (s.arec c).ordered.isNone

/-- CLAIM STALL for a waiting claim, once under its stall flag (R99). -/
def State.stallClaim (s : State) (w : WaitingClaim) : State :=
  match s.claimOf w.carriage with
  | some x =>
    if x.stalled then s
    else
      (s.modClaim w.carriage fun y => { y with stalled := true }).raise .claimStall
        (.carriage w.carriage) (s.firstBlocking w)
  | none => s

/-- The carriage must leave an AWAITING range: it holds a zone of one (R105). -/
def State.mustLeave (s : State) (c : Carriage) : Bool := (s.heldZones c).any s.awaited

/-- Order a carriage out of the way of a claim, or stall the claims given (R96, R97, R98, R99). -/
def State.makeWay (s : State) (mover : Carriage) (w : WaitingClaim) (stalls : List WaitingClaim) :
    State :=
  if s.mustLeave mover then s
  else
    match s.orderMove mover .makeWay (makeWayTarget mover (s.claimSpan w)) with
    | .moved t => t.modClaim w.carriage fun y => { y with stalled := false }
    | .conflict t => t
    | .withheld => stalls.foldl (fun t x => t.stallClaim x) s

/-- Of two waiting claims that block each other, whether the first yields to the second (R97): the
lower class yields, on equal class the one that began waiting later. -/
def State.yieldsTo (s : State) (w o : WaitingClaim) : Bool :=
  if workClassCode w.cls < workClassCode o.cls then true
  else if workClassCode o.cls < workClassCode w.cls then false
  else
    match s.arb.waiting.head? with
    | some h => h.carriage = o.carriage
    | none => false

/-- A yield (R97): `w` is freeable and the other carriage is CLAIMING with `o`. -/
def State.yieldFor (s : State) (w o : WaitingClaim) : State :=
  if s.freeable o && s.yieldsTo w o then s.makeWay w.carriage o [w, o]
  else s.makeWay o.carriage w [w, o]

/-- No move can be ordered for the carriage: it is HELD or FAULTED (R96, R105, R117). A FAULTED carriage
counts so from its fault on, also while the ordered move its fault cut short is still recorded (the
model's reading, log entry 45). -/
def CarState.immovable : CarState → Bool
  | .held => true
  | .faulted => true
  | _ => false

/-- The make-way and yield rules for a waiting claim (R96, R97, R117). -/
def State.helpClaim (s : State) (w : WaitingClaim) : State :=
  match s.claimOf w.carriage with
  | none => s
  | some x =>
    if s.claimGrantable x || !s.freeable x then s
    else
      let o := other w.carriage
      if (s.sq o).state.immovable then s.stallClaim x
      else if (s.arec o).ordered.isSome then s
      else
        match (s.sq o).state, s.claimOf o with
        | .claiming, some y => s.yieldFor x y
        | _, _ => if s.movable o then s.makeWay o x [x] else s

/-- Every waiting claim in turn meets the make-way and yield rules, the one that began waiting first
before the other, each judged as the one before has left the rail (the model's choice, log entry 54). -/
def State.helpClaims (s : State) : State := s.arb.waiting.foldl (fun t w => t.helpClaim w) s

/-! ### Closings -/

/-- Change the closing record of a gate. -/
def State.modGate (s : State) (g : Gate) (f : GateRec → GateRec) : State :=
  { s with arb := { s.arb with gates := s.arb.gates.set g.val (f s.arb.gates[g]) } }

/-- The range of a closing is clear: no zone has a holder and, for a range of one or more zones, no
carriage is HOMING (R106). -/
def State.rangeClear (s : State) (r : Option ZoneRange) : Bool :=
  match r with
  | none => true
  | some r => !s.rangeHeld r && !s.anyHoming

/-- Draw the detail of a ZONE CLOSED: the first zone of the range, a free value for a range of NONE. -/
def State.zoneDetail (s : State) (r : Option ZoneRange) : Int :=
  match r with
  | some r => r.first
  | none => Config.freeDetail s.free

/-- The count of free values goes on when one has been drawn. -/
def State.drawFor (s : State) (r : Option ZoneRange) : State :=
  match r with
  | some _ => s
  | none => { s with free := s.free + 1 }

/-- A gate's closing becomes GRANTED (R106). -/
def State.closeGate (s : State) (g : Gate) (r : Option ZoneRange) : State :=
  let s1 := (s.addSource (.gate g) (inOptRange r)).modGate g fun _ => ⟨.granted r, false, true⟩
  (s1.drawFor r).raise .zoneClosed (.gate g) (s.zoneDetail r)

/-- The host's closing becomes closed (R106, R102). -/
def State.closeHost (s : State) (r : ZoneRange) : State :=
  let s1 := s.addSource .host (inRange r)
  ({ s1 with arb := { s1.arb with host := ⟨none, false⟩ } }).raise .zoneClosed .host r.first

/-- A gate's AWAITING closing is judged (R106). -/
def State.judgeGate (s : State) (g : Gate) : State :=
  match s.arb.gates[g].state with
  | .awaiting r => if s.rangeClear r then s.closeGate g r else s
  | _ => s

/-- The host's AWAITING closing is judged (R106). -/
def State.judgeHost (s : State) : State :=
  match s.arb.host.awaiting with
  | some r => if s.rangeClear (some r) then s.closeHost r else s
  | none => s

/-- A closing record: gate 0, gate 1 or the host's. -/
inductive Closing where
  | gate (g : Gate)
  | host
  deriving DecidableEq, Repr

/-- The AWAITING range of a closing. -/
def State.awaitingRange (s : State) : Closing → Option ZoneRange
  | .gate g => s.arb.gates[g].awaitingRange
  | .host => s.arb.host.awaiting

/-- The AWAITING closings whose range has a zone the carriage holds, with their ranges. -/
def State.closingsOver (s : State) (c : Carriage) : List (Closing × ZoneRange) :=
  [Closing.gate 0, Closing.gate 1, Closing.host].filterMap fun k =>
    match s.awaitingRange k with
    | some r => if (s.heldZones c).any (inRange r) then some (k, r) else none
    | none => none

/-- The stall flag of a closing. -/
def State.closingStalled (s : State) : Closing → Bool
  | .gate g => s.arb.gates[g].stalled
  | .host => s.arb.host.stalled

/-- Set the stall flag of a closing. -/
def State.setClosingStall (s : State) (k : Closing) (b : Bool) : State :=
  match k with
  | .gate g => s.modGate g fun r => { r with stalled := b }
  | .host => { s with arb := { s.arb with host := { s.arb.host with stalled := b } } }

/-- CLAIM STALL for a closing whose clear-out is withheld, once under the closing's flag (R105). -/
def State.stallClosing (s : State) (c : Carriage) (k : Closing × ZoneRange) : State :=
  if s.closingStalled k.1 then s
  else (s.setClosingStall k.1 true).raise .claimStall (.carriage c) k.2.first

/-- The target of a clear-out: the nearest zone on the carriage's home side outside the ranges (R105). -/
def clearOutTarget (c : Carriage) (cur : Nat) (rs : List ZoneRange) : Option Nat :=
  let free := fun z => rs.all fun r => !inRange r z
  match c with
  | .A => ((List.range 16).filter fun z => decide (z < cur) && free z).getLast?
  | .B => ((List.range 16).filter fun z => decide (cur < z) && free z).head?

/-- The waiting claim of a carriage is withdrawn and, no move being ordered, made anew by its sequencer at
once: it waits afresh, behind a claim that waits already and with its stall flag clear (R94, R105; log
entry 14). -/
def State.renewClaim (s : State) (c : Carriage) : State :=
  match s.claimOf c with
  | none => s
  | some w =>
    { s with
      arb := { s.arb with
        waiting := (s.arb.waiting.filter fun x => x.carriage ≠ c) ++ [{ w with stalled := false }] } }

/-- Order a carriage out of the ranges of its AWAITING closings, or stall them; a waiting claim is
withdrawn in either case (R105). -/
def State.orderOut (s : State) (c : Carriage) (ks : List (Closing × ZoneRange)) : State :=
  let cur := ((s.arec c).zone).getD 0
  match s.orderMove c .clearOut (clearOutTarget c cur (ks.map (·.2))) with
  | .moved t => ks.foldl (fun u k => u.setClosingStall k.1 false) t
  | .conflict t => t
  | .withheld => (ks.foldl (fun u k => u.stallClosing c k) s).renewClaim c

/-- The clear-out of a carriage that holds a zone of an AWAITING range (R105, R117). -/
def State.clearOut (s : State) (c : Carriage) : State :=
  match s.closingsOver c with
  | [] => s
  | ks =>
    if (s.sq c).state.immovable then ks.foldl (fun u k => u.stallClosing c k) s
    else if (s.arec c).ordered.isSome then s
    else if (s.sq c).state = .claiming || s.movable c then s.orderOut c ks
    else s

/-- The examination's judgement of the AWAITING closings (R93, R105, R106). Where both carriages stand in
one range and neither can leave it, the one CLAIM STALL of the closing has carriage A as source (the
model's choice, log entry 46). Every closing whose range is clear is closed before any clear-out is judged,
so a clear-out that must pass a range closed in the same examination is withheld and stalls (the model's
choice, log entry 49). -/
def State.judgeClosings (s : State) : State :=
  ((((s.judgeGate 0).judgeGate 1).judgeHost).clearOut .A).clearOut .B

/-! ### The examination -/

/-- One examination (R93): grants, closings with their clear-outs, then make-way and yield. That make-way
and yield come after the grants is stated; R93 says only that the examination "also" judges the AWAITING
closings, and that it does so between the two is the model's choice (log entry 54). -/
def State.examPass (s : State) : State :=
  ((({ s with todo := { s.todo with exam := false } }).grantClaims).judgeClosings).helpClaims

/-- Examinations while one is due, at most `n`. -/
def State.examineN : Nat → State → State
  | 0, s => s
  | n + 1, s => if s.todo.exam then State.examineN n s.examPass else s

/-- Examinations while one is due (R93). -/
def State.examine (s : State) : State := State.examineN 32 s

/-! ### The notices left at the end of a step -/

/-- A BLOCKED carriage chooses again (R88). -/
def State.retryBlocked (s : State) (c : Carriage) : State :=
  let s1 := { s with todo := { s.todo with blocked := s.todo.blocked.set c false } }
  if (s1.sq c).state = .blocked then s1.act c else s1

/-- A carriage in SAW WAIT puts its questions again (R76). -/
def State.retryWait (s : State) (c : Carriage) : State :=
  let s1 := { s with todo := { s.todo with wait := s.todo.wait.set c false } }
  if (s1.sq c).state = .sawWait then s1.moveOn c else s1

/-- The notices of a step are acted on until none is left, at most `n` rounds: examinations first, then
BLOCKED carriages, then carriages in SAW WAIT. -/
def State.settleN : Nat → State → State
  | 0, s => s
  | n + 1, s =>
    let s1 := s.examine
    if s1.todo.blocked.a then State.settleN n (s1.retryBlocked .A)
    else if s1.todo.blocked.b then State.settleN n (s1.retryBlocked .B)
    else if s1.todo.wait.a then State.settleN n (s1.retryWait .A)
    else if s1.todo.wait.b then State.settleN n (s1.retryWait .B)
    else s1

/-- The notices of a step are acted on (R36, R76, R88, R93). -/
def State.settle (s : State) : State := State.settleN 32 s

end Sys2Proof.Machine
end

