-- ==== Sys2Proof/Machine/Settings.lean ====
section
/-! DEFINITION. The setting requests: the Cell Map (chapter 1) and SAW CONFIG (section 7.2). Each
answers the state after the request and its reply. -/

namespace Sys2Proof.Machine

/-- An ACCEPT with an empty body. -/
def Reply.ok : Reply := .accept []

/-- Change the Cell Map. -/
def State.modCell (s : State) (f : CellMap → CellMap) : State := { s with cell := f s.cell }

/-! ### Zone map, curtains, gates, profiles, parameters -/

/-- Field index of the first start that is not above the one before it (R3). -/
def badStart (i : Nat) (prev : Half) : List Half → Option Nat
  | [] => none
  | h :: rest => if h.toNat ≤ prev.toNat then some i else badStart (i + 1) h rest

/-- Field index of the first bad field of SET ZONE MAP (R3). -/
def badZoneMap : List Half → Option Nat
  | [] => some 1
  | h :: rest => if h ≠ 0 then some 1 else badStart 2 h rest

/-- SET ZONE MAP (R3). -/
def State.doSetZoneMap (s : State) (starts : List Half) : State × Reply :=
  match badZoneMap starts with
  | some i => (s, .badValue i)
  | none =>
    if (s.sq .A).state = .unreferenced ∧ (s.sq .B).state = .unreferenced then
      (s.modCell fun m =>
        { m with starts := Vector.ofFn fun k => (starts.getD k.val 0).toNat }, .ok)
    else (s, .refuse .notNow 0)

/-- SET CURTAIN (R10). -/
def State.doSetCurtain (s : State) (curtain first last : Byte) : State × Reply :=
  match curtainOf curtain, readOptRange first last with
  | none, _ => (s, .badValue 1)
  | some _, .bad i => (s, .badValue i)
  | some k, .range r =>
    if s.lines.curtain[k] then (s, .refuse .notNow 0)
    else (s.modCell fun m => { m with curtains := m.curtains.set k.val (some r) }, .ok)
  | some k, .none =>
    if s.lines.curtain[k] then (s, .refuse .notNow 0)
    else (s.modCell fun m => { m with curtains := m.curtains.set k.val none }, .ok)

/-- SET ACCESS GATE (R11). -/
def State.doSetAccessGate (s : State) (gate first last : Byte) : State × Reply :=
  match gateOf gate, readOptRange first last with
  | none, _ => (s, .badValue 1)
  | some _, .bad i => (s, .badValue i)
  | some g, .range r =>
    if s.lines.access[g] then (s, .refuse .notNow 0)
    else (s.modCell fun m => { m with gates := m.gates.set g.val (some r) }, .ok)
  | some g, .none =>
    if s.lines.access[g] then (s, .refuse .notNow 0)
    else (s.modCell fun m => { m with gates := m.gates.set g.val none }, .ok)

/-- The field index of the first byte above 95 kPa, from index `i` on (R12). -/
def badVacuum (i : Nat) : List Byte → Option Nat
  | [] => none
  | b :: rest => if 95 < b.toNat then some i else badVacuum (i + 1) rest

/-- SET GRIP PROFILE (R12). -/
def State.doSetGripProfile (s : State) (profile low high floor : Byte) : State × Reply :=
  match profileOf profile, badVacuum 2 [low, high, floor] with
  | none, _ => (s, .badValue 1)
  | some _, some i => (s, .badValue i)
  | some p, none =>
    if low.toNat < floor.toNat then (s, .badValue 2)
    else if high.toNat < low.toNat then (s, .badValue 3)
    else
      (s.modCell fun m =>
        { m with profiles := m.profiles.set p.val ⟨low.toNat, high.toNat, floor.toNat⟩ }, .ok)

/-- The entry is STARVED with reason DIG LIMIT. -/
def OrderEntry.digStarved (e : OrderEntry) : Bool := e.state = .starved .digLimit

/-- Judge every return entry (R15, R46). Entries found due together take their due ranks in the order of
their saws, 0 to 3: no rule orders them here, as R63 does at a CELL RESET (the model's choice, log
entry 42). -/
def State.judgeAll (s : State) : State := (List.finRange 4).foldl (fun t w => t.judge w) s

/-- SET CELL PARAMETERS (R14, R15). -/
def State.doSetCellParameters (s : State) (tolerance digLimit trigger : Byte) : State × Reply :=
  if tolerance.toNat < 5 ∨ 50 < tolerance.toNat then (s, .badValue 1)
  else if 120 < digLimit.toNat then (s, .badValue 2)
  else if trigger.toNat < 1 ∨ 4 < trigger.toNat then (s, .badValue 3)
  else
    let s1 := s.modCell fun m =>
      { m with
        tolerance := tolerance.toNat
        digLimit := digLimit.toNat
        trigger := trigger.toNat }
    let s2 := if s.cell.digLimit < digLimit.toNat then s1.requeueWhere (·.digStarved) else s1
    (s2.judgeAll, .ok)

/-! ### Places -/

/-- A kind whose piece limit is the request's (R5). -/
def PlaceKind.ownLimit : PlaceKind → Bool
  | .stock => true
  | .buffer => true
  | .remnant => true
  | _ => false

/-- A kind that serves a saw (R5). -/
def PlaceKind.hasSaw : PlaceKind → Bool
  | .infeed => true
  | .return_ => true
  | _ => false

/-- The piece limit of a place of a kind (R5). -/
def PlaceKind.limit (k : PlaceKind) (given : Nat) : Nat :=
  match k with
  | .infeed => Config.infeedLimit
  | .return_ => Config.returnLimit
  | _ => given

/-- The field index of the first bad field of DEFINE PLACE after the kind (R6). -/
def badDefinition (k : PlaceKind) (y base : Half) (limit : Byte) (height : Half) (saw : Byte) :
    Option Nat :=
  if k = .unused then none
  else if 8000 < y.toNat then some 4
  else if 20000 < base.toNat then some 5
  else if k.ownLimit && (limit.toNat < 1 || Config.maxPieces < limit.toNat) then some 6
  else if height.toNat < base.toNat + 30 ∨ 30000 < height.toNat then some 7
  else if k.hasSaw && (sawOf saw).isNone then some 8
  else none

/-- Another place is of that kind for that saw (R6). -/
def State.duplicatePlace (s : State) (p : Place) (k : PlaceKind) (w : Option Saw) : Bool :=
  k.hasSaw && allPlaces.any fun q => q ≠ p && s.kindAt q = k && s.cell.places[q].saw = w

/-- The place cannot be redefined now (R6, IN USE). -/
def State.placeInUse (s : State) (p : Place) (k : PlaceKind) : Bool :=
  (match s.stackRecs[p] with
    | some r => r.state ≠ .empty || r.user.isSome
    | none => false)
    || (match s.kindAt p, s.cell.places[p].saw with
        | .infeed, some w =>
          s.queue.entries.any (fun e => e.saw = w) || s.saws[w].state = .cutting
            || (s.infeedBlocked w).isSome
        | .return_, some w => s.saws[w].overrun
        | .buffer, _ => k ≠ .buffer && s.queue.entries.any fun e => e.divert = some p
        | _, _ => false)

/-- The saw loses this place as its INFEED or RETURN place (R7). A RETURN place given to another saw
counts as lost to the one, whose entry leaves the list in any state, and newly gained by the other (the
model's choice, log entry 43). -/
def State.loseTable (s : State) (old new : PlaceDef) : State :=
  match old.kind, old.saw with
  | .infeed, some w =>
    if new.kind = .infeed ∧ new.saw = some w then s else s.infeedUndefined w
  | .return_, some w =>
    if new.kind = .return_ ∧ new.saw = some w then s
    else (s.modSaw w fun x => { x with permitHold := false }).putReturn w none
  | _, _ => s

/-- The saw gains this place as its INFEED or RETURN place (R7, R45, R145, R161), also from another saw
(log entry 43). -/
def State.gainTable (s : State) (p : Place) (old new : PlaceDef) : State :=
  match new.kind, new.saw with
  | .infeed, some w =>
    if old.kind = .infeed ∧ old.saw = some w then s else s.infeedDefined w
  | .return_, some w =>
    if old.kind = .return_ ∧ old.saw = some w then s
    else
      (s.modSaw w fun x => { x with permitHold := false }).putReturn w
        (some ⟨p, 0, false, false, .notDue⟩)
  | _, _ => s

/-- The definition is replaced and handed to the blocks that hold records of the place (R7). -/
def State.redefine (s : State) (p : Place) (new : PlaceDef) : State :=
  let old := s.cell.places[p]
  let s1 := (s.loseTable old new).modCell fun m => { m with places := m.places.set p.val new }
  let s2 := s1.putStack p (if new.kind = .unused then none else some ⟨.empty, none, []⟩)
  let s3 := s2.gainTable p old new
  if old.kind = .unused ∧ new.kind = .unused then s3 else s3.contentChange p

/-- DEFINE PLACE (R6). -/
def State.doDefinePlace (s : State) (place kind : Byte) (x y base : Half) (limit : Byte)
    (height : Half) (saw : Byte) : State × Reply :=
  match placeOf place, kindOf kind with
  | none, _ => (s, .badValue 1)
  | some _, none => (s, .badValue 2)
  | some p, some k =>
    match badDefinition k y base limit height saw with
    | some i => (s, .badValue i)
    | none =>
      let w := if k.hasSaw then sawOf saw else none
      if s.duplicatePlace p k w then (s, .refuse .duplicate 0)
      else if s.placeInUse p k then (s, .refuse .inUse 0)
      else
        (s.redefine p
          ⟨k, x.toNat, y.toNat, base.toNat, k.limit limit.toNat, height.toNat, w⟩, .ok)

/-! ### Saws -/

/-- The settings a SAW CONFIG carries (R146). -/
structure SawSettings where
  mode : SawMode
  threshold : Nat
  timeout : Nat
  waitLimit : Nat
  lock : Bool
  deriving DecidableEq, Repr

/-- The settings of SAW CONFIG, or the index of its first bad field after the saw (R146). -/
def readSettings (mode threshold : Byte) (timeout wait : Half) (lock : Byte) : SawSettings ⊕ Nat :=
  match modeOf mode with
  | none => .inr 2
  | some m =>
    if threshold.toNat < 1 ∨ 8 < threshold.toNat then .inr 3
    else if 300 < timeout.toNat then .inr 4
    else if wait.toNat < 5 ∨ 600 < wait.toNat then .inr 5
    else
      match flagOf lock with
      | none => .inr 6
      | some l => .inl ⟨m, threshold.toNat, timeout.toNat, wait.toNat, l⟩

/-- The state refuses these settings NOT NOW (R146, checks 3 to 6). -/
def State.settingsNotNow (s : State) (w : Saw) (x : SawSettings) : Bool :=
  (s.saws[w].state = .cutting && x.mode ≠ s.saws[w].mode)
    || (x.mode = .book && decide (x.threshold < s.bookCount w))
    || (x.mode = .book && (s.infeedUser w).isSome && x.threshold = s.bookCount w)
    || (x.mode = .basic && decide (0 < s.bookCount w))

/-- The infeed leaves a FALLBACK or STRANDED BOOK block at a SAW CONFIG (R147). -/
def State.leaveFallback (s : State) (w : Saw) : State :=
  match s.saws[w].state with
  | .blocked .fallback => s.followReady w
  | .blocked .strandedBook => s.followReady w
  | _ => s

/-- The settings take effect (R147). -/
def State.applySettings (s : State) (w : Saw) (x : SawSettings) : State :=
  let s1 := s.modSaw w fun y =>
    { y with
      mode := x.mode
      threshold := x.threshold
      timeout := x.timeout
      waitLimit := x.waitLimit
      lock := x.lock
      basicTaken := if y.mode = .basic ∧ x.mode = .book then false else y.basicTaken }
  let s2 := (s1.leaveFallback w).reloadBookTimer w
  if x.mode = .book ∧ s2.saws[w].servable = true ∧ 1 ≤ s2.bookCount w
      ∧ s2.bookCount w = x.threshold then
    s2.decideRelease w
  else s2

/-- SAW CONFIG (R146). -/
def State.doSawConfig (s : State) (saw mode threshold : Byte) (timeout wait : Half) (lock : Byte) :
    State × Reply :=
  match sawOf saw, readSettings mode threshold timeout wait lock with
  | none, _ => (s, .badValue 1)
  | some _, .inr i => (s, .badValue i)
  | some w, .inl x =>
    if x.mode = .book ∧ s.saws[w].fallback = true then (s, .refuse .sawNotAuto 0)
    else if s.settingsNotNow w x then (s, .refuse .notNow 0)
    else (s.applySettings w x, .ok)

end Sys2Proof.Machine
end

