-- ==== Sys2Proof/Machine/Stock.lean ====
section
/-! DEFINITION. The stock requests LOAD STACK, ADD RUNS, UNLOAD PLACE and UNLOCK PLACE (section 2.4). -/

namespace Sys2Proof.Machine

/-- The kind of a place that LOAD STACK and ADD RUNS act on (R23, R25). -/
def PlaceKind.hostStock (k : PlaceKind) : Bool := k.ownLimit

/-- A run list of known counts is above the piece limit or the height limit of a place. -/
def State.overLimits (s : State) (p : Place) (runs : List Run) : Bool :=
  (match pieceCount runs with
    | some n => s.cell.places[p].pieceLimit < n
    | none => false)
    || (match runsHeight runs with
        | some h => s.cell.places[p].heightLimit < s.cell.places[p].base + h
        | none => false)

/-- The hold field of LOAD STACK with the runs it goes with: hold YES with a count of 0 is refused at
field 2 (R23). -/
def readHold (hold : Byte) (runs : List WireRun) : Option Bool :=
  match flagOf hold with
  | some true => if runs.any fun r => r.count.toNat = 0 then none else some true
  | x => x

/-- The state a loaded record takes (R24). -/
def loadedState (hold : Bool) (runs : List Run) : StackState :=
  match pieceCount runs with
  | none => .measure
  | some _ => if hold then .locked .host else .ready

/-- LOAD STACK (R23, R24). -/
def State.doLoadStack (s : State) (place hold : Byte) (runs : List WireRun) : State × Reply :=
  match placeOf place, readHold hold runs, readRunList (runs.length = 1) 4 runs with
  | none, _, _ => (s, .badValue 1)
  | some _, none, _ => (s, .badValue 2)
  | some _, some _, .inr i => (s, .badValue i)
  | some p, some h, .inl given =>
    let laid := layRuns given []
    if !(s.kindAt p).hostStock then (s, .refuse .notDefined 0)
    else if (s.userAt p).isSome ∨ s.stackState p ≠ some .empty then (s, .refuse .inUse 0)
    else if s.overLimits p laid then (s, .refuse .full 0)
    else
      ((s.modCounters fun k => { k with loaded := countUp k.loaded (knownCount laid) }).setStack p
        (loadedState h laid) laid, .ok)

/-- ADD RUNS (R25). -/
def State.doAddRuns (s : State) (place : Byte) (runs : List WireRun) : State × Reply :=
  match placeOf place, readRunList false 3 runs with
  | none, _ => (s, .badValue 1)
  | some _, .inr i => (s, .badValue i)
  | some p, .inl given =>
    let laid := layRuns given (s.runsAt p)
    if !(s.kindAt p).hostStock then (s, .refuse .notDefined 0)
    else if (s.userAt p).isSome then (s, .refuse .inUse 0)
    else if s.stackState p ≠ some .ready then (s, .refuse .notNow 0)
    else if Config.maxRuns < laid.length ∨ s.overLimits p laid = true then (s, .refuse .full 0)
    else
      ((s.modCounters fun k => { k with loaded := countUp k.loaded (knownCount given) }).setStack p
        .ready laid, .ok)

/-- The Stack Table tells the saw station of an UNLOAD PLACE on its table (R26, R159, R166);
`had` says that the place held a stack. -/
def State.tellUnloaded (s : State) (p : Place) (had : Bool) : State :=
  match s.kindAt p, s.cell.places[p].saw with
  | .infeed, some w => if had then s.bookRemoved w else s
  | .return_, some w => s.recoverReturn w
  | _, _ => s

/-- The pieces of a place leave the account (R26). An EMPTY place stays as it is. -/
def State.unload (s : State) (p : Place) : State :=
  if s.stackState p = some .empty then s.tellUnloaded p false
  else
    (((s.modCounters fun k =>
      { k with unloaded := countUp k.unloaded (knownCount (s.runsAt p)) }).emptyStack p).tellUnloaded
        p true)

/-- The place is the INFEED place of a saw that is CUTTING (R26). -/
def State.underSaw (s : State) (p : Place) : Bool :=
  match s.kindAt p, s.cell.places[p].saw with
  | .infeed, some w => s.saws[w].state = .cutting
  | _, _ => false

/-- UNLOAD PLACE (R26). -/
def State.doUnloadPlace (s : State) (place : Byte) : State × Reply :=
  match placeOf place with
  | none => (s, .badValue 1)
  | some p =>
    if s.kindAt p = .unused then (s, .refuse .notDefined 0)
    else if (s.userAt p).isSome then (s, .refuse .inUse 0)
    else if s.underSaw p then (s, .refuse .notNow 0)
    else (s.unload p, .ok)

/-- The stack is LOCKED. -/
def StackState.isLocked : StackState → Bool
  | .locked _ => true
  | _ => false

/-- The place's record is LOCKED. -/
def State.lockedAt (s : State) (p : Place) : Bool :=
  match s.stackState p with
  | some st => st.isLocked
  | none => false

/-- The state an unlocked record takes (R27). -/
def unlockedState (runs : List Run) : StackState :=
  match pieceCount runs with
  | none => .measure
  | some n => if n = 0 then .empty else .ready

/-- UNLOCK PLACE (R27). -/
def State.doUnlockPlace (s : State) (place : Byte) : State × Reply :=
  match placeOf place with
  | none => (s, .badValue 1)
  | some p =>
    if s.kindAt p = .unused then (s, .refuse .notDefined 0)
    else if (s.userAt p).isSome then (s, .refuse .inUse 0)
    else if !s.lockedAt p then (s, .refuse .notNow 0)
    else (s.setStack p (unlockedState (s.runsAt p)) (s.runsAt p), .ok)

end Sys2Proof.Machine
end

