-- ==== Sys2Proof/Machine/Orders.lean ====
section
/-! DEFINITION. The requests of the Order Queue: ORDER, CANCEL ORDER, FLUSH ORDERS (chapter 3). -/

namespace Sys2Proof.Machine

/-- A divert place field: NONE is FFh (R43, R186); the outer `none` is a byte out of range. -/
def divertOf? (b : Byte) : Option (Option Place) :=
  if b = absent then some none else (placeOf b).map some

/-- The divert place given is no BUFFER place (R43). -/
def State.badDivert (s : State) (d : Option Place) : Bool :=
  match d with
  | some p => s.kindAt p ≠ .buffer
  | none => false

/-- The fields of ORDER in range. -/
structure OrderFields where
  number : Nat
  saw : Saw
  material : Nat
  thickness : Nat
  cls : WorkClass
  quantity : Nat
  divert : Option Place
  deriving DecidableEq, Repr

/-- The fields of ORDER, or the index of the first one out of range (R43). -/
def readOrder (number : Half) (saw : Byte) (material thickness : Half) (cls : Byte)
    (quantity : Half) (divert : Byte) : OrderFields ⊕ Nat :=
  if number.toNat < 1 then .inr 1
  else
    match sawOf saw with
    | none => .inr 2
    | some w =>
      if material.toNat < 1 ∨ 4095 < material.toNat then .inr 3
      else if thickness.toNat < 30 ∨ 600 < thickness.toNat then .inr 4
      else
        match workClassOf cls with
        | none => .inr 5
        | some k =>
          if quantity.toNat < 1 ∨ 999 < quantity.toNat then .inr 6
          else
            match divertOf? divert with
            | none => .inr 7
            | some d =>
              .inl ⟨number.toNat, w, material.toNat, thickness.toNat, k, quantity.toNat, d⟩

/-- The entry of an accepted ORDER with its admission rank (R44). -/
def OrderFields.entry (f : OrderFields) (rank : Nat) : OrderEntry where
  number := f.number
  saw := f.saw
  material := f.material
  thickness := f.thickness
  cls := f.cls
  quantity := f.quantity
  remaining := f.quantity
  placed := 0
  divert := f.divert
  state := .queued
  rank := rank

/-- An accepted ORDER enters the queue by a requeue (R44, R42). -/
def State.admitOrder (s : State) (f : OrderFields) : State × Nat :=
  let t := s.queue.takeRank
  let s1 := { s with queue := { t.2 with entries := t.2.entries ++ [f.entry t.1] } }
  (s1.requeueWhere fun e => e.number = f.number, t.1)

/-- ORDER (R43, R44). -/
def State.doOrder (s : State) (number : Half) (saw : Byte) (material thickness : Half) (cls : Byte)
    (quantity : Half) (divert : Byte) : State × Reply :=
  match readOrder number saw material thickness cls quantity divert with
  | .inr i => (s, .badValue i)
  | .inl f =>
    if (s.infeedPlace f.saw).isNone ∨ s.badDivert f.divert = true then (s, .refuse .notDefined 0)
    else if (s.orderOf f.number).isSome then (s, .refuse .duplicate 0)
    else if Config.maxOrders ≤ s.queue.entries.length then (s, .refuse .full 0)
    else ((s.admitOrder f).1, .accept (num16 f.number ++ num32 (s.admitOrder f).2))

/-- A suspended-work record is of the order. -/
def Suspended.ofOrder (n : Nat) (r : Suspended) : Bool := r.ref = .order n

/-- A cancel notice is acted on at once where no step is in flight (R83). -/
def State.cancelNow (s : State) (c : Carriage) : State :=
  match (s.sq c).state with
  | .claiming => (s.withdrawClaim c).actOnCancel c
  | .sawWait => s.actOnCancel c
  | .blocked => s.actOnCancel c
  | _ => s

/-- The removal of an order by its state: its record leaves a suspend stack, or the carriage takes a
cancel notice; the order end notice follows (R60). Of an ACTIVE order whose carriage has no step in flight
the order end notice is counted before the carriage acts on the cancel notice, which may starve another
order of the saw and so change the count (the model's choice, log entry 52). -/
def State.cancelEntry (s : State) (e : OrderEntry) : State :=
  let s1 := s.dropOrder e.number
  match e.state with
  | .suspended c =>
    (s1.modSeq c fun q =>
      { q with suspended := q.suspended.filter fun r => !r.ofOrder e.number }).orderEnd e.saw
  | .active c =>
    ((s1.modSeq c fun q => { q with cancelPending := true }).orderEnd e.saw).cancelNow c
  | _ => s1.orderEnd e.saw

/-- CANCEL ORDER (R60). -/
def State.doCancelOrder (s : State) (number : Half) : State × Reply :=
  if number.toNat = 0 then (s, .badValue 1)
  else
    match s.orderOf number.toNat with
    | none => (s, .refuse .unknownOrder 0)
    | some e =>
      (s.cancelEntry e,
        .accept (num16 e.number ++ [byte (orderStateCode e.state)] ++ num16 e.placed
          ++ num16 e.remaining))

/-- The entry is one FLUSH ORDERS removes (R61). -/
def OrderEntry.flushed (e : OrderEntry) : Bool :=
  e.state = .queued || e.isStarved || e.isBlocked

/-- FLUSH ORDERS: one removal after another, each with its order end notice (R61, R56). -/
def State.doFlushOrders (s : State) : State × Reply :=
  let gone := s.queue.entries.filter (·.flushed)
  (gone.foldl (fun t e => (t.dropOrder e.number).orderEnd e.saw) s, .accept [byte gone.length])

end Sys2Proof.Machine
end

