-- ==== Sys2Proof/Machine/Carriages.lean ====
section
/-! DEFINITION. The requests on a carriage: HOME, HOLD, RELEASE, RESUME, SET DOWN (chapters 4 and 6). -/

namespace Sys2Proof.Machine

/-- The carriage gives up every zone and its current zone; an examination follows (R134, R115). -/
def State.giveUpZones (s : State) (c : Carriage) : State :=
  ((s.releaseZones c fun _ => false).modRec c fun r => { r with zone := none }).dueExam

/-- HOME (R134). -/
def State.doHome (s : State) (carriage : Byte) : State × Reply :=
  match carriageOf carriage with
  | none => (s, .badValue 1)
  | some c =>
    if (s.sq c).state = .stopped then (s, .refuse .notNow 0)
    else if s.railClosed then (s, .refuse .zoneClosed 0)
    else if (s.sq c).state ≠ .unreferenced ∧ (s.sq c).state ≠ .idle then (s, .refuse .notNow 0)
    else if (s.sq c).state = .idle ∧ (s.sq c).load.isSome = true then (s, .refuse .loaded 0)
    else
      let s1 := (s.giveUpZones c).setCarState c .homing
      ((s1.modSeq c fun q => { q with ask := false }).sendClear c, .ok)

/-- HOLD takes effect by the carriage's state (Table 6-5). -/
def State.holdNow (s : State) (c : Carriage) : State :=
  match (s.sq c).state with
  | .held => s
  | .moving =>
    if (s.sq c).holdPending then s
    else (s.modSeq c fun q => { q with holdPending := true }).withdrawNext c
  | .claiming => (s.withdrawClaim c).enterHeld c
  | _ => s.enterHeld c

/-- HOLD (R136). -/
def State.doHold (s : State) (carriage : Byte) : State × Reply :=
  match carriageOf carriage with
  | none => (s, .badValue 1)
  | some c =>
    if !referenced (s.sq c).state then (s, .refuse .notReferenced 0)
    else if (s.sq c).state = .faulted then (s, .refuse .notNow 0)
    else (s.holdNow c, .ok)

/-- A HELD carriage takes up its activity (R138). -/
def State.takeUp (s : State) (c : Carriage) : State :=
  let s1 := s.modSeq c fun q => { q with latched := Latched.none }
  if (s.sq c).cancelPending then s1.actOnCancel c else s1.proceed c

/-- RELEASE (R138). -/
def State.doRelease (s : State) (carriage : Byte) : State × Reply :=
  match carriageOf carriage with
  | none => (s, .badValue 1)
  | some c =>
    if !referenced (s.sq c).state then (s, .refuse .notReferenced 0)
    else if (s.sq c).state = .held then ((s.takeUp c).dueExam, .ok)
    else if (s.sq c).state = .moving ∧ (s.sq c).holdPending = true then
      (s.modSeq c fun q => { q with holdPending := false }, .ok)
    else (s, .refuse .notNow 0)

/-- A disposition field: HELD is 0, LOST is 1; `some true` is LOST (R133, R186). -/
def lostOf (b : Byte) : Option Bool :=
  match b.toNat with
  | 0 => some false
  | 1 => some true
  | _ => none

/-- The disposition of a load (R133, R38). -/
def State.dispose (s : State) (c : Carriage) (lost : Bool) : State :=
  match (s.sq c).load with
  | none => s
  | some l =>
    if lost then
      (s.modSeq c fun q => { q with load := none }).modCounters fun k =>
        { k with lost := countUp k.lost 1 }
    else s.modSeq c fun q => { q with load := some { l with sure := true } }

/-- RESUME (R133). -/
def State.doResume (s : State) (carriage disposition : Byte) : State × Reply :=
  match carriageOf carriage, lostOf disposition with
  | none, _ => (s, .badValue 1)
  | some _, none => (s, .badValue 2)
  | some c, some lost =>
    if (s.sq c).state ≠ .faulted ∨ (s.pt c).stopping = true ∨ (s.sq c).resumePending = true then
      (s, .refuse .notNow 0)
    else
      let s1 := (s.dispose c lost).clearEvents (carriageAlarm c)
      ((s1.modSeq c fun q => { q with resumePending := true }).sendClear c, .ok)

/-- The kinds of place SET DOWN may name (R87). -/
def PlaceKind.takesSetDown (k : PlaceKind) : Bool := k.ownLimit

/-- The carriage is in no state to take a SET DOWN: other than IDLE or HELD, with work, with no load,
or with one that is UNCERTAIN (R87). -/
def Sequencer.noSetDown (q : Sequencer) : Bool :=
  (q.state ≠ .idle && q.state ≠ .held) || q.work.isSome
    || (match q.load with
        | some l => !l.sure
        | none => true)

/-- The work of a SET DOWN requested by the host (R65, R87). -/
def setDownWork (p : Place) : Work := ⟨.setDown (some p) none, .rush, .carry, none, some p⟩

/-- The SET DOWN is taken up: at once by an IDLE carriage, at RELEASE by a HELD one (R87). -/
def State.startSetDown (s : State) (c : Carriage) (p : Place) : State :=
  let s1 := (s.setUser p (some c)).beginWork c (setDownWork p)
  if (s.sq c).state = .idle then s1.act c else s1

/-- SET DOWN (R87). -/
def State.doSetDown (s : State) (carriage place : Byte) : State × Reply :=
  match carriageOf carriage, placeOf place with
  | none, _ => (s, .badValue 1)
  | some _, none => (s, .badValue 2)
  | some c, some p =>
    if !referenced (s.sq c).state then (s, .refuse .notReferenced 0)
    else if (s.sq c).noSetDown then (s, .refuse .notNow 0)
    else if !(s.kindAt p).takesSetDown then (s, .refuse .notDefined 0)
    else if (s.userAt p).isSome then (s, .refuse .inUse 0)
    else if (s.stackState p ≠ some .empty ∧ s.stackState p ≠ some .ready)
        ∨ s.reachable c p = false then
      (s, .refuse .notNow 0)
    else
      match (s.sq c).load with
      | some l =>
        if s.accepts p l.piece then (s.startSetDown c p, .ok) else (s, .refuse .full 0)
      | none => (s, .refuse .notNow 0)

end Sys2Proof.Machine
end

