-- ==== Sys2Proof/Machine/Rail.lean ====
section
/-! DEFINITION. The host's closures: ZONE CLOSE and ZONE OPEN (section 5.5). -/

namespace Sys2Proof.Machine

/-- ZONE CLOSE (R102); its outcome is CLOSED, 0, or AWAITING, 1. -/
def State.doZoneClose (s : State) (first last : Byte) : State × Reply :=
  match readRange 1 first last with
  | .bad i => (s, .badValue i)
  | .none => (s, .badValue 1)
  | .range r =>
    if s.arb.host.awaiting.isSome then (s, .refuse .notNow 0)
    else if s.rangeClear (some r) then (s.closeHost r, .accept [0])
    else
      (({ s with arb := { s.arb with host := ⟨some r, false⟩ } }).dueExam, .accept [1])

/-- The zone carries the host's closure. -/
def State.hostClosed (s : State) (z : Nat) : Bool :=
  if h : z < 16 then s.arb.zones[z].sources[6] else false

/-- The host closing is withdrawn when its range overlaps the opened one (R103). -/
def State.withdrawHost (s : State) (r : ZoneRange) : State :=
  match s.arb.host.awaiting with
  | some x =>
    if rangesOverlap x r then { s with arb := { s.arb with host := ⟨none, false⟩ } } else s
  | none => s

/-- ZONE OPEN (R103); the reply gives the number of zones from which HOST was removed. -/
def State.doZoneOpen (s : State) (first last : Byte) : State × Reply :=
  match readRange 1 first last with
  | .bad i => (s, .badValue i)
  | .none => (s, .badValue 1)
  | .range r =>
    let n := ((rangeZones r).filter s.hostClosed).length
    (((s.removeSource .host (inRange r)).withdrawHost r).dueExam, .accept [byte n])

end Sys2Proof.Machine
end

