-- ==== Sys2Proof/Machine/Queries.lean ====
section
/-! DEFINITION. The queries and their replies, REPORTS ON and OFF, and CELL RESET (sections 9.3 to 9.6,
10.5, 10.6, and R63, R116, R141, R187). -/

namespace Sys2Proof.Machine

/-! ### Replies -/

/-- A two-byte field that may be absent; an absent one is a free value of the frame. -/
def State.optHalf (s : State) (offset : Nat) (o : Option Nat) : List Byte :=
  match o with
  | some n => num16 n
  | none => halfBytes (Config.freeHalf s.free offset)

/-- The count of free values goes on with a reply that may have drawn some. -/
def State.drawn (s : State) : State := { s with free := s.free + 1 }

/-- Whole seconds of a timer. -/
def Timer.seconds (t : Timer) : Nat := t.ms / 1000

/-- Code of a place, or of none. -/
def optPlaceByte (p : Option Place) : Byte := optByte (p.map (·.val))

/-- A zone range, both bytes FFh for NONE (R186). -/
def rangeBytes : Option ZoneRange → List Byte
  | some r => [byte r.first, byte r.last]
  | none => [absent, absent]

/-- The number of order entries that `p` picks out, as a byte. -/
def State.orderCount (s : State) (p : OrderState → Bool) : Byte :=
  byte (s.queue.entries.filter fun e => p e.state).length

/-- State of a saw's return entry, FFh for none. -/
def State.returnStateByte (s : State) (w : Saw) : Byte :=
  match s.queue.returns[w] with
  | some r => byte (returnStateCode r.state)
  | none => absent

/-- The PART STATUS reply (R184, Table 10-4). -/
def State.partStatusFields (s : State) : List Byte :=
  num40 s.counters.loaded ++ num40 s.counters.returned ++ num40 s.counters.cut
    ++ num40 s.counters.unloaded ++ num40 s.counters.lost
    ++ [byte s.cell.tolerance, byte s.cell.digLimit, byte s.cell.trigger]
    ++ (List.range 5).map (fun k => s.orderCount fun st => orderStateCode st = k)
    ++ (List.finRange 4).map s.returnStateByte
    ++ [byte (carStateCode (s.sq .A).state), byte (carStateCode (s.sq .B).state)]
    ++ [flagByte s.lines.eStop, flagByte s.events.gateOpen]
    ++ num16 s.link.framingErrors ++ num16 s.link.frameTimeouts ++ num16 s.link.badChecks
    ++ num16 s.link.overruns
    ++ [byte s.link.waiting.length, byte s.link.owedBad, byte s.link.owedBusy]

/-- PART STATUS (R184); the LINK OVERRUN entry is cleared once the reply is built (R174). -/
def State.doPartStatus (s : State) : State × Reply :=
  (s.clearEvents fun e => e.kind = .linkOverrun, .accept s.partStatusFields)

/-- An entry is a WARNING or a NOTICE of a source (R174). -/
def clearable (src : EventSource) (e : EventEntry) : Bool :=
  e.source = src && eventClass e.kind ≠ .alarm

/-- A piece in six bytes: material, thickness, profile, size class. -/
def pieceBytes (x : Piece) : List Byte :=
  num16 x.material ++ num16 x.thickness ++ [byte x.profile.val, byte (sizeCode x.size)]

/-- A run record of a reply (Table 10-5). -/
def runBytes (r : Run) : List Byte := pieceBytes r.piece ++ [optByte r.count]

/-- The load of a carriage at offset 11 of its reply (Table 10-8). -/
def State.loadBytes (s : State) (q : Sequencer) : List Byte :=
  match q.load with
  | some l => [if l.sure then 1 else 2] ++ pieceBytes l.piece ++ [byte l.origin.val]
  | none => [0] ++ s.optHalf 12 none ++ s.optHalf 14 none ++ [absent, absent, absent]

/-- Code and reference of a kind of work (Table 10-8). -/
def workRef : WorkKind → Byte × Option Nat
  | .order n _ _ _ _ _ => (1, some n)
  | .returnJob p _ => (2, some p.val)
  | .setDown t _ => (3, t.map (·.val))

/-- Dig remaining and dug stack of a phase. -/
def phaseDig : Phase → Option Nat × Option Place
  | .dig n p => (some n, some p)
  | _ => (none, none)

/-- The current work of a carriage at offset 19 of its reply (Table 10-8). -/
def State.workBytes (s : State) (q : Sequencer) : List Byte :=
  match q.work with
  | some w =>
    [(workRef w.kind).1] ++ s.optHalf 20 (workRef w.kind).2
      ++ [byte (workClassCode w.cls), byte (phaseCode w.phase), optByte (phaseDig w.phase).1,
        optPlaceByte (phaseDig w.phase).2, optPlaceByte w.source, optPlaceByte w.dest]
  | none => [0] ++ s.optHalf 20 none ++ [absent, absent, absent, absent, absent, absent]

/-- Code and reference of a suspended-work record: its kinds are coded from 0 in the order of R66, ORDER
then RETURN JOB (R186); the codes that Table 10-8 prints at offset 19 are those of the current work. -/
def suspendedRef : SuspendedRef → Byte × Nat
  | .order n => (0, n)
  | .returnJob p => (1, p.val)

/-- A suspended-work record whose bytes begin at an offset (Table 10-8); the one-byte fields of an absent
record are FFh (R186). -/
def State.suspendedBytes (s : State) (offset : Nat) (r : Option Suspended) : List Byte :=
  match r with
  | some x =>
    [(suspendedRef x.ref).1] ++ num16 (suspendedRef x.ref).2
      ++ [byte (suspendedPhaseCode x.phase), optPlaceByte x.dug]
  | none => [absent] ++ s.optHalf (offset + 1) none ++ [absent, absent]

/-- The QUERY CARRIAGE reply (R143, Table 10-8). -/
def State.carriageFields (s : State) (c : Carriage) : List Byte :=
  let q := s.sq c
  let d := s.pt c
  [byte (carriageCode c), byte (carStateCode q.state),
      flagByte q.holdPending + 2 * flagByte q.resumePending, byte (linkStateCode d.link),
      flagByte d.position.isSome]
    ++ s.optHalf 6 (d.position.map (·.x)) ++ s.optHalf 8 (d.position.map (·.y))
    ++ [optByte (s.arec c).zone] ++ s.loadBytes q ++ s.workBytes q
    ++ [byte q.suspended.length] ++ s.suspendedBytes 29 q.suspended[0]?
    ++ s.suspendedBytes 34 q.suspended[1]?
    ++ [flagByte q.wait.running]
    ++ s.optHalf 40 (if q.wait.running then some q.wait.seconds else none)
    ++ [byte (slotCode d.current), byte (slotCode d.next)]

/-- QUERY CARRIAGE (R143). -/
def State.doQueryCarriage (s : State) (carriage : Byte) : State × Reply :=
  match carriageOf carriage with
  | none => (s, .badValue 1)
  | some c => ((s.clearEvents (clearable (.carriage c))).drawn, .accept (s.carriageFields c))

/-- The record of a place in its reply, from the state on (Table 10-9). -/
def State.stackBytes (s : State) (p : Place) : List Byte :=
  match s.stackRecs[p] with
  | some r =>
    [byte (stackStateCode r.state), userByte r.user, byte (lockCode r.state),
        optByte (pieceCount r.runs)]
      ++ (match s.topHeight p with | some h => num16 h | none => [0xFF, 0xFF])
      ++ [byte r.runs.length] ++ r.runs.flatMap runBytes
  | none => [absent, absent, absent, absent] ++ s.optHalf 18 none ++ [0]

/-- The QUERY PLACE reply (R37, Table 10-9). -/
def State.placeFields (s : State) (p : Place) : List Byte :=
  let d := s.cell.places[p]
  [byte p.val, byte (placeKindCode d.kind)] ++ num16 d.x ++ num16 d.y ++ num16 d.base
    ++ [byte d.pieceLimit] ++ num16 d.heightLimit
    ++ [optByte (d.saw.map (·.val)), byte (s.placeZone p)] ++ s.stackBytes p

/-- QUERY PLACE (R37). -/
def State.doQueryPlace (s : State) (place : Byte) : State × Reply :=
  match placeOf place with
  | none => (s, .badValue 1)
  | some p => ((s.clearEvents (clearable (.place p))).drawn, .accept (s.placeFields p))

/-- An entry of the last fed list. -/
def fedBytes (e : Nat × Profile) : List Byte := num16 e.1 ++ [byte e.2.val]

/-- The QUERY SAW reply (R160, R168, Table 10-4). -/
def State.sawFields (s : State) (w : Saw) : List Byte :=
  let x := s.saws[w]
  [byte w.val, optPlaceByte (s.infeedPlace w), byte (modeCode x.mode),
      byte (infeedStateCode x.state), byte (s.bookCount w), byte x.threshold]
    ++ num16 x.timeout ++ [flagByte x.bookTimer.running] ++ num16 x.bookTimer.seconds
    ++ num16 x.waitLimit
    ++ [flagByte x.lock, optByte (infeedBlockCode x.state), flagByte x.basicTaken,
      flagByte x.releasePending, flagByte x.fallbackPending, byte (sawStatusCode x.status),
      flagByte x.silent, flagByte x.ready, flagByte x.cutDone, flagByte x.cutGo,
      optPlaceByte (s.returnPlace w), flagByte x.overrun, byte x.overrunCount,
      flagByte x.permitHold, flagByte (s.returnPermit w), byte x.lastFed.length]
    ++ x.lastFed.flatMap fedBytes

/-- QUERY SAW (R160). -/
def State.doQuerySaw (s : State) (saw : Byte) : State × Reply :=
  match sawOf saw with
  | none => (s, .badValue 1)
  | some w => (s.clearEvents (clearable (.saw w)), .accept (s.sawFields w))

/-- The carriage of an order in ACTIVE or SUSPENDED. -/
def OrderState.carriage? : OrderState → Option Nat
  | .active c => some (carriageCode c)
  | .suspended c => some (carriageCode c)
  | _ => none

/-- The starve reason code of an order in STARVED. -/
def OrderState.starve? : OrderState → Option Nat
  | .starved r => some (starveCode r)
  | _ => none

/-- The block reason code of an order in BLOCKED. -/
def OrderState.block? : OrderState → Option Nat
  | .blocked r => some (orderBlockCode r)
  | _ => none

/-- The QUERY ORDER reply (R64, Table 10-4). -/
def orderReply (e : OrderEntry) : List Byte :=
  num16 e.number ++ [byte e.saw.val] ++ num16 e.material ++ num16 e.thickness
    ++ [byte (workClassCode e.cls)] ++ num16 e.quantity ++ num16 e.remaining ++ num16 e.placed
    ++ [optPlaceByte e.divert, byte (orderStateCode e.state), optByte e.state.carriage?,
      optByte e.state.starve?, optByte e.state.block?]
    ++ num32 e.rank

/-- QUERY ORDER (R64, R174). -/
def State.doQueryOrder (s : State) (number : Half) : State × Reply :=
  if number.toNat = 0 then (s, .badValue 1)
  else
    match s.orderOf number.toNat with
    | none => (s, .refuse .unknownOrder 0)
    | some e => (s.clearEvents (sameEvent .noStock (.order e.number)), .accept (orderReply e))

/-- The closure-source set of a zone as a byte (R186). -/
def sourceByte (v : Vector Bool 7) : Byte :=
  byte ((List.finRange 7).foldl (fun n k => if v[k] then n + 2 ^ k.val else n) 0)

/-- A zone of the QUERY ZONES reply. -/
def State.zoneBytes (s : State) (z : Fin 16) : List Byte :=
  num16 s.cell.starts[z] ++ [userByte s.arb.zones[z].holder, sourceByte s.arb.zones[z].sources]

/-- A carriage of the QUERY ZONES reply: state, current zone, waiting claim, ordered move. -/
def State.arbiterBytes (s : State) (c : Carriage) : List Byte :=
  let w := s.claimOf c
  let place := (s.arb.waiting.findIdx fun x => x.carriage = c) + 1
  [byte (carStateCode (s.sq c).state), optByte (s.arec c).zone, optByte (w.map (·.target)),
    optByte (w.map fun x => workClassCode x.cls), optByte (w.map fun _ => place),
    optByte ((s.arec c).ordered.map fun m => moveKindCode m.kind),
    optByte ((s.arec c).ordered.map (·.target))]

/-- The QUERY ZONES reply (R118, Table 10-4). -/
def State.zonesFields (s : State) : List Byte :=
  (List.finRange 16).flatMap s.zoneBytes
    ++ (List.finRange 4).flatMap (fun k => rangeBytes s.cell.curtains[k])
    ++ (List.finRange 2).flatMap (fun g => rangeBytes s.cell.gates[g])
    ++ (List.finRange 2).flatMap (fun g =>
        [byte (gateStateCode s.arb.gates[g].state), flagByte s.arb.gates[g].grant])
    ++ [flagByte s.arb.host.awaiting.isSome] ++ rangeBytes s.arb.host.awaiting
    ++ s.arbiterBytes .A ++ s.arbiterBytes .B

/-- QUERY ZONES (R118). -/
def State.doQueryZones (s : State) : State × Reply := (s, .accept s.zonesFields)

/-- The number of pending entries of a class. -/
def State.classCount (s : State) (k : EventClass) : Byte :=
  byte (s.events.entries.filter fun e => eventClass e.kind = k).length

/-- The QUERY EVENTS reply in the summary form (R175, Table 10-4). -/
def State.summaryFields (s : State) : List Byte :=
  [s.classCount .alarm, s.classCount .warning, s.classCount .notice,
      byte (s.events.entries.filter fun e => !e.sent).length, flagByte s.events.gateOpen,
      byte s.events.displaced]
    ++ (match firstInOrder (fun _ => true) s.events.entries with
        | some e => eventBody (Config.freeHalf s.free 10) e
        | none => [absent])

/-- QUERY EVENTS, SUMMARY (R175). -/
def State.doEventsSummary (s : State) : State × Reply := (s.drawn, .accept s.summaryFields)

/-- The pending entries whose creation number is above the starting number, rising (R176). -/
def State.eventsAbove (s : State) (start : Nat) : List EventEntry :=
  s.events.entries.filter fun e => start < e.creation

/-- The QUERY EVENTS reply in the list form (R176, Table 10-4). -/
def State.listFields (s : State) (start : Nat) : List Byte :=
  let all := s.eventsAbove start
  let page := all.take 16
  [byte page.length]
    ++ (page.mapIdx fun i e => eventBody (Config.freeHalf s.free (5 + 14 * i)) e).flatten
    ++ [byte (all.length - page.length), byte s.events.displaced]

/-- A listed entry that the list form clears: a NOTICE, or a WARNING of an order no longer in the queue
(R176). -/
def State.listClears (s : State) (e : EventEntry) : Bool :=
  match eventClass e.kind, e.source with
  | .notice, _ => true
  | .warning, .order n => (s.orderOf n).isNone
  | _, _ => false

/-- QUERY EVENTS, LIST (R176). -/
def State.doEventsList (s : State) (start : Quad) : State × Reply :=
  let all := s.eventsAbove start.toNat
  let page := all.take 16
  let s1 := s.clearEvents fun e => page.contains e && s.listClears e
  let s2 :=
    if all.length ≤ page.length then { s1 with events := { s1.events with displaced := 0 } } else s1
  (s2.drawn, .accept (s.listFields start.toNat))

/-! ### The report gate -/

/-- REPORTS OFF (R172). -/
def State.doReportsOff (s : State) : State × Reply :=
  ({ s with events := { s.events with gateOpen := false } }, .ok)

/-- REPORTS ON: the gate opens and what waits is sent (R171, R172). -/
def State.doReportsOn (s : State) : State × Reply :=
  if s.events.gateOpen then (s, .ok)
  else (({ s with events := { s.events with gateOpen := true } }).sendReports, .ok)

/-! ### CELL RESET -/

/-- CELL RESET on a carriage by its state: STOP goes to a HOMING and to a MOVING one, also where the port
is stopping already (R141). The place claims are released unless the port is stopping (R22). -/
def State.resetCarriage (s : State) (c : Carriage) : State :=
  let s1 :=
    match (s.sq c).state with
    | .homing => s.stopHoming c
    | .moving => s.sendStop c
    | .unreferenced => s
    | .stopped => s
    | .faulted => s
    | _ => s.setCarState c .idle
  (s1.modSeq c Sequencer.cleared).releaseUnlessStopping c

/-- CELL RESET on the arbiter's record of a carriage: an ordered move that is not in flight is dropped
(R116). -/
def State.resetArbiter (s : State) (c : Carriage) : State :=
  if (s.sq c).state = .moving then s else s.modRec c fun r => { r with ordered := none }

/-- The arbiter with no waiting claim and every stall flag clear (R116). -/
def Arbiter.unclaimed (a : Arbiter) : Arbiter :=
  { a with
    waiting := []
    gates := a.gates.map fun g => { g with stalled := false }
    host := ⟨a.host.awaiting, false⟩ }

/-- CELL RESET on the claims and the stall flags (R116). -/
def State.resetClaims (s : State) : State :=
  ((({ s with arb := s.arb.unclaimed }).resetArbiter .A).resetArbiter .B).dueExam

/-- A return entry taken afresh from its place and its saw (R63). -/
def State.freshReturn (s : State) (w : Saw) (r : ReturnEntry) : ReturnEntry :=
  { r with
    count := knownCount (s.runsAt r.place)
    ready := s.stackState r.place = some .ready
    withdrawn := s.saws[w].permitHold
    state := .notDue }

/-- Judge the return entries in rising order of their return places (R63). -/
def State.judgeByPlace (s : State) : State :=
  allPlaces.foldl
    (fun t p =>
      match t.kindAt p, t.cell.places[p].saw with
      | .return_, some w => t.judge w
      | _, _ => t) s

/-- CELL RESET on the Order Queue (R63). -/
def State.resetQueue (s : State) : State :=
  State.judgeByPlace
    { s with
      queue := { s.queue with
        entries := []
        returns := Vector.ofFn fun w : Saw => (s.queue.returns[w]).map (s.freshReturn w) } }

/-- CELL RESET on the Event Unit (R177). -/
def State.resetEvents (s : State) : State :=
  { s with events := { s.events with entries := [], gateOpen := true, displaced := 0 } }

/-- CELL RESET on the waiting requests behind it: marked dropped (R187). -/
def HostLink.dropBehind (l : HostLink) : HostLink :=
  match l.waiting with
  | [] => l
  | head :: rest => { l with waiting := head :: rest.map fun r => { r with dropped := true } }

/-- An IDLE carriage with no load asks for work after a CELL RESET (R141). -/
def State.askIfIdle (s : State) (c : Carriage) : State :=
  if (s.sq c).state = .idle ∧ (s.sq c).load.isNone = true then
    s.modSeq c fun q => { q with ask := true }
  else s

/-- CELL RESET (R187 with R22, R63, R116, R141, R177). The pending entries are cleared before the
examination that the reset leads to is made at the end of the step, so a ZONE CLOSED or a CLAIM STALL that
this examination raises stays pending; R177 speaks only of raisings taken before and after a CELL RESET (the
model's choice, log entry 53). -/
def State.doCellReset (s : State) : State × Reply :=
  let s1 := (s.resetCarriage .A).resetCarriage .B
  let s2 := ((s1.resetQueue).resetClaims).resetEvents
  (((s2.askIfIdle .A).askIfIdle .B).modLink HostLink.dropBehind, .ok)

end Sys2Proof.Machine
end

