-- ==== Sys2Proof/Machine/HostLink.lean ====
section
/-! DEFINITION. The Host Link Controller: taking requests, owed refusals, the outbound queue, the
receiver (chapter 10), and the meanings of the link commands. -/

namespace Sys2Proof.Machine

/-! ### Dispatch -/

/-- A request is handed to its owner (R182, step 3). -/
def State.handle (s : State) : Request → State × Reply
  | .partStatus => s.doPartStatus
  | .setZoneMap starts => s.doSetZoneMap starts
  | .setCurtain k f l => s.doSetCurtain k f l
  | .setAccessGate g f l => s.doSetAccessGate g f l
  | .setGripProfile p lo hi fl => s.doSetGripProfile p lo hi fl
  | .setCellParameters t d r => s.doSetCellParameters t d r
  | .definePlace p k x y b n h w => s.doDefinePlace p k x y b n h w
  | .sawConfig w m n t l k => s.doSawConfig w m n t l k
  | .loadStack p h runs => s.doLoadStack p h runs
  | .addRuns p runs => s.doAddRuns p runs
  | .unloadPlace p => s.doUnloadPlace p
  | .unlockPlace p => s.doUnlockPlace p
  | .order n w m t c q d => s.doOrder n w m t c q d
  | .cancelOrder n => s.doCancelOrder n
  | .flushOrders => s.doFlushOrders
  | .home c => s.doHome c
  | .hold c => s.doHold c
  | .release c => s.doRelease c
  | .resume c d => s.doResume c d
  | .setDown c p => s.doSetDown c p
  | .zoneClose f l => s.doZoneClose f l
  | .zoneOpen f l => s.doZoneOpen f l
  | .reportsOff => s.doReportsOff
  | .reportsOn => s.doReportsOn
  | .queryCarriage c => s.doQueryCarriage c
  | .queryPlace p => s.doQueryPlace p
  | .querySaw w => s.doQuerySaw w
  | .queryOrder n => s.doQueryOrder n
  | .queryZones => s.doQueryZones
  | .queryEventsSummary => s.doEventsSummary
  | .queryEventsList n => s.doEventsList n
  | .cellReset => s.doCellReset

/-- The outcome of a waiting request when its turn comes: dropped by a CELL RESET it is refused NOT NOW
unexamined (R187); otherwise it is checked and handed to its owner (R182), and the notices of the step
are acted on before the reply. -/
def State.serve (s : State) (r : WaitingRequest) : State × Reply :=
  if r.dropped then (s, .refuse .notNow 0)
  else
    match parseRequest r.kind r.body with
    | .refused why i => (s, .refuse why i)
    | .request q => ((s.handle q).1.settle, (s.handle q).2)

/-- The oldest waiting request leaves the list. -/
def HostLink.popWaiting (l : HostLink) : HostLink := { l with waiting := l.waiting.tail }

/-- The oldest waiting request is taken: served, answered, and gone from the list (R182). -/
def State.takeHead (s : State) (r : WaitingRequest) : State :=
  (((s.serve r).1).queueFrame ((s.serve r).2.frame r.kind)).modLink HostLink.popWaiting

/-- A refusal is owed (R181). -/
def HostLink.owes (l : HostLink) : Bool := 0 < l.owedBad || 0 < l.owedBusy

/-- Waiting requests are taken while a frame is free and no refusal is owed, at most `n` (R182). -/
def State.takeRequestsN : Nat → State → State
  | 0, s => s
  | n + 1, s =>
    if s.freeFrames = 0 ∨ s.link.owes = true then s
    else
      match s.link.waiting with
      | [] => s
      | r :: _ => State.takeRequestsN n (s.takeHead r)

/-- Waiting requests are taken while that can be done (R182); at most 2 wait. -/
def State.takeRequests (s : State) : State := s.takeRequestsN Config.maxWaiting

/-! ### Refusals at the receiver -/

/-- A REFUSE BAD FRAME is owed for a frame of this kind (R181). -/
def State.oweBad (s : State) (kind : Byte) : State :=
  if s.link.owes = false ∧ 1 ≤ s.freeFrames then
    s.queueFrame (refuseFrame kind (reasonCode .badFrame) 1)
  else
    s.modLink fun l =>
      { l with owedBad := min (l.owedBad + 1) Config.maxSmall, owedBadKind := kind }

/-- A REFUSE BUSY is owed for a frame of this kind (R181). -/
def State.oweBusy (s : State) (kind : Byte) : State :=
  if s.link.owes = false ∧ 1 ≤ s.freeFrames then
    s.queueFrame (refuseFrame kind (reasonCode .busy) 1)
  else
    s.modLink fun l =>
      { l with owedBusy := min (l.owedBusy + 1) Config.maxSmall, owedBusyKind := kind }

/-- An owed BAD FRAME is served when a frame is free (R181, R183). -/
def State.serveBad (s : State) : State :=
  if 0 < s.link.owedBad ∧ 1 ≤ s.freeFrames then
    (s.queueFrame (refuseFrame s.link.owedBadKind (reasonCode .badFrame)
      (byte s.link.owedBad))).modLink fun l => { l with owedBad := 0 }
  else s

/-- An owed BUSY is served when a frame is free (R181, R183). -/
def State.serveBusy (s : State) : State :=
  if 0 < s.link.owedBusy ∧ 1 ≤ s.freeFrames then
    (s.queueFrame (refuseFrame s.link.owedBusyKind (reasonCode .busy)
      (byte s.link.owedBusy))).modLink fun l => { l with owedBusy := 0 }
  else s

/-- A link error count goes up, holding at 65535 (R184). -/
def countError (n : Nat) : Nat := min (n + 1) Config.maxLinkCount

/-- A frame has completed with a bad check (R180, step 1). -/
def State.badCheck (s : State) (kind : Byte) : State :=
  (s.modLink fun l => { l with badChecks := countError l.badChecks }).oweBad kind

/-- A frame has completed with a good check: it waits, or is discarded when 2 wait (R180, steps 2 and
3). -/
def State.goodFrame (s : State) (kind : Byte) (body : List Byte) : State :=
  if s.link.waiting.length < Config.maxWaiting then
    (s.modLink fun l => { l with waiting := l.waiting ++ [⟨kind, body, false⟩] }).takeRequests
  else
    ((s.modLink fun l => { l with overruns := countError l.overruns }).oweBusy kind).raise
      .linkOverrun .hostLink kind.toNat

/-! ### The receiver -/

/-- The check of a frame: the sum modulo 65536 of its length, kind and body (section 10.1). -/
def frameCheck (length kind : Byte) (body : List Byte) : Half :=
  BitVec.ofNat 16 (length.toNat + kind.toNat + (body.map (·.toNat)).sum)

/-- The receiver's state with its gap timer. -/
def State.setReceiver (s : State) (r : Receiver) (gap : Timer) : State :=
  s.modLink fun l => { l with rx := r, gap := gap }

/-- The receiver takes a byte (R178); the gap timer follows (R179). -/
def State.receiveByte (s : State) (b : Byte) : State :=
  let go := fun r => s.setReceiver r (Timer.start Config.gapMs)
  let done := s.setReceiver .hunt s.link.gap.halt
  match s.link.rx with
  | .hunt => if b = 0xC3 then go .length else s
  | .length =>
    if b.toNat ≤ 240 then go (.kind b)
    else done.modLink fun l => { l with framingErrors := countError l.framingErrors }
  | .kind n => if n = 0 then go (.check n b [] none) else go (.body n b [])
  | .body n k kept =>
    if kept.length + 1 < n.toNat then go (.body n k (kept ++ [b]))
    else go (.check n k (kept ++ [b]) none)
  | .check n k body none => go (.check n k body (some b))
  | .check n k body (some low) =>
    if half low b = frameCheck n k body then done.goodFrame k body else done.badCheck k

/-- The gap timer expires in the middle of a frame (R179). -/
def State.gapExpired (s : State) : State :=
  match s.link.rx with
  | .hunt => s
  | _ =>
    (s.setReceiver .hunt s.link.gap.halt).modLink fun l =>
      { l with frameTimeouts := countError l.frameTimeouts }

/-- The last byte of the first outbound frame has been sent (R183). -/
def State.freeFrame (s : State) : State :=
  match s.link.outbound with
  | [] => s
  | _ :: rest =>
    let s1 := s.modLink fun l => { l with outbound := rest }
    (((s1.serveBad).serveBusy).takeRequests).sendReports

/-- The oldest waiting request, marked dropped by a CELL RESET, is answered when it can be taken
(R187). -/
def State.answerDropped (s : State) : State :=
  match s.link.waiting with
  | r :: _ => if r.dropped then s.takeRequests else s
  | [] => s

/-! ### Meanings of the link commands -/

/-- The outcome of a command that has its effect. -/
abbrev Result := Host.Outcome State Fault Refusal

/-- BYTE_RECEIVED (R178). -/
def execByteReceived (b : Byte) (s : State) : Result := .next (s.receiveByte b)

/-- FRAME_COMPLETE (R180): the byte that completes a frame. -/
def execFrameComplete (b : Byte) (s : State) : Result := .next (s.receiveByte b)

/-- FRAMING_ERROR (R178): the byte that is no length. -/
def execFramingError (b : Byte) (s : State) : Result := .next (s.receiveByte b)

/-- FRAME_TIMEOUT (R179). -/
def execFrameTimeout (s : State) : Result := .next s.gapExpired

/-- FRAME_FREED (R183). -/
def execFrameFreed (s : State) : Result := .next s.freeFrame

/-- UNKNOWN_KIND (R182): a good frame with this kind byte arrives. -/
def execUnknownKind (kind : Byte) (body : List Byte) (s : State) : Result :=
  .next (s.goodFrame kind body)

/-- DROPPED_REQUEST (R187). -/
def execDroppedRequest (s : State) : Result := .next s.answerDropped

/-- A good frame of a request arrives (R180). -/
def State.requestArrives (s : State) (r : Request) : State := s.goodFrame (Request.kind r) (Request.body r)

end Sys2Proof.Machine
end

