-- ==== Sys2Proof/Machine/Requests.lean ====
section
/-! DEFINITION. The meanings of the rows that are host requests: the request's frame arrives whole and
good at the receiver (R180), and is taken, refused BUSY or left waiting by the rules of chapter 10. -/

namespace Sys2Proof.Machine

/-- PART_STATUS (R184). -/
def execPartStatus (s : State) : Result :=
  .next (s.requestArrives .partStatus)

/-- SET_ZONE_MAP (R3). -/
def execSetZoneMap (starts : List Half) (s : State) : Result :=
  .next (s.requestArrives (.setZoneMap starts))

/-- SET_CURTAIN (R10). -/
def execSetCurtain (curtain first last : Byte) (s : State) : Result :=
  .next (s.requestArrives (.setCurtain curtain first last))

/-- SET_ACCESS_GATE (R11). -/
def execSetAccessGate (gate first last : Byte) (s : State) : Result :=
  .next (s.requestArrives (.setAccessGate gate first last))

/-- SET_GRIP_PROFILE (R12). -/
def execSetGripProfile (profile low high floor : Byte) (s : State) : Result :=
  .next (s.requestArrives (.setGripProfile profile low high floor))

/-- SET_CELL_PARAMETERS (R14). -/
def execSetCellParameters (tolerance digLimit trigger : Byte) (s : State) : Result :=
  .next (s.requestArrives (.setCellParameters tolerance digLimit trigger))

/-- DEFINE_PLACE (R6). -/
def execDefinePlace (place kind : Byte) (x y base : Half) (limit : Byte) (height : Half)
    (saw : Byte) (s : State) : Result :=
  .next (s.requestArrives (.definePlace place kind x y base limit height saw))

/-- SAW_CONFIG (R146). -/
def execSawConfig (saw mode threshold : Byte) (timeout wait : Half) (lock : Byte)
    (s : State) : Result :=
  .next (s.requestArrives (.sawConfig saw mode threshold timeout wait lock))

/-- LOAD_STACK (R23). -/
def execLoadStack (place hold : Byte) (runs : List WireRun) (s : State) : Result :=
  .next (s.requestArrives (.loadStack place hold runs))

/-- ADD_RUNS (R25). -/
def execAddRuns (place : Byte) (runs : List WireRun) (s : State) : Result :=
  .next (s.requestArrives (.addRuns place runs))

/-- UNLOAD_PLACE (R26). -/
def execUnloadPlace (place : Byte) (s : State) : Result :=
  .next (s.requestArrives (.unloadPlace place))

/-- UNLOCK_PLACE (R27). -/
def execUnlockPlace (place : Byte) (s : State) : Result :=
  .next (s.requestArrives (.unlockPlace place))

/-- ORDER (R43). -/
def execOrder (number : Half) (saw : Byte) (material thickness : Half) (cls : Byte)
    (quantity : Half) (divert : Byte) (s : State) : Result :=
  .next (s.requestArrives (.order number saw material thickness cls quantity divert))

/-- CANCEL_ORDER (R60). -/
def execCancelOrder (number : Half) (s : State) : Result :=
  .next (s.requestArrives (.cancelOrder number))

/-- FLUSH_ORDERS (R61). -/
def execFlushOrders (s : State) : Result :=
  .next (s.requestArrives .flushOrders)

/-- HOME (R134). -/
def execHome (carriage : Byte) (s : State) : Result :=
  .next (s.requestArrives (.home carriage))

/-- HOLD (R136). -/
def execHold (carriage : Byte) (s : State) : Result :=
  .next (s.requestArrives (.hold carriage))

/-- RELEASE (R138). -/
def execRelease (carriage : Byte) (s : State) : Result :=
  .next (s.requestArrives (.release carriage))

/-- RESUME (R133). -/
def execResume (carriage disposition : Byte) (s : State) : Result :=
  .next (s.requestArrives (.resume carriage disposition))

/-- SET_DOWN (R87). -/
def execSetDown (carriage place : Byte) (s : State) : Result :=
  .next (s.requestArrives (.setDown carriage place))

/-- ZONE_CLOSE (R102). -/
def execZoneClose (first last : Byte) (s : State) : Result :=
  .next (s.requestArrives (.zoneClose first last))

/-- ZONE_OPEN (R103). -/
def execZoneOpen (first last : Byte) (s : State) : Result :=
  .next (s.requestArrives (.zoneOpen first last))

/-- REPORTS_OFF (R172). -/
def execReportsOff (s : State) : Result :=
  .next (s.requestArrives .reportsOff)

/-- REPORTS_ON (R172). -/
def execReportsOn (s : State) : Result :=
  .next (s.requestArrives .reportsOn)

/-- QUERY_CARRIAGE (R143). -/
def execQueryCarriage (carriage : Byte) (s : State) : Result :=
  .next (s.requestArrives (.queryCarriage carriage))

/-- QUERY_PLACE (R37). -/
def execQueryPlace (place : Byte) (s : State) : Result :=
  .next (s.requestArrives (.queryPlace place))

/-- QUERY_SAW (R160). -/
def execQuerySaw (saw : Byte) (s : State) : Result :=
  .next (s.requestArrives (.querySaw saw))

/-- QUERY_ORDER (R64). -/
def execQueryOrder (number : Half) (s : State) : Result :=
  .next (s.requestArrives (.queryOrder number))

/-- QUERY_ZONES (R118). -/
def execQueryZones (s : State) : Result :=
  .next (s.requestArrives .queryZones)

/-- QUERY_EVENTS_SUMMARY (R175). -/
def execQueryEventsSummary (s : State) : Result :=
  .next (s.requestArrives .queryEventsSummary)

/-- QUERY_EVENTS_LIST (R176). -/
def execQueryEventsList (start : Quad) (s : State) : Result :=
  .next (s.requestArrives (.queryEventsList start))

/-- CELL_RESET (R187). -/
def execCellReset (s : State) : Result :=
  .next (s.requestArrives .cellReset)

end Sys2Proof.Machine
end

