-- ==== Sys2Proof/Machine/DriveReports.lean ====
section
/-! DEFINITION. The meanings of the drive reports (chapter 6). -/

namespace Sys2Proof.Machine

/-! ### What follows a completion -/

/-- The carriage goes on after a completion: the next step runs, is sent again, or the drive stands
(R124). While it stays MOVING a pending cancel notice waits for the completion that leaves the drive
standing (R83; the model's reading, log entry 44). -/
def State.follow (s : State) (c : Carriage) (k : Completion) : State :=
  match k with
  | .goesOn => s
  | .resend x => s.sendStep c .current x
  | .stands => s.goOn c

/-- The carriage stands after an ordered move: HELD when a hold is pending; without work IDLE at its
new zone; with work it asks again for its move (R98). -/
def State.orderedMoveOver (s : State) (c : Carriage) : State :=
  if (s.sq c).work.isSome then s.goOn c
  else if (s.sq c).holdPending then s.enterHeld c
  else s.setCarState c .idle

/-- The carriage has arrived where its TRAVEL led: at an infeed the arrival is noted (R75). -/
def State.noteArrival (s : State) (c : Carriage) : State :=
  match (s.sq c).nextAction with
  | .deliver _ _ => s.modSeq c fun q => { q with atInfeed := true }
  | _ => s

/-- The carriage goes on after a TRAVEL whose position check has passed (R95, R98, R124). -/
def State.afterTravel (s : State) (c : Carriage) (k : Completion) (ordered : Bool) : State :=
  match k with
  | .stands => if ordered then s.orderedMoveOver c else (s.noteArrival c).goOn c
  | _ => s.follow c k

/-! ### READY, CONTACT, GRIP READING -/

/-- READY answers a CLEAR (R122, R133, R134). -/
def State.clearAnswered (s : State) (c : Carriage) : State :=
  let s1 := s.modPort c fun d => { d with link := .ready, clearPending := false }
  match (s.sq c).state with
  | .homing => (s1.send c .home).setCurrent c .home
  | .faulted =>
    if (s.sq c).resumePending then
      (s1.modSeq c fun q => { q with resumePending := false }).enterIdle c
    else s1
  | _ => s1

/-- A READY report is taken. -/
def State.takeReady (s : State) (c : Carriage) : State :=
  if (s.pt c).stopping then s
  else if (s.pt c).clearPending then s.clearAnswered c
  else s.unexpected c

/-- READY_REPORT (R122). -/
def execReadyReport (c : Carriage) (pos : Pos) (s : State) : Result :=
  .next ((s.recordPos c pos).takeReady c).settle

/-- The verdict on a CONTACT goes to the drive (R125). -/
def State.contactVerdict (s : State) (c : Carriage) (p : Place) (top search : Nat)
    (profile : GripProfile) (height : Nat) : State :=
  let r := s.judgeContact p height
  if r.2 then
    (r.1.send c .grip).setCurrent c (.pick p top search profile .firstGrip false)
  else (r.1.send c .abandon).setCurrent c (.pick p top search profile .abandoning false)

/-- A CONTACT report is taken: while stopping for its position alone (R129). -/
def State.takeContact (s : State) (c : Carriage) (height : Nat) : State :=
  if (s.pt c).stopping then s
  else
    match (s.pt c).current with
    | some (.pick p top search profile .descending _) =>
      s.contactVerdict c p top search profile height
    | _ => s.unexpected c

/-- CONTACT (R125). -/
def execContact (c : Carriage) (pos : Pos) (height : Nat) (s : State) : Result :=
  .next ((s.recordPos c pos).takeContact c height).settle

/-- A reading lies in the band of the profile, both limits included (R126). -/
def inBand (profile : GripProfile) (vacuum : Nat) : Bool :=
  profile.low ≤ vacuum && vacuum ≤ profile.high

/-- A GRIP READING is taken (R126). -/
def State.takeGrip (s : State) (c : Carriage) (vacuum : Nat) : State :=
  if (s.pt c).stopping then s
  else
    match (s.pt c).current with
    | some (.pick p top search profile .firstGrip _) =>
      if inBand profile vacuum then
        (s.send c .lift).setCurrent c (.pick p top search profile .lifting false)
      else (s.send c .regrip).setCurrent c (.pick p top search profile .secondGrip false)
    | some (.pick p top search profile .secondGrip _) =>
      if inBand profile vacuum then
        (s.send c .lift).setCurrent c (.pick p top search profile .lifting false)
      else
        ((s.gripFail p vacuum).send c .abandon).setCurrent c
          (.pick p top search profile .abandoning false)
    | _ => s.unexpected c

/-- GRIP_READING (R126). -/
def execGripReading (c : Carriage) (pos : Pos) (vacuum : Nat) (s : State) : Result :=
  .next ((s.recordPos c pos).takeGrip c vacuum).settle

/-! ### LIFT DONE and RELEASE DONE -/

/-- A LIFT DONE of a PICK while stopping is taken for the piece (R129). -/
def State.liftStopped (s : State) (c : Carriage) : State :=
  match (s.pt c).current with
  | some (.pick p top search profile .lifting slipped) =>
    (s.pickDone c p profile slipped).setCurrent c (.pick p top search profile .lifted slipped)
  | _ => s

/-- A LIFT DONE is taken: the completion of a PICK or of a PLACE (R127, R128). -/
def State.takeLift (s : State) (c : Carriage) (k : Continuation) : State :=
  if (s.pt c).stopping then s.liftStopped c
  else
    let comp := (s.pt c).completion k
    match (s.pt c).current with
    | some (.pick p _ _ profile .lifting slipped) =>
      ((s.completeStep c k).pickDone c p profile slipped).follow c comp
    | some (.place _ _ _ true) => ((s.completeStep c k).placeDone c).follow c comp
    | _ => s.unexpected c

/-- LIFT_DONE (R127). -/
def execLiftDone (c : Carriage) (pos : Pos) (k : Continuation) (s : State) : Result :=
  .next ((s.recordPos c pos).takeLift c k).settle

/-- The piece of a PLACE has been let go (R128, R129): it joins the record, and an infeed placement is
handed on. -/
def State.pieceReleased (s : State) (c : Carriage) (p : Place) : State :=
  match (s.sq c).load with
  | some l => (s.letGo c p l.piece).fed c p l.piece
  | none => s

/-- A RELEASE DONE while stopping: the PLACE may stand in either slot (R129). -/
def State.releaseStopped (s : State) (c : Carriage) : State :=
  match (s.pt c).current, (s.pt c).next with
  | some (.place p top floor false), _ =>
    (s.pieceReleased c p).setCurrent c (.place p top floor true)
  | _, some (.place p top floor false) =>
    (s.pieceReleased c p).modPort c fun d => { d with next := some (.place p top floor true) }
  | _, _ => s

/-- A RELEASE DONE is taken (R128). -/
def State.takeRelease (s : State) (c : Carriage) : State :=
  if (s.pt c).stopping then s.releaseStopped c
  else
    match (s.pt c).current with
    | some (.place p top floor false) =>
      (s.pieceReleased c p).setCurrent c (.place p top floor true)
    | _ => s.unexpected c

/-- RELEASE_DONE (R128). -/
def execReleaseDone (c : Carriage) (pos : Pos) (s : State) : Result :=
  .next ((s.recordPos c pos).takeRelease c).settle

/-! ### STEP DONE, HOME DONE, STOPPED -/

/-- The zone of the position is one the carriage holds: the position check (R111). -/
def State.positionOk (s : State) (c : Carriage) (p : Pos) : Bool := s.holder (s.posZone p) = some c

/-- The STEP DONE of a TRAVEL: the position check, the zones behind released, the examination, and what
comes next (R95, R111, R124). Where the check fails a next step that would be sent again moves to the
current slot and is not sent: the port sends STOP (the model's choice, log entry 47). -/
def State.travelStepDone (s : State) (c : Carriage) (p : Pos) (k : Continuation) : State :=
  let comp := (s.pt c).completion k
  let s1 := s.completeStep c k
  if s1.positionOk c p then
    ((s1.travelDone c p).examine).afterTravel c comp (s.arec c).ordered.isSome
  else s1.positionConflict c p false

/-- A STEP DONE is taken: of a TRAVEL, or after ABANDON (R124, R125); while stopping for its position
alone (R129). -/
def State.takeStepDone (s : State) (c : Carriage) (p : Pos) (k : Continuation) : State :=
  if (s.pt c).stopping then s
  else
    match (s.pt c).current with
    | some (.travel _ _ _) => s.travelStepDone c p k
    | some (.pick _ _ _ _ .abandoning _) =>
      ((s.completeStep c k).pickAbandoned c).follow c ((s.pt c).completion k)
    | _ => s.unexpected c

/-- STEP_DONE (R124). -/
def execStepDone (c : Carriage) (pos : Pos) (k : Continuation) (s : State) : Result :=
  .next ((s.recordPos c pos).takeStepDone c pos k).settle

/-- The home zone of a carriage. -/
def homeZone : Carriage → Nat
  | .A => 0
  | .B => 15

/-- The carriage becomes holder of its home zone, or of the reported zone when that is another and
keepable (R100). -/
def State.homeHolding (s : State) (c : Carriage) (p : Pos) : State :=
  let held :=
    if s.posZone p ≠ homeZone c ∧ s.keepable c (s.posZone p) = true then s.posZone p
    else homeZone c
  (s.holdAlone c held).modRec c fun r => { r with accepted := some p, zone := some held }

/-- The load is UNCERTAIN. -/
def Sequencer.loadUnsure (q : Sequencer) : Bool :=
  match q.load with
  | some l => !l.sure
  | none => false

/-- HOME DONE of a homing carriage (R100, R135). The detail of a ZONE CONFLICT raised here is the reported
zone, as at a failed position check (R111): R100 gives none and Table 9-1 says only "a zone" (the model's
reading, log entry 50). -/
def State.homed (s : State) (c : Carriage) (p : Pos) : State :=
  let astray := s.posZone p ≠ homeZone c
  let s1 := (s.modPort c fun d => { d with current := none }).homeHolding c p
  let s2 := if astray then s1.raise .zoneConflict (.carriage c) (s.posZone p) else s1
  let s3 := s2.raise .homeDone (.carriage c) p.x
  let s4 :=
    if astray ∨ (s.sq c).loadUnsure = true then s3.enterFaulted c
    else (s3.clearEvents (carriageAlarm c)).enterIdle c
  s4.requeueStarved

/-- A HOME DONE is taken; in any state but HOMING for its position alone (R135). -/
def State.takeHomeDone (s : State) (c : Carriage) (p : Pos) : State :=
  if (s.sq c).state = .homing ∧ (s.pt c).current = some .home ∧ (s.pt c).stopping = false then
    s.homed c p
  else s

/-- HOME_DONE (R135). -/
def execHomeDone (c : Carriage) (pos : Pos) (s : State) : Result :=
  .next ((s.recordPos c pos).takeHomeDone c pos).settle

/-- The STOPPED of a carriage that holds zones is taken by the position check (R111, R113). -/
def State.stoppedCheck (s : State) (c : Carriage) (p : Pos) : State :=
  if s.heldZones c = [] then s
  else if s.positionOk c p then
    (s.holdAlone c (s.posZone p)).modRec c fun r =>
      { r with accepted := some p, zone := some (s.posZone p) }
  else s.positionConflict c p true

/-- The drive has stopped (R129, R113, R22, R141): both slots emptied, the position checked, an ordered
move removed, the place claims released; a carriage left MOVING by a CELL RESET enters IDLE. -/
def State.driveStopped (s : State) (c : Carriage) (p : Pos) : State :=
  let s1 := s.modPort c fun d =>
    { d with current := none, next := none, withdrawing := false, stopping := false }
  let s2 := (s1.stoppedCheck c p).modRec c fun r => { r with ordered := none }
  let s3 := s2.releasePlaces c
  if (s3.sq c).state = .moving then s3.act c else s3

/-- A STOPPED is taken. -/
def State.takeStopped (s : State) (c : Carriage) (p : Pos) : State :=
  if (s.pt c).stopping then s.driveStopped c p else s.unexpected c

/-- STOPPED (R129). -/
def execStopped (c : Carriage) (pos : Pos) (s : State) : Result :=
  .next ((s.recordPos c pos).takeStopped c pos).settle

/-! ### VACUUM LOW and DRIVE FAULT -/

/-- A pick in the current slot is past its LIFT with no LIFT DONE taken (R130). -/
def DrivePort.pastLift (d : DrivePort) : Bool :=
  match d.current with
  | some (.pick _ _ _ _ .lifting _) => true
  | _ => false

/-- The coming load of a pick past its LIFT is noted UNCERTAIN (R130). -/
def slipStep : Step → Step
  | .pick p top search profile .lifting _ => .pick p top search profile .lifting true
  | x => x

/-- The grip loss of a load or of a pick past its LIFT (R130). -/
def State.gripLoss (s : State) (c : Carriage) (vacuum : Nat) : State :=
  let s1 := s.modSeq c fun q => { q with load := q.load.map fun l => { l with sure := false } }
  let s2 := s1.modPort c fun d => { d with current := d.current.map slipStep }
  let s3 := s2.raise .gripLoss (.carriage c) vacuum
  match (s.sq c).state with
  | .faulted => s3
  | .homing => s3.stopHoming c
  | .unreferenced => s3
  | .stopped => s3
  | _ => s3.stopAndFault c

/-- A VACUUM LOW is taken (R130). -/
def State.takeVacuumLow (s : State) (c : Carriage) (vacuum : Nat) : State :=
  if (s.sq c).load.isSome || (s.pt c).pastLift then s.gripLoss c vacuum else s.unexpected c

/-- VACUUM_LOW (R130). -/
def execVacuumLow (c : Carriage) (pos : Pos) (vacuum : Nat) (s : State) : Result :=
  .next ((s.recordPos c pos).takeVacuumLow c vacuum).settle

/-- DRIVE_FAULT (R131). -/
def execDriveFault (c : Carriage) (pos : Pos) (code : Nat) (s : State) : Result :=
  .next ((s.recordPos c pos).takeDriveFault c code).settle

end Sys2Proof.Machine
end

