-- ==== Sys2Proof/WellFormed.lean ====
section
/-! DEFINITION. Which commands are terms the outside world can send. Every command has a meaning;
an ill-formed one names an event the manual's own records cannot carry. -/

namespace Sys2Proof

/-- A reported position fits the coordinate fields of a reply (section 1.2, Table 10-8). -/
def Pos.wellFormed (p : Pos) : Bool := p.x ≤ 65535 && p.y ≤ 65535

/-- A REMNANT record has its fields in range and its size class present (R163). -/
def remnantWellFormed (material thickness : Nat) (size : Option SizeClass) : Bool :=
  1 ≤ material && material ≤ 4095 && 30 ≤ thickness && thickness ≤ 600 && size.isSome

/-- A kind byte is one of the request codes 01h to 1Fh (R182). -/
def isRequestCode (kind : Byte) : Bool := 1 ≤ kind.toNat && kind.toNat ≤ 0x1F

/-- The command is one the outside world can send: a request's body fits a frame and has the length
of its kind, a byte command carries a byte of its row, a record's fields are in range. -/
def Instr.wellFormed : Instr → Bool
  | .powerOn => true
  | .frameComplete _ => true
  | .framingError b => 240 < b.toNat
  | .frameTimeout => true
  | .frameFreed => true
  | .unknownKind kind body => !isRequestCode kind && body.length ≤ 240
  | .droppedRequest => true
  | .partStatus => true
  | .setZoneMap starts => starts.length == 16
  | .setCurtain _ _ _ => true
  | .setAccessGate _ _ _ => true
  | .setGripProfile _ _ _ _ => true
  | .setCellParameters _ _ _ => true
  | .definePlace _ _ _ _ _ _ _ _ => true
  | .sawConfig _ _ _ _ _ _ => true
  | .loadStack _ _ runs => runs.length ≤ 33
  | .addRuns _ runs => runs.length ≤ 34
  | .unloadPlace _ => true
  | .unlockPlace _ => true
  | .order _ _ _ _ _ _ _ => true
  | .cancelOrder _ => true
  | .flushOrders => true
  | .home _ => true
  | .hold _ => true
  | .release _ => true
  | .resume _ _ => true
  | .setDown _ _ => true
  | .zoneClose _ _ => true
  | .zoneOpen _ _ => true
  | .reportsOff => true
  | .reportsOn => true
  | .queryCarriage _ => true
  | .queryPlace _ => true
  | .querySaw _ => true
  | .queryOrder _ => true
  | .queryZones => true
  | .queryEventsSummary => true
  | .queryEventsList _ => true
  | .cellReset => true
  | .readyReport _ p => p.wellFormed
  | .contact _ p _ => p.wellFormed
  | .gripReading _ p _ => p.wellFormed
  | .liftDone _ p _ => p.wellFormed
  | .releaseDone _ p => p.wellFormed
  | .stepDone _ p _ => p.wellFormed
  | .homeDone _ p => p.wellFormed
  | .stopped _ p => p.wellFormed
  | .vacuumLow _ p _ => p.wellFormed
  | .driveFault _ p code => p.wellFormed && 1 ≤ code && code ≤ 255
  | .sawStatusRecord _ _ => true
  | .remnantRecord _ m t size => remnantWellFormed m t size
  | .sawLinkSilence _ => true
  | .bookTimerExpiry _ => true
  | .waitTimerExpiry _ => true
  | .readyAsserted _ => true
  | .readyDeasserted _ => true
  | .cutDone _ => true
  | .cutDoneDeasserted _ => true
  | .curtainAsserted _ => true
  | .curtainDeasserted _ => true
  | .accessRequestAsserted _ => true
  | .accessRequestDeasserted _ => true
  | .eStopAsserted => true
  | .eStopReleased => true
  | .workRequest _ => true
  | .byteReceived _ => true

end Sys2Proof
end

