-- ==== Sys2Proof/Machine/SawEvents.lean ====
section
/-! DEFINITION. The meanings of the saw links' records, the saw lines and the timers (chapters 4, 7
and 8). -/

namespace Sys2Proof.Machine

/-! ### Saw links -/

/-- A well-formed record restarts the silence timer at 2.0 s and ends a silence (R155). -/
def State.linkHeard (s : State) (w : Saw) : State :=
  s.modSaw w fun x => { x with silence := Timer.start Config.silenceMs, silent := false }

/-- The status a record carries. -/
def reportedStatus : SawReport → SawStatus
  | .auto => .auto
  | .manual => .manual

/-- A status record is taken; a change from AUTO to MANUAL takes a fallback (R155). -/
def State.takeStatus (s : State) (w : Saw) (status : SawReport) : State :=
  let s1 := (s.linkHeard w).modSaw w fun x => { x with status := reportedStatus status }
  if status = .manual ∧ s.saws[w].status = .auto then s1.takeFallback w else s1

/-- SAW_STATUS_RECORD (R155). -/
def execSawStatusRecord (w : Saw) (status : SawReport) (s : State) : Result :=
  .next (s.takeStatus w status).settle

/-- REMNANT_RECORD (R163); a record that is not well formed is discarded (R155). -/
def execRemnantRecord (w : Saw) (material thickness : Nat) (size : Option SizeClass) (s : State) :
    Result :=
  if remnantWellFormed material thickness size then
    .next ((s.linkHeard w).takeRemnant w material thickness size).settle
  else .next s

/-- The silence timer of a saw link expires (R155). -/
def State.linkSilent (s : State) (w : Saw) : State :=
  if s.saws[w].silence.running then
    let s1 := s.modSaw w fun x => { x with silence := Timer.stopped, silent := true }
    if s.saws[w].status = .auto then s1.takeFallback w else s1
  else s

/-- SAW_LINK_SILENCE (R155). -/
def execSawLinkSilence (w : Saw) (s : State) : Result := .next (s.linkSilent w).settle

/-! ### Timers -/

/-- The book timer of an infeed expires: a book release is decided (R151). -/
def State.bookTimerExpired (s : State) (w : Saw) : State :=
  if s.saws[w].bookTimer.running then
    (s.modSaw w fun x => { x with bookTimer := Timer.stopped }).decideRelease w
  else s

/-- BOOK_TIMER_EXPIRY (R151). -/
def execBookTimerExpiry (w : Saw) (s : State) : Result := .next (s.bookTimerExpired w).settle

/-- The expiry of a wait timer by the carriage's state: acted on in SAW WAIT, and in CLAIMING with the
claim withdrawn; noted during a step (R77). -/
def State.waitOver (s : State) (c : Carriage) : State :=
  match (s.sq c).state with
  | .sawWait => s.actOnExpiry c
  | .claiming => (s.withdrawClaim c).actOnExpiry c
  | .moving => s.modSeq c fun q => { q with expired := true }
  | _ => s

/-- The wait timer of a carriage expires. -/
def State.waitTimerExpired (s : State) (c : Carriage) : State :=
  if (s.sq c).wait.running then
    (s.modSeq c fun q => { q with wait := Timer.stopped }).waitOver c
  else s

/-- WAIT_TIMER_EXPIRY (R77). -/
def execWaitTimerExpiry (c : Carriage) (s : State) : Result := .next (s.waitTimerExpired c).settle

/-! ### READY and CUT DONE -/

/-- The book timer runs again from the time it kept, for a book in BOOK mode (R149). -/
def State.resumeBookTimer (s : State) (w : Saw) : State :=
  if s.saws[w].mode = .book ∧ 1 ≤ s.bookCount w ∧ 0 < s.saws[w].timeout then
    s.modSaw w fun x => { x with bookTimer := { x.bookTimer with running := true } }
  else s

/-- READY rises (R149, R154). -/
def State.readyUp (s : State) (w : Saw) : State :=
  let s1 := s.modSaw w fun x => { x with ready := true }
  if s.saws[w].state = .closed then (s1.enterOpen w).resumeBookTimer w else s1

/-- READY_ASSERTED (R149). -/
def execReadyAsserted (w : Saw) (s : State) : Result := .next (s.readyUp w).settle

/-- The panel on a BASIC infeed is released at the fall of READY (R154, R33). -/
def State.basicRelease (s : State) (w : Saw) : State :=
  (s.cutInfeed w).modSaw w fun x => { x with basicTaken := false }

/-- An OPEN infeed closes at the fall of READY (R149, R154). -/
def State.closeInfeed (s : State) (w : Saw) : State :=
  let s1 :=
    if s.saws[w].mode = .basic ∧ s.saws[w].basicTaken = true then s.basicRelease w else s
  s1.modSaw w fun x => { x.enter .closed with bookTimer := x.bookTimer.halt }

/-- READY falls (R149, R154). -/
def State.readyDown (s : State) (w : Saw) : State :=
  let s1 := s.modSaw w fun x => { x with ready := false }
  if s.saws[w].state = .opened then s1.closeInfeed w else s1

/-- READY_DEASSERTED (R149). -/
def execReadyDeasserted (w : Saw) (s : State) : Result := .next (s.readyDown w).settle

/-- The next state of an infeed once its book is cut (R153, step 4). -/
def State.afterCut (s : State) (w : Saw) : State :=
  if s.saws[w].overrun then s.enterInfeedBlocked w .overrun
  else if s.saws[w].fallbackPending then
    (s.modSaw w fun x => { x with fallbackPending := false }).fallbackEmpty w
  else s.followReady w

/-- The book under the saw is cut, its timer stopped with nothing remaining (R153). -/
def State.bookCut (s : State) (w : Saw) : State :=
  let n := s.bookCount w
  let s1 := (s.cutInfeed w).modSaw w fun x =>
    { x with cutGo := false, bookTimer := Timer.stopped }
  (s1.raise .cutReleased (.saw w) n).afterCut w

/-- CUT DONE rises (R153); in any state but CUTTING, or in BASIC mode, for its line state alone. -/
def State.cutDoneUp (s : State) (w : Saw) : State :=
  let s1 := s.modSaw w fun x => { x with cutDone := true }
  if s.saws[w].state = .cutting ∧ s.saws[w].mode = .book then s1.bookCut w else s1

/-- CUT_DONE (R153). -/
def execCutDone (w : Saw) (s : State) : Result := .next (s.cutDoneUp w).settle

/-- CUT_DONE_DEASSERTED (R153). -/
def execCutDoneDeasserted (w : Saw) (s : State) : Result :=
  .next (s.modSaw w fun x => { x with cutDone := false })

end Sys2Proof.Machine
end

