-- ==== Sys2Proof/Machine/LineEvents.lean ====
section
/-! DEFINITION. The meanings of the discrete lines, power-on and the idle request for work (chapters 3,
5 and 6). -/

namespace Sys2Proof.Machine

/-! ### Curtains -/

/-- A carriage a breach stops: MOVING and holder of a zone of the range, or HOMING when the range is
not NONE (R108). -/
def State.breached (s : State) (r : Option ZoneRange) (c : Carriage) : Bool :=
  ((s.sq c).state = .moving && (s.heldZones c).any (inOptRange r))
    || ((s.sq c).state = .homing && r.isSome)

/-- The first zone of the range that the carriage holds. -/
def State.firstHeld (s : State) (r : Option ZoneRange) (c : Carriage) : Nat :=
  ((s.heldZones c).find? (inOptRange r)).getD 0

/-- A breach stops a carriage: STOP goes to its drive in either case (R108). -/
def State.breachStop (s : State) (r : Option ZoneRange) (c : Carriage) : State :=
  if s.breached r c then
    if (s.sq c).state = .homing then s.stopHoming c
    else ((s.sendStop c).enterFaulted c).raise .zoneConflict (.carriage c) (s.firstHeld r c)
  else s

/-- The number of carriages a breach stops (R108). -/
def State.breachCount (s : State) (r : Option ZoneRange) : Nat :=
  ([Carriage.A, Carriage.B].filter (s.breached r)).length

/-- A light curtain is breached (R108). -/
def State.breach (s : State) (k : Curtain) : State :=
  let r := s.cell.curtains[k]
  let s1 := (s.addSource (.curtain k) (inOptRange r)).raise .curtainBreach (.curtain k)
    (s.breachCount r)
  (s1.breachStop r .A).breachStop r .B

/-- The level of a CURTAIN line as last taken. -/
def State.setCurtainLine (s : State) (k : Curtain) (b : Bool) : State :=
  { s with lines := { s.lines with curtain := s.lines.curtain.set k.val b } }

/-- CURTAIN k rises; a line that is up already changes nothing. -/
def State.curtainUp (s : State) (k : Curtain) : State :=
  if s.lines.curtain[k] then s else (s.setCurtainLine k true).breach k

/-- CURTAIN_ASSERTED (R108). -/
def execCurtainAsserted (k : Curtain) (s : State) : Result := .next (s.curtainUp k).settle

/-- CURTAIN k falls (R110, R173). -/
def State.curtainDown (s : State) (k : Curtain) : State :=
  if s.lines.curtain[k] then
    (((s.setCurtainLine k false).removeSource (.curtain k) fun _ => true).clearEvents
      (sameEvent .curtainBreach (.curtain k))).dueExam
  else s

/-- CURTAIN_DEASSERTED (R110). -/
def execCurtainDeasserted (k : Curtain) (s : State) : Result := .next (s.curtainDown k).settle

/-! ### Access gates -/

/-- The level of an ACCESS REQUEST line as last taken. -/
def State.setAccessLine (s : State) (g : Gate) (b : Bool) : State :=
  { s with lines := { s.lines with access := s.lines.access.set g.val b } }

/-- A gate's closing becomes AWAITING with the range of the Cell Map, and is judged at once (R104). -/
def State.requestAccess (s : State) (g : Gate) : State :=
  (s.modGate g fun x => ⟨.awaiting s.cell.gates[g], false, x.grant⟩).dueExam

/-- ACCESS REQUEST g rises; a line that is up already changes nothing (R104). -/
def State.accessUp (s : State) (g : Gate) : State :=
  if s.lines.access[g] then s else (s.setAccessLine g true).requestAccess g

/-- ACCESS_REQUEST_ASSERTED (R104). -/
def execAccessRequestAsserted (g : Gate) (s : State) : Result := .next (s.accessUp g).settle

/-- ACCESS REQUEST g falls (R107). -/
def State.accessDown (s : State) (g : Gate) : State :=
  if s.lines.access[g] then
    (((s.setAccessLine g false).modGate g fun _ => ⟨.off, false, false⟩).removeSource (.gate g)
      fun _ => true).dueExam
  else s

/-- ACCESS_REQUEST_DEASSERTED (R107). -/
def execAccessRequestDeasserted (g : Gate) (s : State) : Result := .next (s.accessDown g).settle

/-! ### E-STOP -/

/-- STOP goes to the drive at an E-STOP, also while the port is stopping, unless the carriage is
UNREFERENCED with no step in flight; then the enable is withdrawn (R139, R122). -/
def State.disable (s : State) (c : Carriage) : State :=
  let idle := (s.sq c).state = .unreferenced ∧ (s.pt c).current = none ∧ (s.pt c).next = none
  (if idle then s else s.sendStop c).modPort c fun d =>
    { d with link := .disabled, clearPending := false }

/-- E-STOP on a carriage (R139, R115). -/
def State.eStopCarriage (s : State) (c : Carriage) : State :=
  let s1 := ((s.disable c).handBack c).modSeq c fun q => { q.cleared with resumePending := false }
  let s2 := s1.releaseUnlessStopping c
  let s3 := (s2.withdrawClaim c).modRec c fun r => { r with ordered := none }
  (s3.setCarState c .stopped).giveUpZones c

/-- No work notice is pending (Table 3-4). -/
def State.dropAsk (s : State) (c : Carriage) : State := s.modSeq c fun q => { q with ask := false }

/-- The E-STOP line is asserted (R139). -/
def State.eStopOn (s : State) : State :=
  let s1 := (s.eStopCarriage .A).eStopCarriage .B
  ((s1.dropAsk .A).dropAsk .B).raise .eStop .cell 0

/-- The level of the E-STOP line as last taken. -/
def State.setEStopLine (s : State) (b : Bool) : State :=
  { s with lines := { s.lines with eStop := b } }

/-- E-STOP rises; a line that is up already changes nothing. -/
def State.eStopUp (s : State) : State :=
  if s.lines.eStop then s else (s.setEStopLine true).eStopOn

/-- E_STOP_ASSERTED (R139). -/
def execEStopAsserted (s : State) : Result := .next s.eStopUp.settle

/-- The enable is given again and the carriage is UNREFERENCED (R140, R122). Where the release comes
before the STOPPED, the step slots stay marked stopped and the port stays stopping until it takes STOPPED
(R129), although Table 6-6 has the slots empty at the release (the model's choice, log entry 51). -/
def State.enable (s : State) (c : Carriage) : State :=
  (s.modPort c fun d => { d with link := .notReady }).setCarState c .unreferenced

/-- E-STOP falls (R140, R173). -/
def State.eStopDown (s : State) : State :=
  if s.lines.eStop then
    ((((s.setEStopLine false).enable .A).enable .B).clearEvents (sameEvent .eStop .cell)).dueExam
  else s

/-- E_STOP_RELEASED (R140). -/
def execEStopReleased (s : State) : Result := .next s.eStopDown.settle

/-! ### Power-on -/

/-- The curtain line, if it is asserted at power-on, is taken as asserted just after it (R114). -/
def State.retakeCurtain (s : State) (k : Curtain) : State :=
  if s.lines.curtain[k] then s.breach k else s

/-- The access line, if it is asserted at power-on, is taken as asserted just after it (R114). -/
def State.retakeAccess (s : State) (g : Gate) : State :=
  if s.lines.access[g] then s.requestAccess g else s

/-- The part after power-on: every block at its initial values; the queue of commands and the levels of
the outside lines are not the part's to change, and an asserted line is taken just after (R1, R16, R63,
R114, R142, R144, R161, R169, R178). -/
def State.powerOn (s : State) : State :=
  let s1 := { State.reset with pending := s.pending, lines := s.lines, free := s.free }
  let s2 := (List.finRange 4).foldl (fun t k => t.retakeCurtain k) s1
  let s3 := (List.finRange 2).foldl (fun t g => t.retakeAccess g) s2
  if s.lines.eStop then s3.eStopOn else s3

/-- POWER_ON (R142). -/
def execPowerOn (s : State) : Result := .next s.powerOn.settle

/-! ### The idle request for work -/

/-- The sequencer may ask: IDLE, with no load and no current work (R47, R67). -/
def Sequencer.mayAsk (q : Sequencer) : Bool :=
  q.state = .idle && q.load.isNone && q.work.isNone

/-- An IDLE sequencer asks for work with no bound, and begins what is offered (R47, R48, R50). -/
def State.askForWork (s : State) (c : Carriage) : State :=
  let r := (s.dropAsk c).request c none
  match r.2 with
  | some cand => (r.1.takeOffer c cand).proceed c
  | none => r.1

/-- WORK_REQUEST (R48); a busy sequencer takes no action on its work notice (R47). -/
def execWorkRequest (c : Carriage) (s : State) : Result :=
  if (s.sq c).mayAsk then .next (s.askForWork c).settle else .next (s.dropAsk c)

end Sys2Proof.Machine
end

