-- ==== Sys2Proof/Machine/Dispatch.lean ====
section
/-! DEFINITION. The meaning of each command: one arm per row of the opcode table. -/

namespace Sys2Proof.Machine

def exec (i : Instr) (s : State) : Host.Outcome State Fault Refusal :=
  match i with
  | .powerOn => Sys2Proof.Machine.execPowerOn s
  | .frameComplete byte => Sys2Proof.Machine.execFrameComplete byte s
  | .framingError byte => Sys2Proof.Machine.execFramingError byte s
  | .frameTimeout => Sys2Proof.Machine.execFrameTimeout s
  | .frameFreed => Sys2Proof.Machine.execFrameFreed s
  | .unknownKind kind body => Sys2Proof.Machine.execUnknownKind kind body s
  | .droppedRequest => Sys2Proof.Machine.execDroppedRequest s
  | .partStatus => Sys2Proof.Machine.execPartStatus s
  | .setZoneMap starts => Sys2Proof.Machine.execSetZoneMap starts s
  | .setCurtain curtain first last => Sys2Proof.Machine.execSetCurtain curtain first last s
  | .setAccessGate gate first last => Sys2Proof.Machine.execSetAccessGate gate first last s
  | .setGripProfile profile low high floor => Sys2Proof.Machine.execSetGripProfile profile low high floor s
  | .setCellParameters tolerance digLimit trigger => Sys2Proof.Machine.execSetCellParameters tolerance digLimit trigger s
  | .definePlace place kind x y base limit height saw => Sys2Proof.Machine.execDefinePlace place kind x y base limit height saw s
  | .sawConfig saw mode threshold timeout wait lock => Sys2Proof.Machine.execSawConfig saw mode threshold timeout wait lock s
  | .loadStack place hold runs => Sys2Proof.Machine.execLoadStack place hold runs s
  | .addRuns place runs => Sys2Proof.Machine.execAddRuns place runs s
  | .unloadPlace place => Sys2Proof.Machine.execUnloadPlace place s
  | .unlockPlace place => Sys2Proof.Machine.execUnlockPlace place s
  | .order number saw material thickness cls quantity divert => Sys2Proof.Machine.execOrder number saw material thickness cls quantity divert s
  | .cancelOrder number => Sys2Proof.Machine.execCancelOrder number s
  | .flushOrders => Sys2Proof.Machine.execFlushOrders s
  | .home carriage => Sys2Proof.Machine.execHome carriage s
  | .hold carriage => Sys2Proof.Machine.execHold carriage s
  | .release carriage => Sys2Proof.Machine.execRelease carriage s
  | .resume carriage disposition => Sys2Proof.Machine.execResume carriage disposition s
  | .setDown carriage place => Sys2Proof.Machine.execSetDown carriage place s
  | .zoneClose first last => Sys2Proof.Machine.execZoneClose first last s
  | .zoneOpen first last => Sys2Proof.Machine.execZoneOpen first last s
  | .reportsOff => Sys2Proof.Machine.execReportsOff s
  | .reportsOn => Sys2Proof.Machine.execReportsOn s
  | .queryCarriage carriage => Sys2Proof.Machine.execQueryCarriage carriage s
  | .queryPlace place => Sys2Proof.Machine.execQueryPlace place s
  | .querySaw saw => Sys2Proof.Machine.execQuerySaw saw s
  | .queryOrder number => Sys2Proof.Machine.execQueryOrder number s
  | .queryZones => Sys2Proof.Machine.execQueryZones s
  | .queryEventsSummary => Sys2Proof.Machine.execQueryEventsSummary s
  | .queryEventsList start => Sys2Proof.Machine.execQueryEventsList start s
  | .cellReset => Sys2Proof.Machine.execCellReset s
  | .readyReport c pos => Sys2Proof.Machine.execReadyReport c pos s
  | .contact c pos height => Sys2Proof.Machine.execContact c pos height s
  | .gripReading c pos vacuum => Sys2Proof.Machine.execGripReading c pos vacuum s
  | .liftDone c pos cont => Sys2Proof.Machine.execLiftDone c pos cont s
  | .releaseDone c pos => Sys2Proof.Machine.execReleaseDone c pos s
  | .stepDone c pos cont => Sys2Proof.Machine.execStepDone c pos cont s
  | .homeDone c pos => Sys2Proof.Machine.execHomeDone c pos s
  | .stopped c pos => Sys2Proof.Machine.execStopped c pos s
  | .vacuumLow c pos vacuum => Sys2Proof.Machine.execVacuumLow c pos vacuum s
  | .driveFault c pos code => Sys2Proof.Machine.execDriveFault c pos code s
  | .sawStatusRecord saw status => Sys2Proof.Machine.execSawStatusRecord saw status s
  | .remnantRecord saw material thickness size => Sys2Proof.Machine.execRemnantRecord saw material thickness size s
  | .sawLinkSilence saw => Sys2Proof.Machine.execSawLinkSilence saw s
  | .bookTimerExpiry saw => Sys2Proof.Machine.execBookTimerExpiry saw s
  | .waitTimerExpiry c => Sys2Proof.Machine.execWaitTimerExpiry c s
  | .readyAsserted saw => Sys2Proof.Machine.execReadyAsserted saw s
  | .readyDeasserted saw => Sys2Proof.Machine.execReadyDeasserted saw s
  | .cutDone saw => Sys2Proof.Machine.execCutDone saw s
  | .cutDoneDeasserted saw => Sys2Proof.Machine.execCutDoneDeasserted saw s
  | .curtainAsserted k => Sys2Proof.Machine.execCurtainAsserted k s
  | .curtainDeasserted k => Sys2Proof.Machine.execCurtainDeasserted k s
  | .accessRequestAsserted g => Sys2Proof.Machine.execAccessRequestAsserted g s
  | .accessRequestDeasserted g => Sys2Proof.Machine.execAccessRequestDeasserted g s
  | .eStopAsserted => Sys2Proof.Machine.execEStopAsserted s
  | .eStopReleased => Sys2Proof.Machine.execEStopReleased s
  | .workRequest c => Sys2Proof.Machine.execWorkRequest c s
  | .byteReceived byte => Sys2Proof.Machine.execByteReceived byte s

end Sys2Proof.Machine
end

