-- ==== Sys2Proof/Machine/Step.lean ====
section
/-! DEFINITION. The step of the part: the command at the front of the queue, or one ms of waiting. -/

namespace Sys2Proof.Machine

/-- The command at the front of the queue is taken with the rest left in the queue; on an empty queue
one ms passes for the timers. -/
def step (s : State) : Host.Outcome State Fault Refusal :=
  match s.pending with
  | [] => .next s.tick
  | c :: rest => exec c { s with pending := rest }

/-- The state with the command a word spells at the front of the queue. -/
def State.withFetchWord (s : State) (nbits w : Nat) : State :=
  match decodeTableWord nbits w with
  | some c => { s with pending := c :: s.pending }
  | none => s

end Sys2Proof.Machine
end

