-- ==== Sys2Proof/Safety.lean ====
section
/-! DEFINITION. The predicates the statements are written with: the row a request is, when the part
takes a request at once, when no notice of a step leads further, and the invariant of the records. -/

namespace Sys2Proof

/-- The row of the opcode table that a request is. -/
def Request.command : Request → Instr
  | .partStatus => .partStatus
  | .setZoneMap starts => .setZoneMap starts
  | .setCurtain k f l => .setCurtain k f l
  | .setAccessGate g f l => .setAccessGate g f l
  | .setGripProfile p lo hi fl => .setGripProfile p lo hi fl
  | .setCellParameters t d r => .setCellParameters t d r
  | .definePlace p k x y b n h w => .definePlace p k x y b n h w
  | .sawConfig w m n t l k => .sawConfig w m n t l k
  | .loadStack p h runs => .loadStack p h runs
  | .addRuns p runs => .addRuns p runs
  | .unloadPlace p => .unloadPlace p
  | .unlockPlace p => .unlockPlace p
  | .order n w m t c q d => .order n w m t c q d
  | .cancelOrder n => .cancelOrder n
  | .flushOrders => .flushOrders
  | .home c => .home c
  | .hold c => .hold c
  | .release c => .release c
  | .resume c d => .resume c d
  | .setDown c p => .setDown c p
  | .zoneClose f l => .zoneClose f l
  | .zoneOpen f l => .zoneOpen f l
  | .reportsOff => .reportsOff
  | .reportsOn => .reportsOn
  | .queryCarriage c => .queryCarriage c
  | .queryPlace p => .queryPlace p
  | .querySaw w => .querySaw w
  | .queryOrder n => .queryOrder n
  | .queryZones => .queryZones
  | .queryEventsSummary => .queryEventsSummary
  | .queryEventsList n => .queryEventsList n
  | .cellReset => .cellReset

/-- The request's body is one its kind can carry: 16 starts, and a run count of 1 to 8 (Table 10-2). -/
def Request.sendable : Request → Bool
  | .setZoneMap starts => starts.length = 16
  | .loadStack _ _ runs => 1 ≤ runs.length && runs.length ≤ 8
  | .addRuns _ runs => 1 ≤ runs.length && runs.length ≤ 8
  | _ => true

namespace Machine

/-! ### When the part takes a request at once -/

/-- No notice of an earlier step is left over. -/
def State.rested (s : State) : Bool := s.todo = Todo.none

/-- No refusal is owed, no request waits and a frame is free: a request that arrives is taken at once
(R180, R182). -/
def State.takesAtOnce (s : State) : Bool :=
  s.rested && s.link.waiting.isEmpty && s.link.owedBad = 0 && s.link.owedBusy = 0
    && s.link.outbound.length < Config.maxFrames

/-- A gate's closing record is AWAITING. -/
def GateRec.isAwaiting (g : GateRec) : Bool :=
  match g.state with
  | .awaiting _ => true
  | _ => false

/-- The arbiter has nothing to decide: no waiting claim and no AWAITING closing. -/
def State.noClaims (s : State) : Bool :=
  s.arb.waiting.isEmpty && !s.arb.gates[(0 : Gate)].isAwaiting
    && !s.arb.gates[(1 : Gate)].isAwaiting && s.arb.host.awaiting.isNone

/-- The carriage is neither BLOCKED nor in SAW WAIT nor HELD: no notice is for it (R76, R88, R136). -/
def CarState.unmoved : CarState → Bool
  | .blocked => false
  | .sawWait => false
  | .held => false
  | _ => true

/-- Neither carriage takes a notice of a release, a content change or an opening. -/
def State.noChoosers (s : State) : Bool := (s.sq .A).state.unmoved && (s.sq .B).state.unmoved

/-- Nothing waits on anything: a change leads to no further move of a carriage. -/
def State.quiet (s : State) : Bool := s.rested && s.noClaims && s.noChoosers

/-- The part takes a request at once, and the request leads to no move of a carriage. -/
def State.atEase (s : State) : Bool := s.takesAtOnce && s.noClaims && s.noChoosers

/-- The reply to a request of this kind is queued. -/
def State.answered (s : State) (kind : Byte) (r : Reply) : State := s.queueFrame (r.frame kind)

/-- The state in which a request's owner finds the part: the request is the only one waiting (R182). -/
def State.withRequest (s : State) (r : Request) : State :=
  s.modLink fun l => { l with waiting := [⟨Request.kind r, Request.body r, false⟩] }

/-! ### The invariant -/

/-- The outbound queue holds at most 8 frames, the waiting list at most 2 requests, and the counts hold
at their maxima (R180, R181, R183, R184). -/
def HostLink.ok (l : HostLink) : Bool :=
  l.outbound.length ≤ Config.maxFrames && l.waiting.length ≤ Config.maxWaiting
    && l.owedBad ≤ Config.maxSmall && l.owedBusy ≤ Config.maxSmall
    && l.framingErrors ≤ Config.maxLinkCount && l.frameTimeouts ≤ Config.maxLinkCount
    && l.badChecks ≤ Config.maxLinkCount && l.overruns ≤ Config.maxLinkCount

/-- The source is of the type that the kind of event has (Table 9-1). -/
def sourceFits : EventKind → EventSource → Bool
  | .eStop, .cell => true
  | .curtainBreach, .curtain _ => true
  | .zoneConflict, .carriage _ => true
  | .gripLoss, .carriage _ => true
  | .driveFault, .carriage _ => true
  | .gripFail, .place _ => true
  | .stackMismatch, .place _ => true
  | .stackOverflow, .place _ => true
  | .infeedTimeout, .saw _ => true
  | .sawFallback, .saw _ => true
  | .returnOverrun, .saw _ => true
  | .claimStall, .carriage _ => true
  | .bufferFull, .carriage _ => true
  | .noStock, .order _ => true
  | .linkOverrun, .hostLink => true
  | .orderDone, .order _ => true
  | .cutReleased, .saw _ => true
  | .homeDone, .carriage _ => true
  | .zoneClosed, .gate _ => true
  | .zoneClosed, .host => true
  | .stackEmpty, .place _ => true
  | _, _ => false

/-- At most 96 entries, at most one for each kind and source, each with a source that fits its kind, so
that no more than 11 of them are alarms; repeat counts and the displaced count at most 255 (R169). -/
def EventUnit.ok (u : EventUnit) : Bool :=
  u.entries.length ≤ Config.maxEvents && (u.entries.map fun e => (e.kind, e.source)).Nodup
    && (u.entries.all fun e => e.repeats ≤ Config.maxSmall && sourceFits e.kind e.source)
    && u.displaced ≤ Config.maxSmall

/-- An order has pieces remaining, and its placed and remaining pieces make up its quantity (R55). -/
def OrderEntry.ok (e : OrderEntry) : Bool :=
  1 ≤ e.number && 1 ≤ e.remaining && e.placed + e.remaining = e.quantity && e.quantity ≤ 999

/-- At most 32 entries, no two with one number (R43). -/
def OrderQueue.ok (q : OrderQueue) : Bool :=
  q.entries.length ≤ Config.maxOrders && (q.entries.map (·.number)).Nodup
    && q.entries.all (·.ok)

/-- The inventory counters hold at their maximum (R38). -/
def Counters.ok (k : Counters) : Bool :=
  k.loaded ≤ Config.maxCounter && k.returned ≤ Config.maxCounter && k.cut ≤ Config.maxCounter
    && k.unloaded ≤ Config.maxCounter && k.lost ≤ Config.maxCounter

/-- CUT GO only in CUTTING, the settings in their ranges, the overrun count at most 255, the last fed
list at most 8 entries long (R144, R151, R161, R162). -/
def SawStation.ok (x : SawStation) : Bool :=
  (!x.cutGo || x.state = .cutting) && 1 ≤ x.threshold && x.threshold ≤ 8 && x.timeout ≤ 300
    && 5 ≤ x.waitLimit && x.waitLimit ≤ 600 && x.overrunCount ≤ Config.maxSmall
    && x.lastFed.length ≤ 8

/-- The vacuum values of a profile rise from floor to high and stay within 95 kPa (R12). -/
def GripProfile.ok (p : GripProfile) : Bool := p.floor ≤ p.low && p.low ≤ p.high && p.high ≤ 95

/-- The zone starts rise from 0, the profiles are in order, the parameters are in range (Table 1-1). -/
def CellMap.ok (m : CellMap) : Bool :=
  m.starts[(0 : Zone)] = 0
    && ((List.finRange 15).all fun k => m.starts[k.castSucc] < m.starts[k.succ])
    && ((List.finRange 8).all fun p => m.profiles[p].ok)
    && 5 ≤ m.tolerance && m.tolerance ≤ 50 && m.digLimit ≤ 120
    && 1 ≤ m.trigger && m.trigger ≤ 4

/-- Every saw station's record is in order. -/
def sawsOk (v : Vector SawStation 4) : Bool := (List.finRange 4).all fun w => v[w].ok

/-- A stack record exists for exactly the places that are not UNUSED (R5, R16). -/
def recordsOk (m : CellMap) (v : Vector (Option StackRec) 32) : Bool :=
  (List.finRange 32).all fun p => v[p].isSome = (m.places[p].kind ≠ .unused)

/-- The invariant of the records, which every step keeps. -/
def Inv (s : State) : Prop :=
  s.link.ok = true ∧ s.events.ok = true ∧ s.queue.ok = true ∧ s.counters.ok = true
    ∧ sawsOk s.saws = true ∧ s.cell.ok = true ∧ recordsOk s.cell s.stackRecs = true

end Machine

end Sys2Proof
end

