-- ==== Sys2Proof/Certificates/Slice0/Obligations.lean ====
section
/-! DEFINITION. The statements for the provers. -/

open Sys2Proof Sys2Proof.Machine

/-! ### The step -/

/-- One millisecond passes for a timer that runs. -/
def oneMs (x : Timer) : Timer := if x.running then ⟨true, x.ms - 1⟩ else x

/-- Step of a state with a command at the front of its queue is that command on the queue's rest. On an
empty queue one millisecond passes for every timer that runs, the gap timer, the wait timers, the book
timers and the silence timers, and nothing else changes: the model's choice, log entry 2. -/
def Obligations.StepRunsFrontCommand : Prop :=
  (∀ (c : Instr) (s : State), step { s with pending := c :: s.pending } = exec c s)
    ∧ ∀ s : State, s.pending = [] → step s = .next { s with
        link := { s.link with gap := oneMs s.link.gap }
        seq := ⟨{ s.seq.a with wait := oneMs s.seq.a.wait },
          { s.seq.b with wait := oneMs s.seq.b.wait }⟩
        saws := s.saws.map fun x => { x with
          bookTimer := oneMs x.bookTimer, silence := oneMs x.silence } }

/-- Every command answers a next state and leaves the waiting commands alone. -/
def Obligations.EveryCommandCompletes : Prop :=
  ∀ (c : Instr) (s : State), ∃ t, exec c s = .next t ∧ t.pending = s.pending

/-! ### The receiver -/

/-- BYTE_RECEIVED that does not complete a frame: the receiver's table, the gap timer started or
restarted at 50 ms, everything else unchanged (R178, R179). -/
def Obligations.ReceiverTakesByte : Prop :=
  ∀ (s : State) (b : Byte),
    let go : Receiver → Host.Outcome State Fault Refusal := fun r =>
      .next (s.modLink fun l => { l with rx := r, gap := ⟨true, 50⟩ })
    (s.link.rx = .hunt → b = 0xC3 → exec (.byteReceived b) s = go .length)
      ∧ (s.link.rx = .hunt → b ≠ 0xC3 → exec (.byteReceived b) s = .next s)
      ∧ (s.link.rx = .length → b.toNat ≤ 240 → exec (.byteReceived b) s = go (.kind b))
      ∧ (s.link.rx = .length → 240 < b.toNat → exec (.byteReceived b) s = exec (.framingError b) s)
      ∧ (∀ n, s.link.rx = .kind n → 0 < n.toNat → exec (.byteReceived b) s = go (.body n b []))
      ∧ (s.link.rx = .kind 0 → exec (.byteReceived b) s = go (.check 0 b [] none))
      ∧ (∀ n k kept, s.link.rx = .body n k kept → kept.length + 1 < n.toNat →
          exec (.byteReceived b) s = go (.body n k (kept ++ [b])))
      ∧ (∀ n k kept, s.link.rx = .body n k kept → kept.length + 1 = n.toNat →
          exec (.byteReceived b) s = go (.check n k (kept ++ [b]) none))
      ∧ (∀ n k body, s.link.rx = .check n k body none →
          exec (.byteReceived b) s = go (.check n k body (some b)))
      ∧ (∀ n k body lo, s.link.rx = .check n k body (some lo) →
          exec (.byteReceived b) s = exec (.frameComplete b) s)

/-- FRAMING_ERROR and FRAME_TIMEOUT (R178, R179, R184): a byte above 240 in LENGTH counts a framing error,
the gap timer outside HUNT a frame timeout; the receiver is in HUNT, the counts hold at 65535 and nothing is
answered. In HUNT a FRAME_TIMEOUT changes nothing. That FRAME_TIMEOUT acts outside HUNT whatever time
remains, and does nothing in HUNT, is the model's choice, log entry 3. -/
def Obligations.BrokenFramesCounted : Prop :=
  (∀ (s : State) (b : Byte), s.link.rx = .length → 240 < b.toNat →
      exec (.framingError b) s = .next (s.modLink fun l =>
        { l with
          rx := .hunt
          gap := ⟨false, l.gap.ms⟩
          framingErrors := min (l.framingErrors + 1) 65535 }))
    ∧ (∀ s : State,
      (s.link.rx ≠ .hunt →
        exec .frameTimeout s = .next (s.modLink fun l =>
          { l with
            rx := .hunt
            gap := ⟨false, l.gap.ms⟩
            frameTimeouts := min (l.frameTimeouts + 1) 65535 }))
        ∧ (s.link.rx = .hunt → exec .frameTimeout s = .next s))

/-- The check of a frame: the sum of length, kind and body modulo 65536, low byte first. -/
def frameSum (n k : Byte) (body : List Byte) : Nat :=
  (n.toNat + k.toNat + (body.map (·.toNat)).sum) % 65536

/-- FRAME_COMPLETE of a frame whose check fails, or that finds two requests waiting, or that must wait:
R180 and R181, with the receiver back in HUNT. -/
def Obligations.FrameCompleteJudged : Prop :=
  ∀ (s : State) (n k lo b : Byte) (body : List Byte), s.link.rx = .check n k body (some lo) →
    let l := s.link
    let done : HostLink := { l with rx := .hunt, gap := ⟨false, l.gap.ms⟩ }
    let room := l.owedBad = 0 ∧ l.owedBusy = 0 ∧ l.outbound.length < 8
    let good := lo.toNat + 256 * b.toNat = frameSum n k body
    (¬good → room →
      exec (.frameComplete b) s = .next { s with
        link := { done with
          badChecks := min (l.badChecks + 1) 65535
          outbound := l.outbound ++ [⟨0x81, [k, 0, 1]⟩] } })
      ∧ (¬good → ¬room →
          exec (.frameComplete b) s = .next { s with
            link := { done with
              badChecks := min (l.badChecks + 1) 65535
              owedBad := min (l.owedBad + 1) 255
              owedBadKind := k } })
      ∧ (good → l.waiting.length < 2 → ¬room →
          exec (.frameComplete b) s = .next { s with
            link := { done with waiting := l.waiting ++ [⟨k, body, false⟩] } })
      ∧ (good → 2 ≤ l.waiting.length → room →
          exec (.frameComplete b) s = .next (({ s with
            link := { done with
              overruns := min (l.overruns + 1) 65535
              outbound := l.outbound ++ [⟨0x81, [k, 4, 1]⟩] } } : State).raise
                .linkOverrun .hostLink k.toNat))
      ∧ (good → 2 ≤ l.waiting.length → ¬room →
          exec (.frameComplete b) s = .next (({ s with
            link := { done with
              overruns := min (l.overruns + 1) 65535
              owedBusy := min (l.owedBusy + 1) 255
              owedBusyKind := k } } : State).raise .linkOverrun .hostLink k.toNat))

/-- FRAME_COMPLETE of a good frame that carries a request has the effect of the request's row, with the
receiver back in HUNT and the gap timer stopped (R178, R180). -/
def Obligations.FrameCompleteIsRequest : Prop :=
  ∀ (s : State) (r : Request) (n lo b : Byte),
    s.link.rx = .check n (Request.kind r) (Request.body r) (some lo) →
    lo.toNat + 256 * b.toNat = frameSum n (Request.kind r) (Request.body r) →
    exec (.frameComplete b) s
      = exec r.command (s.modLink fun l => { l with rx := .hunt, gap := ⟨false, l.gap.ms⟩ })

/-- The bytes of a frame, start byte to check (Table 10-1). -/
def frameBytes (kind : Byte) (body : List Byte) : List Byte :=
  let sum := frameSum (BitVec.ofNat 8 body.length) kind body
  [0xC3, BitVec.ofNat 8 body.length, kind] ++ body
    ++ [BitVec.ofNat 8 sum, BitVec.ofNat 8 (sum / 256)]

/-- The bytes are received one after another. -/
def receiveAll : List Byte → State → Host.Outcome State Fault Refusal
  | [], s => .next s
  | b :: rest, s =>
    match exec (.byteReceived b) s with
    | .next t => receiveAll rest t
    | o => o

/-- A request's frame received byte by byte from HUNT has the effect of the request's row: no byte of the
frame is dropped or misread by the receiver (R178, R180, Table 10-1). -/
def Obligations.FrameBytesAreRequest : Prop :=
  ∀ (s : State) (r : Request), r.sendable = true → s.link.rx = .hunt →
    receiveAll (frameBytes (Request.kind r) (Request.body r)) s
      = exec r.command (s.modLink fun l => { l with gap := ⟨false, 50⟩ })

/-- The body of every request reads back as the request, with every field at every value: the layout of
Tables 10-2, 10-5 and 10-6 and R186 loses no bit. -/
def Obligations.BodyReadsBack : Prop :=
  ∀ r : Request, r.sendable = true → parseRequest (Request.kind r) (Request.body r) = .request r

/-- FRAME_FREED: the first frame leaves; owed refusals are served before anything else, BAD FRAME before
BUSY, one frame each, carrying the count; a request waits while one is owed; with none owed the oldest
waiting request is taken, the only one as if it came now, and of two with one frame free the second waits
on; then the Event Unit sends (R181, R182, R183). -/
def Obligations.FrameFreedServes : Prop :=
  ∀ (s : State) (f : Frame) (rest : List Frame), s.link.outbound = f :: rest → rest.length < 8 →
    s.link.owedBad ≤ 255 → s.link.owedBusy ≤ 255 →
    let l := s.link
    let bad : Frame := ⟨0x81, [l.owedBadKind, 0, BitVec.ofNat 8 l.owedBad]⟩
    let busy : Frame := ⟨0x81, [l.owedBusyKind, 4, BitVec.ofNat 8 l.owedBusy]⟩
    (l.owedBad = 0 → l.owedBusy = 0 → l.waiting = [] →
      exec .frameFreed s = .next ({ s with link := { l with outbound := rest } } : State).sendReports)
      ∧ (0 < l.owedBad → 0 < l.owedBusy → rest.length = 7 →
          exec .frameFreed s = .next { s with
            link := { l with outbound := rest ++ [bad], owedBad := 0 } })
      ∧ (0 < l.owedBad → 0 < l.owedBusy → rest.length < 7 → l.waiting = [] →
          exec .frameFreed s = .next ({ s with
            link := { l with
              outbound := rest ++ [bad, busy], owedBad := 0, owedBusy := 0 } } : State).sendReports)
      ∧ (0 < l.owedBad → l.owedBusy = 0 → l.waiting = [] →
          exec .frameFreed s = .next ({ s with
            link := { l with outbound := rest ++ [bad], owedBad := 0 } } : State).sendReports)
      ∧ (l.owedBad = 0 → 0 < l.owedBusy → l.waiting = [] →
          exec .frameFreed s = .next ({ s with
            link := { l with outbound := rest ++ [busy], owedBusy := 0 } } : State).sendReports)
      ∧ (∀ r : Request, l.owedBad = 0 → l.owedBusy = 0 →
          l.waiting = [⟨Request.kind r, Request.body r, false⟩] →
          ∃ t, exec r.command { s with link := { l with outbound := rest, waiting := [] } } = .next t
            ∧ exec .frameFreed s = .next t.sendReports)
      ∧ (∀ r1 r2 : WaitingRequest, l.owedBad = 0 → l.owedBusy = 0 → l.waiting = [r1, r2] →
          rest.length = 7 →
          ∃ t, exec .frameFreed s = .next t
            ∧ (∃ f, t.link.outbound = rest ++ [f] ∧ (f.kind = 0x80 ∨ f.kind = 0x81)
                ∧ f.body.head? = some r1.kind)
            ∧ t.link.waiting.map (fun r => (r.kind, r.body)) = [(r2.kind, r2.body)])

/-- The body lengths of the request codes 01h to 1Fh that have one length (Table 10-2). -/
def bodyLengths : List (Option Nat) :=
  [some 0, some 32, some 3, some 3, some 4, some 3, some 12, some 8, none, none, some 1, some 1,
    some 11, some 2, some 0, some 1, some 1, some 1, some 2, some 2, some 2, some 2, some 0, some 0,
    some 1, some 1, some 1, some 2, some 0, none, some 0]

/-- A body that has not the length of its kind, which for LOAD STACK, ADD RUNS and QUERY EVENTS follows a
count or form byte in range (R182, Table 10-2). -/
def wrongLength (kind : Byte) (body : List Byte) : Prop :=
  (∃ n, 1 ≤ kind.toNat ∧ bodyLengths[kind.toNat - 1]? = some (some n) ∧ body.length ≠ n)
    ∨ (kind = 0x09 ∧ (body.length < 3
        ∨ ∃ n, body[2]? = some n ∧ 1 ≤ n.toNat ∧ n.toNat ≤ 8 ∧ body.length ≠ 3 + 7 * n.toNat))
    ∨ (kind = 0x0A ∧ (body.length < 2
        ∨ ∃ n, body[1]? = some n ∧ 1 ≤ n.toNat ∧ n.toNat ≤ 8 ∧ body.length ≠ 2 + 7 * n.toNat))
    ∨ (kind = 0x1E ∧ (body = [] ∨ (body[0]? = some 0 ∧ body.length ≠ 1)
        ∨ (body[0]? = some 1 ∧ body.length ≠ 5)))

/-- The count or form byte of a body, which is field `i` of its request, is out of range (R182). -/
def badCount (kind : Byte) (body : List Byte) (i : Byte) : Prop :=
  (kind = 0x09 ∧ i = 3 ∧ ∃ n, body[2]? = some n ∧ (n = 0 ∨ 8 < n.toNat))
    ∨ (kind = 0x0A ∧ i = 2 ∧ ∃ n, body[1]? = some n ∧ (n = 0 ∨ 8 < n.toNat))
    ∨ (kind = 0x1E ∧ i = 1 ∧ ∃ n, body[0]? = some n ∧ 1 < n.toNat)

/-- UNKNOWN_KIND and DROPPED_REQUEST (R182, R187, Table 10-3): a good frame whose kind byte is no request code is
refused UNKNOWN KIND with index 0; a request that a CELL RESET marked dropped is refused NOT NOW when its turn comes,
whatever its kind byte. A good frame of a known kind with a wrong length is refused BAD LENGTH with index 0, one with
a count or form byte out of range BAD VALUE with that byte's index. Nothing else changes. -/
def Obligations.UnknownAndDroppedRefused : Prop :=
  (∀ (s : State) (kind : Byte) (body : List Byte), s.takesAtOnce = true →
      (kind.toNat < 1 ∨ 0x1F < kind.toNat) →
      exec (.unknownKind kind body) s = .next (s.queueFrame ⟨0x81, [kind, 1, 0]⟩))
    ∧ (∀ (s : State) (kind : Byte) (body : List Byte), s.link.waiting = [⟨kind, body, true⟩] →
      s.link.owedBad = 0 → s.link.owedBusy = 0 → s.link.outbound.length < 8 →
      exec .droppedRequest s = .next (s.modLink fun l =>
        { l with waiting := [], outbound := l.outbound ++ [⟨0x81, [kind, 5, 0]⟩] }))
    ∧ ∀ (s : State) (n kind lo b : Byte) (body : List Byte), s.takesAtOnce = true →
        s.link.rx = .check n kind body (some lo) →
        lo.toNat + 256 * b.toNat = frameSum n kind body →
        let refused (reason i : Byte) : Host.Outcome State Fault Refusal :=
          .next (s.modLink fun l => { l with
            rx := .hunt, gap := ⟨false, l.gap.ms⟩
            outbound := l.outbound ++ [⟨0x81, [kind, reason, i]⟩] })
        (wrongLength kind body → exec (.frameComplete b) s = refused 2 0)
          ∧ ∀ i, badCount kind body i → exec (.frameComplete b) s = refused 3 i

/-- Any request that arrives while two wait is discarded: the overrun count goes up, a BUSY is owed or
queued, and LINK OVERRUN is raised (R180, R181). -/
def Obligations.ThirdRequestBusy : Prop :=
  ∀ (s : State) (r : Request), 2 ≤ s.link.waiting.length →
    let l := s.link
    let room := l.owedBad = 0 ∧ l.owedBusy = 0 ∧ l.outbound.length < 8
    (room → exec r.command s = .next (({ s with
        link := { l with
          overruns := min (l.overruns + 1) 65535
          outbound := l.outbound ++ [⟨0x81, [Request.kind r, 4, 1]⟩] } } : State).raise
            .linkOverrun .hostLink (Request.kind r).toNat))
      ∧ (¬room → exec r.command s = .next (({ s with
        link := { l with
          overruns := min (l.overruns + 1) 65535
          owedBusy := min (l.owedBusy + 1) 255
          owedBusyKind := Request.kind r } } : State).raise
            .linkOverrun .hostLink (Request.kind r).toNat))

/-- Raising an event (R170, R171): a repeat counts up and is unsent again; a new entry below 96 takes the
next creation number; at 96 entries, with a WARNING or NOTICE to give way that is not above the new class,
the oldest entry of the lowest class leaves. What then is sent is the sending of R171. -/
def Obligations.RaiseKeepsPendingSet : Prop :=
  ∀ (s : State) (kind : EventKind) (src : EventSource) (d : Int), s.events.ok = true →
    s.events.nextCreation ≤ 4294967295 →
    let here : EventEntry → Bool := fun e => e.kind = kind && e.source = src
    ((∃ e ∈ s.events.entries, here e = true) →
      s.raise kind src d = ({ s with
        events := { s.events with
          entries := s.events.entries.map fun e =>
            if here e then
              { e with repeats := min (e.repeats + 1) 255, detail := d, sent := false }
            else e } } : State).sendReports)
      ∧ ((∀ e ∈ s.events.entries, here e = false) → s.events.entries.length < 96 →
          s.raise kind src d = ({ s with
            events := { s.events with
              entries := s.events.entries ++ [⟨kind, src, d, 0, false, s.events.nextCreation⟩]
              nextCreation := s.events.nextCreation + 1 } } : State).sendReports)
      ∧ (∀ (old : EventEntry) (before after : List EventEntry),
          (∀ e ∈ s.events.entries, here e = false) → s.events.entries.length = 96 →
          s.events.entries = before ++ old :: after →
          (∀ e ∈ before, classCode (eventClass e.kind) < classCode (eventClass old.kind)) →
          (∀ e ∈ after, classCode (eventClass e.kind) ≤ classCode (eventClass old.kind)) →
          (classCode (eventClass kind) ≤ classCode (eventClass old.kind) →
            s.raise kind src d = ({ s with
              events := { s.events with
                entries := before ++ after ++ [⟨kind, src, d, 0, false, s.events.nextCreation⟩]
                nextCreation := s.events.nextCreation + 1
                displaced := min (s.events.displaced + 1) 255 } } : State).sendReports)
            ∧ (classCode (eventClass old.kind) < classCode (eventClass kind) →
                s.raise kind src d = { s with
                  events := { s.events with
                    displaced := min (s.events.displaced + 1) 255 } }))

/-- A number in a field of so many bytes, low byte first (R186). -/
def le (width n : Nat) : List Byte :=
  (List.range width).map fun i => BitVec.ofNat 8 (n / 256 ^ i)

/-- The 14 bytes of an event entry (Table 10-7); the number of a source that has none is free. -/
def entryBytes (filler : Half) (e : EventEntry) : List Byte :=
  le 1 (eventCode e.kind) ++ le 1 (classCode (eventClass e.kind))
    ++ le 1 (sourceCode e.source).1
    ++ le 2 ((sourceCode e.source).2.getD filler.toNat)
    ++ le 4 (BitVec.ofInt 32 e.detail).toNat ++ le 1 e.repeats ++ le 4 e.creation

/-- Sending reports (R171, R183): nothing goes while fewer than two frames are free or no entry is
eligible; otherwise the first eligible entry, by class and then by age, goes out as one EVENT report and is
sent, and the sending goes on. The reports never take the last frame. The number of a source that has none
is free (log entry 12). -/
def Obligations.SendingKeepsLastFrame : Prop :=
  ∀ s : State,
    let may : EventEntry → Prop := fun x =>
      x.sent = false ∧ (eventClass x.kind = .alarm ∨ s.events.gateOpen = true)
    (s.link.outbound.length ≤ 7 → s.sendReports.link.outbound.length ≤ 7)
      ∧ (7 ≤ s.link.outbound.length → s.sendReports = s)
      ∧ ((∀ e ∈ s.events.entries, e.sent = true
            ∨ (s.events.gateOpen = false ∧ eventClass e.kind ≠ .alarm)) → s.sendReports = s)
      ∧ (∀ (e : EventEntry) (before after : List EventEntry) (filler : Half),
          s.events.ok = true → s.events.entries = before ++ e :: after →
          filler = Config.freeHalf s.free 3 → s.link.outbound.length ≤ 6 → may e →
          (∀ x ∈ before, may x → classCode (eventClass e.kind) < classCode (eventClass x.kind)) →
          (∀ x ∈ after, may x → classCode (eventClass e.kind) ≤ classCode (eventClass x.kind)) →
          s.sendReports = ({ s with
            link := { s.link with outbound := s.link.outbound ++ [⟨0x90, entryBytes filler e⟩] }
            events := { s.events with entries := before ++ { e with sent := true } :: after }
            free := s.free + 1 } : State).sendReports)
      ∧ (∃ n, s.sendReports.link.outbound.take s.link.outbound.length = s.link.outbound
            ∧ s.sendReports.link.outbound.length = s.link.outbound.length + n
            ∧ ∀ f ∈ s.sendReports.link.outbound.drop s.link.outbound.length,
                f.kind = 0x90 ∧ f.body.length = 14)

/-! ### Shared operations -/

/-- ACCEPT with these fields is queued on `t`, the state that holds the request's effect. -/
def accepts (c : Instr) (s t : State) (kind : Byte) (fields : List Byte) : Prop :=
  exec c s = .next (t.queueFrame ⟨0x80, kind :: fields⟩)

/-- REFUSE with a reason and a field index is queued and nothing else changes. -/
def refuses (c : Instr) (s : State) (kind reason index : Byte) : Prop :=
  exec c s = .next (s.queueFrame ⟨0x81, [kind, reason, index]⟩)

/-- The state a requeued order takes by its saw's infeed (R42, R58). -/
def backState (s : State) (e : OrderEntry) : OrderState :=
  match s.saws[e.saw].state with
  | .blocked .overrun => .blocked .overrun
  | .blocked _ => .blocked .sawBlocked
  | _ => .queued

/-- A sequencer that takes a work notice (R47, R136). -/
def noticed (q : Sequencer) : Sequencer :=
  if q.state = .idle ∧ q.load = none ∧ q.work = none then { q with ask := true }
  else if q.state = .held then { q with latched := { q.latched with work := true } }
  else q

/-- A requeue (R42) puts each of its entries back to QUEUED, or to BLOCKED under a BLOCKED infeed, with
remaining, placed and rank kept; one that enters QUEUED causes the work notice (R47). Nothing else
changes. -/
def Obligations.RequeueByInfeed : Prop :=
  ∀ (s : State) (p : OrderEntry → Bool),
    let entries := s.queue.entries.map fun e => if p e then { e with state := backState s e } else e
    ((∃ e ∈ s.queue.entries, p e = true ∧ backState s e = .queued) →
      s.requeueWhere p = { s with
        queue := { s.queue with entries := entries }
        seq := ⟨noticed s.seq.a, noticed s.seq.b⟩ })
      ∧ ((∀ e ∈ s.queue.entries, p e = true → backState s e ≠ .queued) →
          s.requeueWhere p = { s with queue := { s.queue with entries := entries } })

/-- A change of a record's state and runs (R36): STARVED orders are requeued, a BLOCKED carriage is to
choose again, a HELD one latches the notice, a carriage in SAW WAIT at that place is to ask again; a
RETURN place hands its count on (R45, R165). -/
def Obligations.ContentChangeNotices : Prop :=
  ∀ (s : State) (p : Place) (st : StackState) (runs : List Run),
    let s1 := ({ s with
      stackRecs := s.stackRecs.set p.val
        (s.stackRecs[p].map fun r => { r with state := st, runs := runs }) } : State).requeueWhere
          OrderEntry.isStarved
    let waits : Carriage → Bool := fun c =>
      match (s.sq c).state, (s.sq c).work with
      | .sawWait, some w =>
        (match w.kind with | .order _ _ _ _ infeed _ => decide (infeed = p) | _ => false)
      | _, _ => false
    let told : Carriage → Sequencer := fun c =>
      if (s.sq c).state = .held then
        { s1.sq c with latched := { (s1.sq c).latched with content := true } }
      else s1.sq c
    let s2 : State := { s1 with
      seq := ⟨told .A, told .B⟩
      todo := ⟨s.todo.exam,
        ⟨s.todo.blocked.a || (s.sq .A).state = .blocked,
          s.todo.blocked.b || (s.sq .B).state = .blocked⟩,
        ⟨s.todo.wait.a || waits .A, s.todo.wait.b || waits .B⟩⟩ }
    ((s.cell.places[p].kind ≠ .return_ ∨ s.cell.places[p].saw = none) →
        s.setStack p st runs = s2)
      ∧ (∀ w, s.cell.places[p].kind = .return_ → s.cell.places[p].saw = some w →
          s.stackRecs[p] ≠ none →
          s.setStack p st runs
            = (s2.handCount w (knownCount runs) (st = .ready)).permitByCount w (knownCount runs))

/-- The judgement of a return entry (R46): NOT DUE found due takes the next rank and causes the work
notice; DUE found not due loses its rank; TAKEN and SUSPENDED are left. Nothing else changes. -/
def Obligations.ReturnEntryJudged : Prop :=
  ∀ (s : State) (w : Saw) (r : ReturnEntry), s.queue.returns[w] = some r →
    s.queue.nextRank ≤ 4294967295 →
    let due := r.ready = true ∧ 1 ≤ r.count ∧ (s.cell.trigger ≤ r.count ∨ r.withdrawn = true)
    (r.state = .notDue → due → s.judge w = { s with
        queue := { s.queue with
          returns := s.queue.returns.set w.val (some { r with state := .due s.queue.nextRank })
          nextRank := s.queue.nextRank + 1 }
        seq := ⟨noticed s.seq.a, noticed s.seq.b⟩ })
      ∧ (r.state = .notDue → ¬due → s.judge w = s)
      ∧ (∀ n, r.state = .due n → due → s.judge w = s)
      ∧ (∀ n, r.state = .due n → ¬due → s.judge w = { s with
          queue := { s.queue with
            returns := s.queue.returns.set w.val (some { r with state := .notDue }) } })
      ∧ (∀ c n, r.state = .taken c n ∨ r.state = .suspended c n → s.judge w = s)

/-- The pieces of a run list, top first. -/
def piecesOf (runs : List Run) : List Piece :=
  runs.flatMap fun r => List.replicate (r.count.getD 0) r.piece

/-- No two neighbouring runs are equal (R17). -/
def noEqualNeighbours (runs : List Run) : Prop :=
  runs.IsChain fun a b => a.piece ≠ b.piece

/-- Runs of known counts laid on a run list (R24, R25): the pieces lie in the order given above those
that lay there, and equal neighbours are merged. -/
def Obligations.RunsMerge : Prop :=
  ∀ added below : List Run, (∀ r ∈ added ++ below, r.count ≠ none) →
    piecesOf (layRuns added below) = piecesOf added ++ piecesOf below
      ∧ (noEqualNeighbours below → noEqualNeighbours (layRuns added below))
      ∧ pieceCount (layRuns added below) = some (piecesOf (added ++ below)).length

/-- A waiting claim is granted (R92, R93): it leaves the waiting order and its span is granted. -/
def grantedClaim (s : State) (w : WaitingClaim) : State :=
  (({ s with
    arb := { s.arb with
      waiting := s.arb.waiting.filter fun x => x.carriage ≠ w.carriage } } : State).dueExam).grantSpan
        w.carriage (s.claimSpan w)

/-- The last reported position of a carriage lies in its current zone, where it has both (R112). -/
def inPlace (s : State) (c : Carriage) : Prop :=
  ∀ p z, (s.pt c).position = some p → (s.arec c).zone = some z → s.posZone p = z

/-- The middle of a zone (R98), rounded down (log entry 27). -/
def midZone (s : State) (z : Zone) : Nat :=
  let next := if h : z.val < 15 then s.cell.starts[z.val + 1] else 65535
  s.cell.starts[z] + (next - s.cell.starts[z]) / 2

/-- An ordered move is made (R98): the carriage holds the whole span, the move is recorded, it has no
waiting claim, and it is MOVING with a TRAVEL to the middle of the target zone; its work, load and suspend
stack stay. -/
def orderedAside (s t : State) (o : Carriage) (kind : MoveKind) (cur : Nat) (z : Zone) (y : Nat) :
    Prop :=
  let floor := (s.sq o).load.map (·.profile.floor)
  (∀ k : Zone, t.arb.zones[k] =
      if min cur z.val ≤ k.val ∧ k.val ≤ max cur z.val then
        { s.arb.zones[k] with holder := some o }
      else s.arb.zones[k])
    ∧ t.arec o = { s.arec o with ordered := some ⟨kind, z.val⟩ } ∧ t.claimOf o = none
    ∧ t.sq o = { s.sq o with state := .moving, atInfeed := false }
    ∧ t.pt o = { s.pt o with
        current := some (.travel (midZone s z) y floor)
        sent := (s.pt o).sent ++ [.travel .current (midZone s z) y floor] }

/-- The carriage stands with a READY link and nothing in flight, in this zone and at this Y. -/
def standsIn (s : State) (o : Carriage) (cur y : Nat) : Prop :=
  (s.arec o).zone = some cur ∧ (s.pt o).current = none ∧ (s.pt o).link = .ready
    ∧ ∃ x, (s.pt o).position = some ⟨x, y⟩ ∧ s.posZone ⟨x, y⟩ = cur

/-- No zone of the claim's span is closed, behind an unreferenced carriage or out of reach: only the other
carriage blocks it (R91). -/
def freeOfOthers (s : State) (w : WaitingClaim) : Prop :=
  ∀ k < 16, inRange (s.claimSpan w) k = true → s.blockedHard w.carriage false k = false

/-- The first blocking zone of a claim, met from the current zone towards the target (log entry 13). -/
def firstBlocker (s : State) (w : WaitingClaim) (z : Nat) : Prop :=
  ∃ cur, (s.arec w.carriage).zone = some cur ∧ z < 16 ∧ inRange (s.claimSpan w) z = true
    ∧ s.claimable w.carriage false z = false
    ∧ ∀ k < 16, inRange (s.claimSpan w) k = true →
        (if cur ≤ w.target then k < z else z < k) → s.claimable w.carriage false k = true

/-- CLAIM STALL for a waiting claim, once under its stall flag (R99). -/
def stalledAt (s : State) (w : WaitingClaim) (z : Nat) : State :=
  if w.stalled then s
  else ({ s with
    arb := { s.arb with
      waiting := s.arb.waiting.map fun x =>
        if x.carriage = w.carriage then { x with stalled := true } else x } } : State).raise
          .claimStall (.carriage w.carriage) z

/-- The make-way target of a carriage clear of a span: the zone below it for A, above it for B (R98). -/
def asideZone (o : Carriage) (r : ZoneRange) : Option Zone :=
  match o with
  | .A => if h : 1 ≤ r.first ∧ r.first ≤ 16 then some ⟨r.first - 1, by omega⟩ else none
  | .B => if h : r.last < 15 then some ⟨r.last + 1, by omega⟩ else none

/-- A carriage is needed out of the way of a claim (R96, R97, R98, R99): ordered a make-way move clear of its
span when that can be granted, the claim then unstalled; otherwise `stalled` is the state that follows. A
carriage that must leave an AWAITING range is ordered none (R105), and nothing stalls (log entry 36). -/
def wayMade (s t : State) (o : Carriage) (w : WaitingClaim) (stalled : State → Prop) : Prop :=
  let leaves := ∃ k < 16, s.holder k = some o ∧ s.awaited k = true
  let granted (cur : Nat) (z : Zone) := asideZone o (s.claimSpan w) = some z
    ∧ s.spanClaimable o false (spanOf cur z.val) = true
  (leaves → t = s)
    ∧ (¬leaves → ∀ cur y z, standsIn s o cur y → granted cur z →
        orderedAside s t o .makeWay cur z y
          ∧ t.claimOf w.carriage = some { w with stalled := false })
    ∧ (¬leaves → ∀ cur y, standsIn s o cur y → (∀ z, ¬granted cur z) → stalled t)

/-- A claim (R92): with the current zone confirmed by the last position, a claimable span is granted at once, every
zone of it held and the carriage MOVING; otherwise it waits with its stall flag clear and the carriage is CLAIMING.
An examination (R93) grants the waiting claims that are claimable; of two that overlap, the higher class, or the one
that began waiting first. A claim that only the other carriage blocks (R96): it waits on one that moves, stalls on
one HELD or FAULTED, and one that stands is ordered out of its way; of two CLAIMING carriages that block each other
the lower class yields, or the later, and one whose own claim is not freeable yields in any case (R97). The model's
readings and choices: the first blocking zone is met in the order of travel (log entry 13), the middle of a zone is
rounded down (27), a carriage that must leave an AWAITING range is ordered no make-way and nothing stalls (36), the
ordered move of a FAULTED carriage does not count as in flight (45), and where a yield cannot be granted the CLAIM
STALL of the claim that is helped is raised before that of the other claim (25), an order the spec does not give. A
position that lies outside the current zone (the failing check of R112) is left out of this statement. -/
def Obligations.ClaimGrantedOrWaits : Prop :=
  (∀ (s : State) (c : Carriage) (cur target : Nat), (s.arec c).zone = some cur →
      (∀ p, (s.pt c).position = some p → s.posZone p = cur) →
      let span : Nat → Bool := fun z => decide (min cur target ≤ z ∧ z ≤ max cur target)
      let ok := ∀ z < 16, span z = true → s.claimable c false z = true
      (ok → s.claimMove c target = (((s.mapZones fun z r =>
          if span z then { r with holder := some c } else r).setCarState c .moving).dueExam).issue c)
        ∧ (¬ok → s.claimMove c target = (({ s with
            arb := { s.arb with
              waiting := s.arb.waiting
                ++ [⟨c, target, (s.sq c).workClass, false⟩] } } : State).setCarState c
                  .claiming).dueExam))
    ∧ (∀ s : State,
      let may : WaitingClaim → Prop := fun w =>
        ∀ k < 16, inRange (s.claimSpan w) k = true → s.claimable w.carriage false k = true
      ((∀ w ∈ s.arb.waiting, ¬may w) → s.grantClaims = s)
        ∧ (∀ a, s.arb.waiting = [a] → may a → inPlace s a.carriage →
            s.grantClaims = grantedClaim s a)
        ∧ ∀ a b, s.arb.waiting = [a, b] → a.carriage ≠ b.carriage →
            inPlace s a.carriage → inPlace s b.carriage →
            let share := (s.claimSpan a).first ≤ (s.claimSpan b).last
              ∧ (s.claimSpan b).first ≤ (s.claimSpan a).last
            let first := if workClassCode a.cls < workClassCode b.cls then b else a
            (may a → ¬may b → s.grantClaims = grantedClaim s a)
              ∧ (¬may a → may b → s.grantClaims = grantedClaim s b)
              ∧ (may a → may b → share → s.grantClaims = grantedClaim s first)
              ∧ (may a → may b → ¬share → s.grantClaims = grantedClaim (grantedClaim s a) b))
    ∧ ∀ (s : State) (c : Carriage) (w : WaitingClaim), s.claimOf c = some w →
        let o := other c
        let st := (s.sq o).state
        let moving := (s.arec o).ordered ≠ none
        let blocked := ∃ k < 16, inRange (s.claimSpan w) k = true ∧ s.holder k = some o
        let t := s.helpClaim w
        (¬(blocked ∧ freeOfOthers s w) → t = s)
          ∧ (blocked → freeOfOthers s w →
            (∀ z, st = .held ∨ st = .faulted → firstBlocker s w z → t = stalledAt s w z)
              ∧ (st ≠ .held → st ≠ .faulted →
                  moving ∨ (st ≠ .idle ∧ st ≠ .sawWait ∧ st ≠ .blocked ∧ st ≠ .claiming) → t = s)
              ∧ (st = .idle ∨ st = .sawWait ∨ st = .blocked → ¬moving →
                  wayMade s t o w fun u => ∀ z, firstBlocker s w z → u = stalledAt s w z)
              ∧ ∀ v, st = .claiming → ¬moving → s.claimOf o = some v →
                  let both := freeOfOthers s v
                  let cFirst := s.arb.waiting.head? = some w
                  let cYields := both ∧ (workClassCode w.cls < workClassCode v.cls
                    ∨ (w.cls = v.cls ∧ ¬cFirst))
                  let stalls (u : State) := ∀ x z, firstBlocker s w x → firstBlocker s v z →
                    u = stalledAt (stalledAt s w x) v z
                  (cYields → wayMade s t c v stalls) ∧ (¬cYields → wayMade s t o w stalls))

/-- A zone is claimable by a carriage (R91). -/
def Obligations.ZoneClaimable : Prop :=
  ∀ (s : State) (c : Carriage) (clearOut : Bool) (z : Fin 16),
    let o := (s.sq (other c)).state
    let awaiting := (∃ (g : Gate) (r : ZoneRange), s.arb.gates[g].state = .awaiting (some r)
        ∧ r.first ≤ z.val ∧ z.val ≤ r.last)
      ∨ ∃ r, s.arb.host.awaiting = some r ∧ r.first ≤ z.val ∧ z.val ≤ r.last
    s.claimable c clearOut z.val = true ↔
      s.arb.zones[z].holder ≠ some (other c)
        ∧ (∀ k : Fin 7, s.arb.zones[z].sources[k] = false)
        ∧ (clearOut = true ∨ ¬awaiting)
        ∧ (o = .unreferenced ∨ o = .homing → ∃ cur, (s.arec c).zone = some cur
            ∧ (c = .A → z.val ≤ cur) ∧ (c = .B → cur ≤ z.val))
        ∧ (c = .A → z.val ≤ 14) ∧ (c = .B → 1 ≤ z.val)

/-- The zone law (section 5.1): every zone A holds lies below every zone B holds. -/
def zoneLaw (s : State) : Prop :=
  ∀ x y : Fin 16, s.arb.zones[x].holder = some .A → s.arb.zones[y].holder = some .B → x < y

/-- A granted span keeps the zone law for a carriage that holds its current zone. -/
def Obligations.GrantKeepsZoneLaw : Prop :=
  ∀ (s : State) (c : Carriage) (cur : Fin 16) (target : Nat) (clearOut : Bool), zoneLaw s →
    s.arb.zones[cur].holder = some c → target ≤ 15 →
    s.spanClaimable c clearOut (spanOf cur.val target) = true →
    zoneLaw (s.holdZones c (inRange (spanOf cur.val target)))

/-- The order is a candidate of the request: QUEUED, of a class above the bound (R48). -/
def asked (bound : Option WorkClass) (k : WorkClass) : Prop :=
  ∀ b, bound = some b → workClassCode b < workClassCode k

/-- The offer of a work request (R48, R49): an eligible candidate that no eligible candidate comes
before, and none only if no candidate is eligible. -/
def Obligations.OfferIsBest : Prop :=
  ∀ (s : State) (c : Carriage) (bound : Option WorkClass), s.queue.ok = true →
    let orderGood : OrderEntry → Prop := fun e =>
      e ∈ s.queue.entries ∧ e.state = .queued ∧ asked bound e.cls ∧ s.orderEligible c e = true
    let returnGood : Saw → Nat → Prop := fun w n =>
      ∃ r, s.queue.returns[w] = some r ∧ r.state = .due n ∧ asked bound .priority
        ∧ s.returnEligible c r = true
    ((s.request c bound).2 = none →
      (∀ e, ¬orderGood e) ∧ ∀ w n, ¬returnGood w n)
      ∧ (∀ m, (s.request c bound).2 = some (.order m) →
          ∃ e, orderGood e ∧ e.number = m
            ∧ (∀ e', orderGood e' → workClassCode e'.cls ≤ workClassCode e.cls
                ∧ (e'.cls = e.cls → e.rank ≤ e'.rank))
            ∧ ∀ w n, returnGood w n → e.cls = .rush)
      ∧ (∀ w, (s.request c bound).2 = some (.return_ w) →
          ∃ n, returnGood w n ∧ (∀ w' n', returnGood w' n' → n ≤ n')
            ∧ ∀ e, orderGood e → e.cls ≠ .rush)

/-- The release of a place claim (R22): the user is cleared, a book release waiting for it goes to the
saw (R151), and the other sequencer is told: BLOCKED it is to choose again at the end of the step, HELD it
latches the notice (R88, R136); a place of another user is left. Nothing else changes. -/
def Obligations.PlaceClaimReleased : Prop :=
  ∀ (s : State) (c : Carriage) (p : Place) (r : StackRec), s.stackRecs[p] = some r →
    let o := other c
    let told : Sequencer :=
      if (s.sq o).state = .held then
        { s.sq o with latched := { (s.sq o).latched with release := true } }
      else s.sq o
    let freed : State := { s with
      stackRecs := s.stackRecs.set p.val (some { r with user := none })
      seq := s.seq.set o told
      todo := { s.todo with blocked :=
        if (s.sq o).state = .blocked then s.todo.blocked.set o true else s.todo.blocked } }
    (r.user ≠ some c → s.releasePlace c p = s)
      ∧ (r.user = some c →
          (∀ w, s.cell.places[p].kind = .infeed → s.cell.places[p].saw = some w →
            s.saws[w].releasePending = false
              ∨ (s.saws[w].state ≠ .opened ∧ s.saws[w].state ≠ .closed)) →
          s.releasePlace c p = freed)
      ∧ (∀ w, r.user = some c → s.cell.places[p].kind = .infeed → s.cell.places[p].saw = some w →
          s.saws[w].releasePending = true →
          (s.saws[w].state = .opened ∨ s.saws[w].state = .closed) →
          s.releasePlace c p = { freed with
            saws := s.saws.set w.val { s.saws[w] with
              cutGo := true, state := .cutting, bookTimer := ⟨false, 0⟩
              releasePending := false } })

/-! ### Settings -/

/-- SET ZONE MAP, SET CURTAIN and SET ACCESS GATE (R3, R10, R11): checked in order, and the 16 starts or the range
replaced. -/
def Obligations.RailSettingsReplace : Prop :=
  (∀ (s : State) (starts : List Half), s.takesAtOnce = true → starts.length = 16 →
      let c : Instr := .setZoneMap starts
      let start : Nat → Nat := fun k => (starts.getD k 0).toNat
      let rising := ∀ k < 15, start k < start (k + 1)
      let free := (s.sq .A).state = .unreferenced ∧ (s.sq .B).state = .unreferenced
      (start 0 ≠ 0 → refuses c s 2 3 1)
        ∧ (start 0 = 0 → ∀ k < 15, (∀ j < k, start j < start (j + 1)) → start (k + 1) ≤ start k →
            refuses c s 2 3 (BitVec.ofNat 8 (k + 2)))
        ∧ (start 0 = 0 → rising → ¬free → refuses c s 2 5 0)
        ∧ (start 0 = 0 → rising → free →
            accepts c s { s with
              cell := { s.cell with starts := Vector.ofFn fun k => start k.val } } 2 []))
    ∧ (∀ (s : State) (b f l : Byte), s.takesAtOnce = true →
      let none? := f = 0xFF ∧ l = 0xFF
      let good := none? ∨ (f.toNat ≤ l.toNat ∧ l.toNat ≤ 15)
      let range : Option ZoneRange :=
        if f = 0xFF ∧ l = 0xFF then none else some ⟨f.toNat, l.toNat⟩
      let badRange : Instr → Byte → Prop := fun c kind =>
        (¬none? → 15 < f.toNat → refuses c s kind 3 2)
          ∧ (¬none? → f.toNat ≤ 15 → 15 < l.toNat → refuses c s kind 3 3)
          ∧ (f.toNat ≤ 15 → l.toNat < f.toNat → refuses c s kind 3 3)
      (3 < b.toNat → refuses (.setCurtain b f l) s 3 3 1)
        ∧ (b.toNat ≤ 3 → badRange (.setCurtain b f l) 3)
        ∧ (∀ k : Curtain, b.toNat = k.val → good → s.lines.curtain[k] = true →
            refuses (.setCurtain b f l) s 3 5 0)
        ∧ (∀ k : Curtain, b.toNat = k.val → good → s.lines.curtain[k] = false →
            accepts (.setCurtain b f l) s { s with
              cell := { s.cell with curtains := s.cell.curtains.set k.val range } } 3 [])
        ∧ (1 < b.toNat → refuses (.setAccessGate b f l) s 4 3 1)
        ∧ (b.toNat ≤ 1 → badRange (.setAccessGate b f l) 4)
        ∧ (∀ g : Gate, b.toNat = g.val → good → s.lines.access[g] = true →
            refuses (.setAccessGate b f l) s 4 5 0)
        ∧ (∀ g : Gate, b.toNat = g.val → good → s.lines.access[g] = false →
            accepts (.setAccessGate b f l) s { s with
              cell := { s.cell with gates := s.cell.gates.set g.val range } } 4 []))

/-- SET GRIP PROFILE and SET CELL PARAMETERS (R12, R14, R15): the first bad field is named; the values replace the
old ones together; a raised dig limit requeues the orders STARVED by it, and every return entry is judged again. That
the entries are judged, and take due ranks, in the order of their saws is the model's choice, log entry 42. -/
def Obligations.ParametersReplace : Prop :=
  (∀ (s : State) (p low high floor : Byte), s.takesAtOnce = true →
      let c : Instr := .setGripProfile p low high floor
      (7 < p.toNat → refuses c s 5 3 1)
        ∧ (p.toNat ≤ 7 → 95 < low.toNat → refuses c s 5 3 2)
        ∧ (p.toNat ≤ 7 → low.toNat ≤ 95 → 95 < high.toNat → refuses c s 5 3 3)
        ∧ (p.toNat ≤ 7 → low.toNat ≤ 95 → high.toNat ≤ 95 → 95 < floor.toNat → refuses c s 5 3 4)
        ∧ (p.toNat ≤ 7 → low.toNat ≤ 95 → high.toNat ≤ 95 → floor.toNat ≤ 95 →
            low.toNat < floor.toNat → refuses c s 5 3 2)
        ∧ (p.toNat ≤ 7 → high.toNat ≤ 95 → floor.toNat ≤ low.toNat → low.toNat ≤ 95 →
            high.toNat < low.toNat → refuses c s 5 3 3)
        ∧ (∀ k : Profile, p.toNat = k.val → floor.toNat ≤ low.toNat → low.toNat ≤ high.toNat →
            high.toNat ≤ 95 →
            accepts c s { s with
              cell := { s.cell with
                profiles := s.cell.profiles.set k.val
                  ⟨low.toNat, high.toNat, floor.toNat⟩ } } 5 []))
    ∧ (∀ (s : State) (t d r : Byte), s.takesAtOnce = true →
      let c : Instr := .setCellParameters t d r
      let tOk := 5 ≤ t.toNat ∧ t.toNat ≤ 50
      let rOk := 1 ≤ r.toNat ∧ r.toNat ≤ 4
      let s1 : State := { s with
        cell := { s.cell with
          tolerance := t.toNat, digLimit := d.toNat, trigger := r.toNat } }
      (¬tOk → refuses c s 6 3 1)
        ∧ (tOk → 120 < d.toNat → refuses c s 6 3 2)
        ∧ (tOk → d.toNat ≤ 120 → ¬rOk → refuses c s 6 3 3)
        ∧ (tOk → d.toNat ≤ s.cell.digLimit → d.toNat ≤ 120 → rOk →
            accepts c s ((((s1.judge 0).judge 1).judge 2).judge 3) 6 [])
        ∧ (tOk → s.cell.digLimit < d.toNat → d.toNat ≤ 120 → rOk →
            accepts c s (((((s1.requeueWhere fun e => e.state = .starved .digLimit).judge 0).judge
              1).judge 2).judge 3) 6 []))

/-! ### Places, saws, stock -/

/-- The kinds that serve a saw (R5). -/
def servesSaw (k : PlaceKind) : Bool := k = .infeed || k = .return_

/-- The kinds on which the host declares stock (R23). -/
def holdsStock (k : PlaceKind) : Bool := k = .stock || k = .buffer || k = .remnant

/-- The fallback condition of R155. -/
abbrev fallbackHolds (x : SawStation) : Prop := x.status ≠ .auto ∨ x.silent = true

/-- DEFINE PLACE, the refusals (R6), in the order of its checks. -/
def Obligations.DefinePlaceRefused : Prop :=
  ∀ (s : State) (p k n w : Byte) (x y b h : Half), s.takesAtOnce = true →
    let c : Instr := .definePlace p k x y b n h w
    let pOk := p.toNat ≤ 31
    let seen := pOk ∧ 1 ≤ k.toNat ∧ k.toNat ≤ 5
    let yOk := y.toNat ≤ 8000
    let bOk := b.toNat ≤ 20000
    let nOk := 3 < k.toNat ∨ (1 ≤ n.toNat ∧ n.toNat ≤ 250)
    let hOk := b.toNat + 30 ≤ h.toNat ∧ h.toNat ≤ 30000
    let wOk := k.toNat < 4 ∨ w.toNat ≤ 3
    (¬pOk → refuses c s 7 3 1)
      ∧ (pOk → 5 < k.toNat → refuses c s 7 3 2)
      ∧ (seen → ¬yOk → refuses c s 7 3 4)
      ∧ (seen → yOk → ¬bOk → refuses c s 7 3 5)
      ∧ (seen → yOk → bOk → ¬nOk → refuses c s 7 3 6)
      ∧ (seen → yOk → bOk → nOk → ¬hOk → refuses c s 7 3 7)
      ∧ (seen → yOk → bOk → nOk → hOk → ¬wOk → refuses c s 7 3 8)
      ∧ ∀ (place : Place) (kind : PlaceKind), p.toNat = place.val → k.toNat = placeKindCode kind →
          kind = .unused ∨ (yOk ∧ bOk ∧ nOk ∧ hOk ∧ wOk) →
          let dup := ∃ q, q ≠ place ∧ s.cell.places[q].kind = kind
            ∧ s.cell.places[q].saw = sawOf w
          let used := (∃ r, s.stackRecs[place] = some r ∧ (r.state ≠ .empty ∨ r.user ≠ none))
            ∨ (∃ v, s.cell.places[place].kind = .infeed ∧ s.cell.places[place].saw = some v
                ∧ ((∃ e ∈ s.queue.entries, e.saw = v) ∨ s.saws[v].state = .cutting
                  ∨ ∃ why, s.saws[v].state = .blocked why))
            ∨ (∃ v, s.cell.places[place].kind = .return_ ∧ s.cell.places[place].saw = some v
                ∧ s.saws[v].overrun = true)
            ∨ (s.cell.places[place].kind = .buffer ∧ kind ≠ .buffer
                ∧ ∃ e ∈ s.queue.entries, e.divert = some place)
          (servesSaw kind = true → dup → refuses c s 7 8 0)
            ∧ (¬(servesSaw kind = true ∧ dup) → used → refuses c s 7 6 0)

/-- DEFINE PLACE, accepted (R6, R7, R145, R161): the definition is replaced with the piece limit of its kind, the
stack record follows the kind, a RETURN place has an entry of the return-work list, and the infeed of a saw that
gains an INFEED place, with no overrun and no fallback of BOOK mode, is CLOSED, or OPEN under READY. A table taken
away leaves its saw: the infeed is UNDEFINED again, or the return entry is gone and the permit hold lifted. That a
place made UNUSED keeps the numbers of the request, and that STARVED orders are requeued unless an UNUSED place
stays UNUSED, is the model's reading, log entry 22. -/
def Obligations.DefinePlaceDefines : Prop :=
  (∀ (s : State) (place : Place) (w : Saw) (x y b h : Half) (n v : Byte), s.atEase = true →
      s.stackRecs[place] = some ⟨.empty, none, []⟩ → s.cell.places[place].saw = some w →
      let c : Instr := .definePlace (BitVec.ofNat 8 place.val) 0 x y b n h v
      let s1 : State := { s with
        cell := { s.cell with
          places := s.cell.places.set place.val
            ⟨.unused, x.toNat, y.toNat, b.toNat, n.toNat, h.toNat, none⟩ }
        stackRecs := s.stackRecs.set place.val none }
      (s.cell.places[place].kind = .infeed → (∀ e ∈ s.queue.entries, e.saw ≠ w) →
        (s.saws[w].state = .opened ∨ s.saws[w].state = .closed) →
        accepts c s (({ s1 with
          saws := s.saws.set w.val { s.saws[w] with
            state := .undefined, cutGo := false, bookTimer := ⟨false, 0⟩, basicTaken := false
            releasePending := false, fallbackPending := false } } : State).requeueWhere
              OrderEntry.isStarved) 7 [])
        ∧ (s.cell.places[place].kind = .return_ → s.saws[w].overrun = false →
            accepts c s (({ s1 with
              saws := s.saws.set w.val { s.saws[w] with permitHold := false }
              queue := { s.queue with returns := s.queue.returns.set w.val none } } :
                State).requeueWhere OrderEntry.isStarved) 7 []))
    ∧ (∀ (s : State) (place : Place) (kind : PlaceKind) (w : Saw) (n : Byte) (x y b h : Half),
      s.atEase = true → y.toNat ≤ 8000 → b.toNat ≤ 20000 → 1 ≤ n.toNat → n.toNat ≤ 250 →
      b.toNat + 30 ≤ h.toNat → h.toNat ≤ 30000 →
      (∀ q, q ≠ place → s.cell.places[q].kind = kind → s.cell.places[q].saw ≠ some w) →
      (∀ r, s.stackRecs[place] = some r → r.state = .empty ∧ r.user = none) →
      holdsStock s.cell.places[place].kind = true ∨ s.cell.places[place].kind = .unused →
      (s.cell.places[place].kind = .buffer → ∀ e ∈ s.queue.entries, e.divert ≠ some place) →
      let c : Instr := .definePlace (BitVec.ofNat 8 place.val)
        (BitVec.ofNat 8 (placeKindCode kind)) x y b n h (BitVec.ofNat 8 w.val)
      let limit := if kind = .infeed then 8 else if kind = .return_ then 4 else n.toNat
      let def' : PlaceDef := ⟨kind, x.toNat, y.toNat, b.toNat, limit, h.toNat,
        if servesSaw kind then some w else none⟩
      let s1 : State := { s with
        cell := { s.cell with places := s.cell.places.set place.val def' }
        stackRecs := s.stackRecs.set place.val
          (if kind = .unused then none else some ⟨.empty, none, []⟩) }
      let infeed (st : InfeedState) : State := { s1 with
        saws := s.saws.set w.val { s.saws[w] with state := st, cutGo := false } }
      (holdsStock kind = true →
        accepts c s (s1.requeueWhere OrderEntry.isStarved) 7 [])
        ∧ (kind = .unused → s.cell.places[place].kind ≠ .unused →
            accepts c s (s1.requeueWhere OrderEntry.isStarved) 7 [])
        ∧ (kind = .unused → s.cell.places[place].kind = .unused → accepts c s s1 7 [])
        ∧ (kind = .return_ → accepts c s (({ s1 with
            saws := s.saws.set w.val { s.saws[w] with permitHold := false }
            queue := { s.queue with
              returns := s.queue.returns.set w.val
                (some ⟨place, 0, false, false, .notDue⟩) } } : State).requeueWhere
                  OrderEntry.isStarved) 7 [])
        ∧ (kind = .infeed → s.saws[w].overrun = false → s.saws[w].state = .undefined →
            ¬(s.saws[w].mode = .book ∧ fallbackHolds s.saws[w]) → s.saws[w].ready = false →
            accepts c s ((infeed .closed).requeueWhere OrderEntry.isStarved) 7 [])
        ∧ (kind = .infeed → s.saws[w].overrun = false → s.saws[w].state = .undefined →
            ¬(s.saws[w].mode = .book ∧ fallbackHolds s.saws[w]) → s.saws[w].ready = true →
            accepts c s (((infeed .opened).requeueWhere fun e =>
              e.isBlocked && e.saw = w).requeueWhere OrderEntry.isStarved) 7 []))

/-- The infeed enters OPEN: its BLOCKED orders are requeued (R59, R148). -/
def opens (s : State) (w : Saw) : State :=
  (s.modSaw w fun x => { x with state := .opened, cutGo := false }).requeueWhere fun e =>
    e.isBlocked && e.saw = w

/-- The infeed enters BLOCKED (R158): its timer stops with the time it has (log entry 32), a waiting release
is dropped, and, from another state, the queued and starved orders of the saw become BLOCKED (R58). -/
def blocks (s : State) (w : Saw) (why : InfeedBlock) : State :=
  let s1 := s.modSaw w fun x => { x with
    state := .blocked why, cutGo := false, bookTimer := ⟨false, x.bookTimer.ms⟩
    releasePending := false }
  match s.saws[w].state with
  | .blocked _ => s1
  | _ => { s1 with
    queue := { s.queue with
      entries := s.queue.entries.map fun e =>
        if e.saw = w ∧ (e.state = .queued ∨ e.isStarved = true) then
          { e with state := .blocked (if why = .overrun then .overrun else .sawBlocked) }
        else e } }

/-- The fallback outcome for an empty book (R156), with the cause of its warning: BLOCKED under the fallback
lock, turned to BASIC and following READY without it. -/
def emptyFallback (s : State) (w : Saw) (cause : Int) : State :=
  let x := s.saws[w]
  let warned := s.raise .sawFallback (.saw w) cause
  if x.lock = true then blocks warned w .fallback
  else
    let basic := warned.modSaw w fun y => { y with
      mode := .basic, basicTaken := false, bookTimer := ⟨false, 0⟩ }
    if x.ready = true then (if x.state = .opened then basic else opens basic w)
    else basic.modSaw w fun y => { y with state := .closed, cutGo := false }

/-- The cause of a fallback as the saw link shows it now: MANUAL (0) or SILENCE (1) (R156). -/
def shownCause (x : SawStation) : Int := if x.status = .auto then 1 else 0

/-- An infeed leaves an OVERRUN block (R158): by the fallback outcomes or to OPEN or CLOSED, there with the
book timer loaded in full, also when the outcome turned it to BASIC (log entry 48). -/
def leavesOverrun (s : State) (w : Saw) : State :=
  let x := s.saws[w]
  let full (u : State) : State := u.modSaw w fun y => { y with
    bookTimer := ⟨y.state = .opened && y.mode = .book && 1 ≤ s.bookCount w && 1 ≤ y.timeout,
      y.timeout * 1000⟩ }
  if x.mode = .book ∧ fallbackHolds x then
    if s.bookCount w ≠ 0 then blocks s w .strandedBook
    else if x.lock = true then emptyFallback s w (shownCause x)
    else full (emptyFallback s w (shownCause x))
  else if x.ready = true then full (opens s w)
  else full (s.modSaw w fun y => { y with state := .closed, cutGo := false })

/-- SAW CONFIG (R146, R147): checked in order; the settings take effect together, a FALLBACK or STRANDED BOOK block
is left, the book timer is loaded anew, and a book that has the new threshold is released unless a release is
pending already (R151). -/
def Obligations.SawConfigApplies : Prop :=
  ∀ (s : State) (b m n lk : Byte) (t l : Half), s.takesAtOnce = true →
    let c : Instr := .sawConfig b m n t l lk
    let bOk := b.toNat ≤ 3
    let mOk := m.toNat ≤ 1
    let nOk := 1 ≤ n.toNat ∧ n.toNat ≤ 8
    let tOk := t.toNat ≤ 300
    let lOk := 5 ≤ l.toNat ∧ l.toNat ≤ 600
    (¬bOk → refuses c s 8 3 1)
      ∧ (bOk → ¬mOk → refuses c s 8 3 2)
      ∧ (bOk → mOk → ¬nOk → refuses c s 8 3 3)
      ∧ (bOk → mOk → nOk → ¬tOk → refuses c s 8 3 4)
      ∧ (bOk → mOk → nOk → tOk → ¬lOk → refuses c s 8 3 5)
      ∧ (bOk → mOk → nOk → tOk → lOk → 1 < lk.toNat → refuses c s 8 3 6)
      ∧ ∀ (w : Saw) (mode : SawMode) (lock : Bool), b.toNat = w.val → m.toNat = modeCode mode →
          nOk → tOk → lOk → lk.toNat = (if lock then 1 else 0) →
          let x := s.saws[w]
          let notAuto := mode = .book ∧ fallbackHolds x
          let notNow := (x.state = .cutting ∧ mode ≠ x.mode)
            ∨ (mode = .book ∧ n.toNat < s.bookCount w)
            ∨ (mode = .book ∧ s.infeedUser w ≠ none ∧ n.toNat = s.bookCount w)
            ∨ (mode = .basic ∧ 0 < s.bookCount w)
          let set := s.modSaw w fun y =>
            { y with
              mode := mode, threshold := n.toNat, timeout := t.toNat, waitLimit := l.toNat
              lock := lock
              basicTaken := if x.mode = .basic ∧ mode = .book then false else y.basicTaken }
          let left :=
            if x.state = .blocked .fallback ∨ x.state = .blocked .strandedBook then
              if x.ready = true then opens set w
              else set.modSaw w fun y => { y with state := .closed, cutGo := false }
            else set
          let timed := left.modSaw w fun y =>
            { y with bookTimer :=
                ⟨left.saws[w].state = .opened && mode = .book && 1 ≤ s.bookCount w && 0 < t.toNat,
                  t.toNat * 1000⟩ }
          let released := mode = .book
            ∧ (left.saws[w].state = .opened ∨ left.saws[w].state = .closed)
            ∧ 1 ≤ s.bookCount w ∧ s.bookCount w = n.toNat ∧ x.releasePending = false
          (notAuto → refuses c s 8 14 0)
            ∧ (¬notAuto → notNow → refuses c s 8 5 0)
            ∧ (¬notAuto → ¬notNow → s.atEase = true → ¬released → accepts c s timed 8 [])
            ∧ (¬notAuto → ¬notNow → s.atEase = true → released →
                accepts c s (timed.modSaw w fun y =>
                  { y with
                    cutGo := true, state := .cutting, bookTimer := ⟨false, 0⟩
                    releasePending := false }) 8 [])

/-- A run in the range of Table 2-2 with a known count. -/
def knownRun (r : Run) : Prop :=
  1 ≤ r.piece.material ∧ r.piece.material ≤ 4095 ∧ 30 ≤ r.piece.thickness
    ∧ r.piece.thickness ≤ 600 ∧ ∃ n, r.count = some n ∧ 1 ≤ n ∧ n ≤ 250

/-- A run as a request carries it (Table 10-5), an unknown count as 0. -/
def onWire (r : Run) : WireRun where
  material := BitVec.ofNat 16 r.piece.material
  thickness := BitVec.ofNat 16 r.piece.thickness
  profile := BitVec.ofNat 8 r.piece.profile.val
  size := BitVec.ofNat 8 (sizeCode r.piece.size)
  count := BitVec.ofNat 8 (r.count.getD 0)

/-- Which of the five fields of a run record are out of range (Table 2-2, R23, R25). -/
def fieldsBad (zeroOk : Bool) (r : WireRun) : List Bool :=
  [r.material.toNat < 1 || 4095 < r.material.toNat,
    r.thickness.toNat < 30 || 600 < r.thickness.toNat,
    7 < r.profile.toNat, 3 < r.size.toNat,
    250 < r.count.toNat || (r.count.toNat = 0 && !zeroOk)]

/-- The first bad field of a run list is field `j` of run `i`. -/
def firstBadField (zeroOk : Bool) (runs : List WireRun) (i j : Nat) : Prop :=
  ∃ r, runs[i]? = some r ∧ (fieldsBad zeroOk r)[j]? = some true
    ∧ (∀ q ∈ runs.take i, ∀ b ∈ fieldsBad zeroOk q, b = false)
    ∧ ∀ b ∈ (fieldsBad zeroOk r).take j, b = false

/-- The runs break the piece limit or the height limit of the place. -/
def breaksLimits (s : State) (p : Place) (runs : List Run) : Prop :=
  (∃ n, pieceCount runs = some n ∧ s.cell.places[p].pieceLimit < n)
    ∨ ∃ h, runsHeight runs = some h
        ∧ s.cell.places[p].heightLimit < s.cell.places[p].base + h

/-- LOAD STACK and ADD RUNS, the BAD VALUE refusals (R23, R25): the first bad field is named, and hold
YES with a count of 0 names field 2. That this holds for a count of 0 in any run, before a bad field of a
run, is the model's reading, log entry 30. -/
def Obligations.StockFieldsRefused : Prop :=
  ∀ (s : State) (p hold : Byte) (runs : List WireRun), s.takesAtOnce = true →
    1 ≤ runs.length → runs.length ≤ 8 →
    let load : Instr := .loadStack p hold runs
    let add : Instr := .addRuns p runs
    let zero := ∃ r ∈ runs, r.count = 0
    (31 < p.toNat → refuses load s 9 3 1 ∧ refuses add s 10 3 1)
      ∧ (p.toNat ≤ 31 → 1 < hold.toNat ∨ (hold = 1 ∧ zero) → refuses load s 9 3 2)
      ∧ (∀ i j, p.toNat ≤ 31 → hold.toNat ≤ 1 → ¬(hold = 1 ∧ zero) →
          firstBadField (runs.length = 1) runs i j →
          refuses load s 9 3 (BitVec.ofNat 8 (4 + 5 * i + j)))
      ∧ ∀ i j, p.toNat ≤ 31 → firstBadField false runs i j →
          refuses add s 10 3 (BitVec.ofNat 8 (3 + 5 * i + j))

/-- LOAD STACK and ADD RUNS of runs in range (R23, R24, R25): NOT DEFINED, IN USE, NOT NOW, FULL; or LOAD STACK sets
the record to the merged runs, READY, LOCKED with hold, MEASURE for a single run of unknown count, and ADD RUNS lays
the runs on the READY stack. -/
def Obligations.StockDeclared : Prop :=
  (∀ (s : State) (p : Place) (hold : Bool) (runs : List Run), s.takesAtOnce = true →
      1 ≤ runs.length → runs.length ≤ 8 → (∀ r ∈ runs, knownRun r) →
      let c : Instr := .loadStack (BitVec.ofNat 8 p.val) (if hold then 1 else 0) (runs.map onWire)
      let laid := layRuns runs []
      let used := s.stackRecs[p].map (·.user) ≠ some none ∨ s.stackState p ≠ some .empty
      (holdsStock (s.cell.places[p].kind) = false → refuses c s 9 10 0)
        ∧ (holdsStock (s.cell.places[p].kind) = true → used → refuses c s 9 6 0)
        ∧ (holdsStock (s.cell.places[p].kind) = true → ¬used → breaksLimits s p laid →
            refuses c s 9 7 0)
        ∧ (holdsStock (s.cell.places[p].kind) = true → ¬used → ¬breaksLimits s p laid →
            s.noChoosers = true →
            accepts c s (({ s with
              counters := { s.counters with
                loaded := min (s.counters.loaded + (piecesOf runs).length)
                  1099511627775 } } : State).setStack p
                    (if hold then .locked .host else .ready) laid) 9 [])
        ∧ (∀ r, runs = [r] → holdsStock (s.cell.places[p].kind) = true → ¬used →
            s.noChoosers = true → s.counters.ok = true →
            accepts (.loadStack (BitVec.ofNat 8 p.val) 0 [onWire { r with count := none }]) s
              (s.setStack p .measure [{ r with count := none }]) 9 []))
    ∧ (∀ (s : State) (p : Place) (runs : List Run), s.takesAtOnce = true →
      1 ≤ runs.length → runs.length ≤ 8 → (∀ r ∈ runs, knownRun r) →
      let c : Instr := .addRuns (BitVec.ofNat 8 p.val) (runs.map onWire)
      let kind := s.cell.places[p].kind
      (holdsStock kind = false → refuses c s 10 10 0)
        ∧ ∀ r, s.stackRecs[p] = some r →
            let laid := layRuns runs r.runs
            let full := 8 < laid.length ∨ breaksLimits s p laid
            (holdsStock kind = true → r.user ≠ none → refuses c s 10 6 0)
              ∧ (holdsStock kind = true → r.user = none → r.state ≠ .ready → refuses c s 10 5 0)
              ∧ (holdsStock kind = true → r.user = none → r.state = .ready → full →
                  refuses c s 10 7 0)
              ∧ (holdsStock kind = true → r.user = none → r.state = .ready → ¬full →
                  s.noChoosers = true →
                  accepts c s (({ s with
                    counters := { s.counters with
                      loaded := min (s.counters.loaded + (piecesOf runs).length)
                        1099511627775 } } : State).setStack p .ready laid) 10 []))

/-- UNLOAD PLACE (R26, R158, R159, R166): BAD VALUE, NOT DEFINED, IN USE, NOT NOW, or the record empties and the
known pieces count as unloaded; the saw's station is told of a book, a stranded one leading to the fallback outcome
of an empty book, and of a return table, whose infeed leaves an OVERRUN block. That UNLOAD of a place EMPTY already
is no change of content, so that no notice follows, is the model's reading, log entry 31. Where the infeed leaves an
OVERRUN block, the book timer is loaded in full also when the fallback outcome turns it to BASIC (the model's
choice, log entry 48), since R158 loads it there where R156 stops it at 0, and where it enters BLOCKED the timer
keeps its remaining time (the model's choice, log entry 32). UNLOCK PLACE (R27): BAD VALUE, NOT DEFINED, IN USE, NOT
NOW, or the lock is removed: MEASURE for a run of unknown count, EMPTY for no pieces, READY otherwise, the runs
kept. -/
def Obligations.PlacesUnloadAndUnlock : Prop :=
  (∀ (s : State) (b : Byte), s.takesAtOnce = true →
      (31 < b.toNat → refuses (.unloadPlace b) s 11 3 1)
        ∧ ∀ p : Place, b.toNat = p.val →
            let c : Instr := .unloadPlace b
            let d := s.cell.places[p]
            (d.kind = .unused → refuses c s 11 10 0)
              ∧ ∀ r, d.kind ≠ .unused → s.stackRecs[p] = some r →
                  let cutting := ∃ w, d.kind = .infeed ∧ d.saw = some w ∧ s.saws[w].state = .cutting
                  let gone : State := ({ s with
                    counters := { s.counters with
                      unloaded := min (s.counters.unloaded + (pieceCount r.runs).getD 0)
                        1099511627775 } } : State).setStack p .empty []
                  (r.user ≠ none → refuses c s 11 6 0)
                    ∧ (r.user = none → cutting → refuses c s 11 5 0)
                    ∧ (r.user = none → holdsStock d.kind = true → r.state = .empty →
                        accepts c s s 11 [])
                    ∧ (r.user = none → holdsStock d.kind = true → r.state ≠ .empty →
                        s.noChoosers = true → accepts c s gone 11 [])
                    ∧ (∀ w, r.user = none → d.kind = .infeed → d.saw = some w → r.state ≠ .empty →
                        s.noChoosers = true → s.saws[w].state ≠ .cutting →
                        s.saws[w].state ≠ .blocked .strandedBook →
                        accepts c s (gone.modSaw w fun x =>
                          { x with
                            bookTimer := ⟨false, 0⟩, releasePending := false
                            basicTaken := false }) 11 [])
                    ∧ (∀ w, r.user = none → d.kind = .infeed → d.saw = some w → r.state = .empty →
                        s.saws[w].state ≠ .cutting → accepts c s s 11 [])
                    ∧ (∀ w, r.user = none → d.kind = .infeed → d.saw = some w → r.state ≠ .empty →
                        s.noChoosers = true → s.saws[w].state = .blocked .strandedBook →
                        accepts c s (emptyFallback (gone.modSaw w fun x =>
                          { x with
                            bookTimer := ⟨false, 0⟩, releasePending := false
                            basicTaken := false }) w (shownCause s.saws[w])) 11 [])
                    ∧ ∀ w, r.user = none → d.kind = .return_ → d.saw = some w →
                        s.noChoosers = true →
                        let bare := (if r.state = .empty then s else gone).modSaw w fun x =>
                          { x with overrun := false, overrunCount := 0, permitHold := false }
                        accepts c s ((if s.saws[w].state = .blocked .overrun then
                          leavesOverrun bare w else bare).handPermit w false) 11 [])
    ∧ (∀ (s : State) (b : Byte), s.takesAtOnce = true →
      let c : Instr := .unlockPlace b
      (31 < b.toNat → refuses c s 12 3 1)
        ∧ ∀ p : Place, b.toNat = p.val →
            (s.cell.places[p].kind = .unused → refuses c s 12 10 0)
              ∧ ∀ r, s.cell.places[p].kind ≠ .unused → s.stackRecs[p] = some r →
                  let locked := ∃ why, r.state = .locked why
                  let st : StackState :=
                    if pieceCount r.runs = none then .measure
                    else if pieceCount r.runs = some 0 then .empty
                    else .ready
                  (r.user ≠ none → refuses c s 12 6 0)
                    ∧ (r.user = none → ¬locked → refuses c s 12 5 0)
                    ∧ (r.user = none → locked → s.noChoosers = true →
                        accepts c s (s.setStack p st r.runs) 12 []))

/-! ### Orders -/

/-- An order end notice of a saw (R56, R152): with no order left that counts, a book of a BOOK-mode
infeed in OPEN or CLOSED is released, or its release waits for the user of the infeed; a release that is
pending already stays as it is (R151). -/
def afterOrderEnd (s : State) (w : Saw) : SawStation :=
  let x := s.saws[w]
  let left := s.queue.entries.any fun e => e.saw = w && !e.isStarved
  if left = false ∧ x.mode = .book ∧ (x.state = .opened ∨ x.state = .closed) ∧ 1 ≤ s.bookCount w
      ∧ x.releasePending = false then
    if s.infeedUser w = none then
      { x with cutGo := true, state := .cutting, bookTimer := ⟨false, 0⟩, releasePending := false }
    else { x with releasePending := true, bookTimer := ⟨false, x.bookTimer.ms⟩ }
  else x

/-- ORDER (R43, R44): BAD VALUE, NOT DEFINED, DUPLICATE, FULL, or a new entry with the next admission
rank, entered by a requeue. -/
def Obligations.OrderAdmits : Prop :=
  ∀ (s : State) (n m t q : Half) (b k d : Byte), s.takesAtOnce = true →
    let c : Instr := .order n b m t k q d
    let mOk := 1 ≤ m.toNat ∧ m.toNat ≤ 4095
    let tOk := 30 ≤ t.toNat ∧ t.toNat ≤ 600
    let qOk := 1 ≤ q.toNat ∧ q.toNat ≤ 999
    (n = 0 → refuses c s 13 3 1)
      ∧ (n ≠ 0 → 3 < b.toNat → refuses c s 13 3 2)
      ∧ (n ≠ 0 → b.toNat ≤ 3 → ¬mOk → refuses c s 13 3 3)
      ∧ (n ≠ 0 → b.toNat ≤ 3 → mOk → ¬tOk → refuses c s 13 3 4)
      ∧ (n ≠ 0 → b.toNat ≤ 3 → mOk → tOk → 2 < k.toNat → refuses c s 13 3 5)
      ∧ (n ≠ 0 → b.toNat ≤ 3 → mOk → tOk → k.toNat ≤ 2 → ¬qOk → refuses c s 13 3 6)
      ∧ (n ≠ 0 → b.toNat ≤ 3 → mOk → tOk → k.toNat ≤ 2 → qOk → 31 < d.toNat → d ≠ 0xFF →
          refuses c s 13 3 7)
      ∧ ∀ (w : Saw) (cls : WorkClass) (divert : Option Place), n ≠ 0 → b.toNat = w.val → mOk →
          tOk → k.toNat = workClassCode cls → qOk →
          (match divert with | none => d = 0xFF | some p => d.toNat = p.val) →
          let undefined := (∀ p : Place, s.cell.places[p].kind = .infeed →
              s.cell.places[p].saw ≠ some w)
            ∨ ∃ p : Place, divert = some p ∧ s.cell.places[p].kind ≠ .buffer
          let known := ∃ e ∈ s.queue.entries, e.number = n.toNat
          let queue := if s.queue.nextRank ≤ 4294967295 then s.queue else s.queue.renumber
          let entry : OrderEntry := ⟨n.toNat, w, m.toNat, t.toNat, cls, q.toNat, q.toNat, 0,
            divert, .queued, queue.nextRank⟩
          (undefined → refuses c s 13 10 0)
            ∧ (¬undefined → known → refuses c s 13 8 0)
            ∧ (¬undefined → ¬known → 32 ≤ s.queue.entries.length → refuses c s 13 7 0)
            ∧ (¬undefined → ¬known → s.queue.entries.length < 32 →
                accepts c s (({ s with
                  queue := { queue with
                    entries := queue.entries ++ [entry]
                    nextRank := queue.nextRank + 1 } } : State).requeueWhere
                      fun e => e.number = n.toNat)
                  13 (num16 n.toNat ++ num32 queue.nextRank))

/-- CANCEL ORDER (R60): BAD VALUE, UNKNOWN ORDER, or the entry leaves; a SUSPENDED order's record leaves the suspend
stack, a carriage in a step or HELD keeps the cancel notice; the order end notice follows; in every state the entry is
gone and the reply is the last frame queued. FLUSH ORDERS (R61): every QUEUED, STARVED and BLOCKED entry leaves, the
others stay, the number is answered, and each saw that lost an entry takes its order end notices (R56, R152). -/
def Obligations.OrdersLeave : Prop :=
  (∀ (s : State) (n : Half), s.takesAtOnce = true → s.queue.ok = true →
      let c : Instr := .cancelOrder n
      let gone : State := { s with
        queue := { s.queue with entries := s.queue.entries.filter fun x => x.number ≠ n.toNat } }
      let reply : OrderEntry → List Byte := fun e =>
        num16 e.number ++ [byte (orderStateCode e.state)] ++ num16 e.placed ++ num16 e.remaining
      (n = 0 → refuses c s 14 3 1)
        ∧ (n ≠ 0 → (∀ e ∈ s.queue.entries, e.number ≠ n.toNat) → refuses c s 14 9 0)
        ∧ ∀ e ∈ s.queue.entries, e.number = n.toNat →
            let ended : State := { gone with
              saws := s.saws.set e.saw.val (afterOrderEnd gone e.saw) }
            (e.state = .queued ∨ e.isStarved = true ∨ e.isBlocked = true →
              accepts c s ended 14 (reply e))
              ∧ (∀ k, e.state = .suspended k →
                  accepts c s (ended.modSeq k fun q =>
                    { q with
                      suspended := q.suspended.filter fun r => r.ref ≠ .order e.number })
                    14 (reply e))
              ∧ (∀ k, e.state = .active k → (s.sq k).state = .moving ∨ (s.sq k).state = .held →
                  accepts c s (ended.modSeq k fun q => { q with cancelPending := true })
                    14 (reply e))
              ∧ ∃ t, exec c s = .next t ∧ (∀ x ∈ t.queue.entries, x.number ≠ n.toNat)
                  ∧ t.link.outbound.getLast? = some ⟨0x80, 14 :: reply e⟩)
    ∧ (∀ s : State, s.takesAtOnce = true → s.queue.ok = true →
      let flushed : OrderEntry → Bool := fun e =>
        match e.state with
        | .active _ => false
        | .suspended _ => false
        | _ => true
      let gone : State := { s with
        queue := { s.queue with entries := s.queue.entries.filter fun e => !flushed e } }
      accepts .flushOrders s { gone with
        saws := Vector.ofFn fun w : Saw =>
          if s.queue.entries.any fun e => flushed e && e.saw = w then afterOrderEnd gone w
          else s.saws[w] } 15
        [byte (s.queue.entries.filter flushed).length])

/-- WORK_REQUEST (R47, R48): a busy carriage takes no action; an IDLE one with nothing on offer stays
IDLE; one offered an order whose source lies on top within a claimable span makes it ACTIVE, claims the
source and moves. -/
def Obligations.WorkRequestOffers : Prop :=
  ∀ (s : State) (c : Carriage), s.quiet = true →
    let asks := (s.sq c).state = .idle ∧ (s.sq c).load = none ∧ (s.sq c).work = none
    let quieted := s.modSeq c fun q => { q with ask := false }
    (¬asks → exec (.workRequest c) s = .next quieted)
      ∧ (asks → (∀ e ∈ s.queue.entries, e.state ≠ .queued) →
          (∀ w : Saw, ∀ r n, s.queue.returns[w] = some r → r.state = .due n →
            s.returnEligible c r = false) →
          exec (.workRequest c) s = .next quieted)
      ∧ ∀ (e : OrderEntry) (p infeed : Place) (cur : Nat), asks → s.queue.ok = true →
          quieted.request c none = (quieted, some (.order e.number)) → e ∈ s.queue.entries →
          s.infeedPlace e.saw = some infeed →
          s.resolveSource c e.material e.thickness infeed = some p →
          s.matching e.material e.thickness p = some 0 → s.useCount c = 0 →
          (s.sq c).holdPending = false → (s.arec c).zone = some cur →
          (∀ q, (s.pt c).position = some q → s.posZone q = cur) →
          s.spanClaimable c false (spanOf cur (s.placeZone p)) = true →
          ∃ t, exec (.workRequest c) s = .next t
            ∧ (t.sq c).state = .moving
            ∧ (t.sq c).work = some ⟨.order e.number e.saw e.material e.thickness infeed e.divert,
                e.cls, .source, some p, none⟩
            ∧ t.queue.entries = s.queue.entries.map (fun x =>
                if x.number = e.number then { x with state := .active c } else x)
            ∧ t.stackRecs = s.stackRecs.set p.val
                (s.stackRecs[p].map fun r => { r with user := some c })
            ∧ (∀ z < 16, min cur (s.placeZone p) ≤ z → z ≤ max cur (s.placeZone p) →
                t.holder z = some c)
            ∧ t.cell = s.cell ∧ t.counters = s.counters ∧ t.saws = s.saws ∧ t.link = s.link
            ∧ t.events = s.events ∧ t.lines = s.lines ∧ t.sq (other c) = s.sq (other c)
            ∧ t.pt (other c) = s.pt (other c)

/-! ### Requests on a carriage -/

/-- A command goes to the drive unless the link is DISABLED (R122). -/
def sentTo (d : DrivePort) (cmd : DriveCmd) : List DriveCmd :=
  if d.link = .disabled then d.sent else d.sent ++ [cmd]

/-- A closing or a closure source is present on the rail (R100). -/
def closedRail (s : State) : Prop :=
  (∃ (z : Fin 16) (k : Fin 7), s.arb.zones[z].sources[k] = true)
    ∨ (∃ g : Gate, s.arb.gates[g].isAwaiting = true) ∨ s.arb.host.awaiting ≠ none

/-- The carriage a field names (R186). -/
def names (b : Byte) (c : Carriage) : Prop := b.toNat = carriageCode c

/-- HOME (R134): BAD VALUE, NOT NOW, ZONE CLOSED, NOT NOW, LOADED in that order; or HOMING with every
zone given up and CLEAR sent. -/
def Obligations.HomeStarts : Prop :=
  ∀ (s : State) (b : Byte), s.takesAtOnce = true →
    let i : Instr := .home b
    (1 < b.toNat → refuses i s 16 3 1)
      ∧ ∀ c, names b c →
          let st := (s.sq c).state
          (st = .stopped → refuses i s 16 5 0)
            ∧ (st ≠ .stopped → closedRail s → refuses i s 16 11 0)
            ∧ (st ≠ .stopped → ¬closedRail s → st ≠ .unreferenced → st ≠ .idle →
                refuses i s 16 5 0)
            ∧ (st = .idle → ¬closedRail s → (s.sq c).load ≠ none → refuses i s 16 13 0)
            ∧ (¬closedRail s → st = .unreferenced ∨ (st = .idle ∧ (s.sq c).load = none) →
                s.atEase = true →
                accepts i s { s with
                  arb := { s.arb with
                    zones := Vector.ofFn fun z : Fin 16 =>
                      if s.arb.zones[z].holder = some c then
                        { s.arb.zones[z] with holder := none }
                      else s.arb.zones[z]
                    records := s.arb.records.set c { s.arec c with zone := none } }
                  seq := s.seq.set c { s.sq c with state := .homing, ask := false }
                  port := s.port.set c { s.pt c with
                    sent := sentTo (s.pt c) .clear, clearPending := true } } 16 [])

/-- HOLD (R136, Table 6-5) and RELEASE (R138): refusals in their order; HOLD by the carriage's state; RELEASE
withdraws a pending hold, brings a HELD carriage with no work, an empty suspend stack and no cancel notice to IDLE,
to ask for work when it has no load, and lets one with an order in SOURCE make its move to the source when the span
can be granted. That a HOLD of a MOVING carriage whose port is stopping waits, with no WITHDRAW NEXT, is the model's
reading, log entry 18. -/
def Obligations.HoldAndRelease : Prop :=
  (∀ (s : State) (b : Byte), s.takesAtOnce = true →
      let i : Instr := .hold b
      (1 < b.toNat → refuses i s 17 3 1)
        ∧ ∀ c, names b c →
            let q := s.sq c
            let d := s.pt c
            let held : State := { s with
              arb := { s.arb with waiting := s.arb.waiting.filter fun w => w.carriage ≠ c }
              seq := s.seq.set c { q with
                state := .held, holdPending := false, wait := ⟨false, q.wait.ms⟩
                expired := false } }
            (q.state = .unreferenced ∨ q.state = .homing ∨ q.state = .stopped →
              refuses i s 17 12 0)
              ∧ (q.state = .faulted → refuses i s 17 5 0)
              ∧ (q.state = .held ∨ (q.state = .moving ∧ q.holdPending = true) →
                  accepts i s s 17 [])
              ∧ (q.state = .moving → q.holdPending = false →
                  (d.next = none ∨ d.withdrawing = true ∨ d.stopping = true) →
                  accepts i s (s.modSeq c fun q => { q with holdPending := true }) 17 [])
              ∧ (q.state = .moving → q.holdPending = false → d.next ≠ none →
                  d.withdrawing = false → d.stopping = false →
                  accepts i s ((s.modSeq c fun q => { q with holdPending := true }).modPort c
                    fun d => { d with
                      sent := sentTo d .withdrawNext, withdrawing := true }) 17 [])
              ∧ (q.state = .idle ∨ q.state = .claiming ∨ q.state = .blocked ∨ q.state = .sawWait →
                  (s.sq (other c)).state.unmoved = true →
                  (∀ w ∈ s.arb.waiting, w.carriage = c ∧ q.state = .claiming) →
                  (∀ g : Gate, s.arb.gates[g].isAwaiting = false) → s.arb.host.awaiting = none →
                  accepts i s held 17 []))
    ∧ (∀ (s : State) (b : Byte), s.takesAtOnce = true →
      let i : Instr := .release b
      (1 < b.toNat → refuses i s 18 3 1)
        ∧ ∀ c, names b c →
            let q := s.sq c
            (q.state = .unreferenced ∨ q.state = .homing ∨ q.state = .stopped →
              refuses i s 18 12 0)
              ∧ (q.state ≠ .unreferenced → q.state ≠ .homing → q.state ≠ .stopped →
                  q.state ≠ .held → ¬(q.state = .moving ∧ q.holdPending = true) →
                  refuses i s 18 5 0)
              ∧ (q.state = .moving → q.holdPending = true →
                  accepts i s (s.modSeq c fun q => { q with holdPending := false }) 18 [])
              ∧ (q.state = .held → q.work = none → q.suspended = [] → q.cancelPending = false →
                  q.holdPending = false → (s.sq (other c)).state.unmoved = true →
                  s.noClaims = true →
                  accepts i s (s.modSeq c fun q => { q with
                    state := .idle, latched := ⟨false, false, false, false⟩
                    ask := q.ask || q.load = none }) 18 [])
              ∧ ∀ (k : Work) (p : Place) (cur : Nat), q.state = .held → q.work = some k →
                  (∃ n v m t d g, k.kind = .order n v m t d g) → k.phase = .source →
                  k.source = some p → q.cancelPending = false → q.holdPending = false →
                  (s.sq (other c)).state.unmoved = true → s.noClaims = true →
                  (s.arec c).zone = some cur → inPlace s c →
                  s.spanClaimable c false (spanOf cur (s.placeZone p)) = true →
                  let freed := s.modSeq c fun q => { q with latched := ⟨false, false, false, false⟩ }
                  accepts i s { freed.grantSpan c (spanOf cur (s.placeZone p)) with
                    todo := s.todo } 18 [])

/-- RESUME (R133): BAD VALUE, NOT NOW, or the disposition of the load, the alarms cleared, the RESUME
pending and CLEAR sent. -/
def Obligations.ResumeSendsClear : Prop :=
  ∀ (s : State) (b f : Byte), s.takesAtOnce = true →
    let i : Instr := .resume b f
    (1 < b.toNat → refuses i s 19 3 1)
      ∧ (b.toNat ≤ 1 → 1 < f.toNat → refuses i s 19 3 2)
      ∧ ∀ c, names b c →
          let q := s.sq c
          let no := q.state ≠ .faulted ∨ (s.pt c).stopping = true ∨ q.resumePending = true
          let resumed (load : Option Load) (lost : Nat) : State := { s with
            seq := s.seq.set c { q with load := load, resumePending := true }
            port := s.port.set c { s.pt c with
              sent := sentTo (s.pt c) .clear, clearPending := true }
            counters := { s.counters with lost := lost }
            events := { s.events with
              entries := s.events.entries.filter fun e =>
                !(e.source = .carriage c && (e.kind = .zoneConflict || e.kind = .gripLoss
                  || e.kind = .driveFault)) } }
          (f.toNat ≤ 1 → no → refuses i s 19 5 0)
            ∧ (f.toNat ≤ 1 → ¬no → q.load = none →
                accepts i s (resumed none s.counters.lost) 19 [])
            ∧ (∀ l, f = 0 → ¬no → q.load = some l →
                accepts i s (resumed (some { l with sure := true }) s.counters.lost) 19 [])
            ∧ (∀ l, f = 1 → ¬no → q.load = some l →
                accepts i s (resumed none (min (s.counters.lost + 1) 1099511627775)) 19 [])

/-- SET DOWN (R87): its seven checks in order; or the place is claimed and the SET DOWN is the work,
begun at once by an IDLE carriage whose span is claimable, kept by a HELD one. -/
def Obligations.SetDownStarts : Prop :=
  ∀ (s : State) (b f : Byte), s.takesAtOnce = true →
    let i : Instr := .setDown b f
    (1 < b.toNat → refuses i s 20 3 1)
      ∧ (b.toNat ≤ 1 → 31 < f.toNat → refuses i s 20 3 2)
      ∧ ∀ (c : Carriage) (p : Place), names b c → f.toNat = p.val →
          let q := s.sq c
          let lost := q.state = .unreferenced ∨ q.state = .homing ∨ q.state = .stopped
          let ready := (q.state = .idle ∨ q.state = .held) ∧ q.work = none
            ∧ ∃ l, q.load = some l ∧ l.sure = true
          let fits := (s.stackState p = some .empty ∨ s.stackState p = some .ready)
            ∧ s.reachable c p = true
          let stock := holdsStock s.cell.places[p].kind = true
          let begun : State := { s with
            stackRecs := s.stackRecs.set p.val
              (s.stackRecs[p].map fun r => { r with user := some c })
            seq := s.seq.set c { q with
              work := some ⟨.setDown (some p) none, .rush, .carry, none, some p⟩
              orderDone := false, expired := false, fullRaised := false } }
          (lost → refuses i s 20 12 0)
            ∧ (¬lost → ¬ready → refuses i s 20 5 0)
            ∧ (¬lost → ready → ¬stock → refuses i s 20 10 0)
            ∧ (¬lost → ready → stock → s.userAt p ≠ none → refuses i s 20 6 0)
            ∧ (¬lost → ready → stock → s.userAt p = none → ¬fits → refuses i s 20 5 0)
            ∧ ∀ l, q.load = some l → ready → stock → s.userAt p = none → fits →
                (s.accepts p l.piece = false → refuses i s 20 7 0)
                  ∧ (s.accepts p l.piece = true → q.state = .held → accepts i s begun 20 [])
                  ∧ ∀ cur, s.accepts p l.piece = true → q.state = .idle →
                      q.holdPending = false → s.noClaims = true → s.noChoosers = true →
                      (s.arec c).zone = some cur →
                      (∀ x, (s.pt c).position = some x → s.posZone x = cur) →
                      s.spanClaimable c false (spanOf cur (s.placeZone p)) = true →
                      accepts i s { begun.grantSpan c (spanOf cur (s.placeZone p)) with
                        todo := s.todo } 20 []

/-- ZONE CLOSE and ZONE OPEN (R102, R103). A range clear of holders with no carriage HOMING is closed at once and
ZONE CLOSED raised; over carriages in motion the closing is AWAITING. A carriage that stands in the range is cleared
out of it, a CLAIMING one with its waiting claim withdrawn; where that cannot be granted, or the carriage is HELD or
FAULTED, CLAIM STALL is raised (R105). A claim withdrawn for a clear-out that cannot be granted is made anew at
once: the model's choice, log entry 14. The middle of the zone a carriage is cleared out to is rounded down: the
model's choice, log entry 27. Carriages in SAW WAIT and BLOCKED, and a ZONE OPEN beside an AWAITING range that it
does not overlap, are left out of this statement. ZONE OPEN removes HOST from the range and withdraws an AWAITING
closing that overlaps it. -/
def Obligations.HostClosesAndOpens : Prop :=
  ∀ (s : State) (f l : Byte), s.takesAtOnce = true →
    let shut : Instr := .zoneClose f l
    let op : Instr := .zoneOpen f l
    let good := f.toNat ≤ l.toNat ∧ l.toNat ≤ 15
    let mine : Nat → Bool := fun z => decide (f.toNat ≤ z ∧ z ≤ l.toNat)
    let clear := (∀ z : Fin 16, mine z.val = true → s.arb.zones[z].holder = none)
      ∧ (s.sq .A).state ≠ .homing ∧ (s.sq .B).state ≠ .homing
    let host (b : Bool) : Vector ZoneRec 16 := Vector.ofFn fun z : Fin 16 =>
      if mine z.val then
        { s.arb.zones[z] with sources := s.arb.zones[z].sources.set 6 b }
      else s.arb.zones[z]
    let n := ((List.finRange 16).filter fun z : Fin 16 =>
      mine z.val && s.arb.zones[z].sources[6]).length
    (15 < f.toNat → refuses shut s 21 3 1 ∧ refuses op s 22 3 1)
      ∧ (f.toNat ≤ 15 → 15 < l.toNat ∨ l.toNat < f.toNat →
          refuses shut s 21 3 2 ∧ refuses op s 22 3 2)
      ∧ (good → s.arb.host.awaiting ≠ none → refuses shut s 21 5 0)
      ∧ (good → s.arb.host.awaiting = none → clear →
          accepts shut s (({ s with
            arb := { s.arb with zones := host true, host := ⟨none, false⟩ } } : State).raise
              .zoneClosed .host f.toNat) 21 [0])
      ∧ (good → s.arb.host.awaiting = none → ¬clear → s.arb.waiting = [] →
          (∀ g : Gate, s.arb.gates[g].isAwaiting = false) →
          (∀ c, (s.sq c).state = .moving ∨ (s.sq c).state = .homing) →
          accepts shut s { s with
            arb := { s.arb with host := ⟨some ⟨f.toNat, l.toNat⟩, false⟩ } } 21 [1])
      ∧ (∀ (c : Carriage) (cur y : Nat), good → s.arb.host.awaiting = none →
          (∀ g : Gate, s.arb.gates[g].isAwaiting = false) → s.heldZones c = [cur] →
          mine cur = true → (s.sq (other c)).state = .moving →
          (∀ z ∈ s.heldZones (other c), mine z = false) →
          let q := s.sq c
          let free := (q.state = .idle ∧ s.arb.waiting = [])
            ∨ (q.state = .claiming ∧ ∃ w, s.arb.waiting = [w] ∧ w.carriage = c)
          let pinned := (q.state = .held ∨ q.state = .faulted) ∧ s.arb.waiting = []
          let s1 : State := { s with
            arb := { s.arb with
              host := ⟨some ⟨f.toNat, l.toNat⟩, false⟩
              waiting := s.arb.waiting.map fun w => { w with stalled := false } } }
          let beside : Option Zone :=
            match c with
            | .A => if h : 1 ≤ f.toNat ∧ f.toNat ≤ 15 then some ⟨f.toNat - 1, by omega⟩ else none
            | .B => if h : l.toNat < 15 then some ⟨l.toNat + 1, by omega⟩ else none
          let granted (z : Zone) := beside = some z
            ∧ s1.spanClaimable c true (spanOf cur z.val) = true
          (∀ z, free → q.state.unmoved = true → (s.arec c).ordered = none →
              standsIn s c cur y → granted z →
              ∃ t, accepts shut s t 21 [1] ∧ orderedAside s1 t c .clearOut cur z y
                ∧ t.arb.host = s1.arb.host ∧ t.sq (other c) = s.sq (other c)
                ∧ t.stackRecs = s.stackRecs ∧ t.queue = s.queue ∧ t.events = s.events)
            ∧ ((free ∧ (s.arec c).ordered = none ∧ (s.arec c).zone = some cur
                ∧ ∀ z, ¬granted z) ∨ pinned →
              accepts shut s (({ s1 with
                arb := { s1.arb with host := ⟨s1.arb.host.awaiting, true⟩ } } : State).raise
                  .claimStall (.carriage c) f.toNat) 21 [1]))
      ∧ (good → s.arb.waiting = [] → (∀ g : Gate, s.arb.gates[g].isAwaiting = false) →
          (∀ r, s.arb.host.awaiting = some r → r.first ≤ l.toNat ∧ f.toNat ≤ r.last) →
          accepts op s { s with
            arb := { s.arb with
              zones := host false
              host := ⟨none, s.arb.host.stalled && s.arb.host.awaiting = none⟩ } } 22
            [BitVec.ofNat 8 n])

/-! ### Reports and queries -/

/-- A flag byte (R186). -/
def yes (b : Bool) : List Byte := [if b then 1 else 0]

/-- An optional one-byte number, FFh when absent (R186). -/
def opt (o : Option Nat) : List Byte := le 1 (o.getD 255)

/-- The pending entries without the WARNINGs and NOTICEs of a source (R174). -/
def clearedOf (s : State) (src : EventSource) : State := { s with
  events := { s.events with
    entries := s.events.entries.filter fun e =>
      !(decide (e.source = src) && decide (eventClass e.kind ≠ .alarm)) } }

/-- PART STATUS, QUERY ORDER, QUERY SAW and QUERY ZONES (R64, R118, R160, R168, R174, R184, R185): refused for a bad
number, otherwise the fields of Table 10-4 in order, and the clearing of the source's entries. PART STATUS counts
itself among the requests waiting (log entry 26); the book timer's remaining seconds are rounded down (log entry
20). -/
def Obligations.ListQueriesAnswer : Prop :=
  (∀ s : State, s.takesAtOnce = true →
      let orders (k : Nat) : List Byte :=
        le 1 (s.queue.entries.filter fun e => orderStateCode e.state = k).length
      accepts .partStatus s { s with
        events := { s.events with
          entries := s.events.entries.filter fun e => e.kind ≠ .linkOverrun } } 1
        (le 5 s.counters.loaded ++ le 5 s.counters.returned ++ le 5 s.counters.cut
          ++ le 5 s.counters.unloaded ++ le 5 s.counters.lost
          ++ le 1 s.cell.tolerance ++ le 1 s.cell.digLimit ++ le 1 s.cell.trigger
          ++ orders 0 ++ orders 1 ++ orders 2 ++ orders 3 ++ orders 4
          ++ (List.finRange 4).flatMap (fun w => opt (s.queue.returns[w].map fun r =>
              returnStateCode r.state))
          ++ le 1 (carStateCode (s.sq .A).state) ++ le 1 (carStateCode (s.sq .B).state)
          ++ yes s.lines.eStop ++ yes s.events.gateOpen
          ++ le 2 s.link.framingErrors ++ le 2 s.link.frameTimeouts ++ le 2 s.link.badChecks
          ++ le 2 s.link.overruns ++ [1, 0, 0]))
    ∧ (∀ s : State, s.takesAtOnce = true → s.queue.ok = true →
      refuses (.queryOrder 0) s 28 3 1
        ∧ (∀ n : Half, n ≠ 0 → (∀ e ∈ s.queue.entries, e.number ≠ n.toNat) →
            refuses (.queryOrder n) s 28 9 0)
        ∧ (∀ (n : Half), ∀ e ∈ s.queue.entries, n ≠ 0 → e.number = n.toNat →
            accepts (.queryOrder n) s { s with
              events := { s.events with
                entries := s.events.entries.filter fun x =>
                  !(decide (x.kind = .noStock) && decide (x.source = .order e.number)) } } 28
              (le 2 e.number ++ le 1 e.saw.val ++ le 2 e.material ++ le 2 e.thickness
                ++ le 1 (workClassCode e.cls) ++ le 2 e.quantity ++ le 2 e.remaining
                ++ le 2 e.placed ++ opt (e.divert.map (·.val)) ++ le 1 (orderStateCode e.state)
                ++ (match e.state with
                  | .active c => le 1 (carriageCode c) ++ [0xFF, 0xFF]
                  | .suspended c => le 1 (carriageCode c) ++ [0xFF, 0xFF]
                  | .starved r => [0xFF] ++ le 1 (starveCode r) ++ [0xFF]
                  | .blocked r => [0xFF, 0xFF] ++ le 1 (orderBlockCode r)
                  | .queued => [0xFF, 0xFF, 0xFF])
                ++ le 4 e.rank))
        ∧ (∀ b : Byte, 3 < b.toNat → refuses (.querySaw b) s 27 3 1)
        ∧ ∀ (b : Byte) (w : Saw), b.toNat = w.val →
            let x := s.saws[w]
            accepts (.querySaw b) s (clearedOf s (.saw w)) 27
              (le 1 w.val ++ opt ((s.infeedPlace w).map (·.val)) ++ le 1 (modeCode x.mode)
                ++ le 1 (infeedStateCode x.state) ++ le 1 (s.bookCount w) ++ le 1 x.threshold
                ++ le 2 x.timeout ++ yes x.bookTimer.running ++ le 2 (x.bookTimer.ms / 1000)
                ++ le 2 x.waitLimit ++ yes x.lock ++ opt (infeedBlockCode x.state)
                ++ yes x.basicTaken ++ yes x.releasePending ++ yes x.fallbackPending
                ++ le 1 (sawStatusCode x.status) ++ yes x.silent ++ yes x.ready ++ yes x.cutDone
                ++ yes x.cutGo ++ opt ((s.returnPlace w).map (·.val)) ++ yes x.overrun
                ++ le 1 x.overrunCount ++ yes x.permitHold
                ++ yes ((s.returnPlace w).isSome && !x.permitHold) ++ le 1 x.lastFed.length
                ++ x.lastFed.flatMap fun f => le 2 f.1 ++ le 1 f.2.val))
    ∧ (∀ s : State, s.takesAtOnce = true →
      let range (r : Option ZoneRange) : List Byte :=
        opt (r.map (·.first)) ++ opt (r.map (·.last))
      let holder (h : Option Carriage) : List Byte :=
        match h with
        | none => [0]
        | some .A => [1]
        | some .B => [2]
      let sources (v : Vector Bool 7) : Nat :=
        (List.finRange 7).foldl (fun n k => n + if v[k] then 2 ^ k.val else 0) 0
      let carriage (c : Carriage) : List Byte :=
        let w := s.arb.waiting.find? fun w => w.carriage = c
        let first := s.arb.waiting.head?.map (·.carriage)
        le 1 (carStateCode (s.sq c).state) ++ opt (s.arec c).zone ++ opt (w.map (·.target))
          ++ opt (w.map fun w => workClassCode w.cls)
          ++ opt (w.map fun _ => if first = some c then 1 else 2)
          ++ opt ((s.arec c).ordered.map fun m => moveKindCode m.kind)
          ++ opt ((s.arec c).ordered.map (·.target))
      s.arb.waiting.length ≤ 2 →
      accepts .queryZones s s 29
        ((List.finRange 16).flatMap (fun z => le 2 s.cell.starts[z] ++ holder s.arb.zones[z].holder
            ++ le 1 (sources s.arb.zones[z].sources))
          ++ (List.finRange 4).flatMap (fun k => range s.cell.curtains[k])
          ++ (List.finRange 2).flatMap (fun g => range s.cell.gates[g])
          ++ (List.finRange 2).flatMap (fun g =>
              le 1 (gateStateCode s.arb.gates[g].state) ++ yes s.arb.gates[g].grant)
          ++ yes s.arb.host.awaiting.isSome ++ range s.arb.host.awaiting
          ++ carriage .A ++ carriage .B))

/-- The number in a field of a reply body, which begins with the answered kind: `width` bytes at an
offset, low byte first. -/
def fieldAt (fields : List Byte) (offset width : Nat) : Nat :=
  ((List.range width).map fun i =>
    ((fields[offset - 1 + i]?).getD 0).toNat * 256 ^ i).sum

/-- QUERY CARRIAGE (R143, Table 10-8) and QUERY PLACE (R37, Table 10-9): the fields at their offsets, and the
clearing of R174; the bytes of absent two-byte fields are free (log entry 12), unknown counts FFh, an unknown top
height FFFFh; the wait timer's remaining seconds are rounded down (log entry 20). The kind of a suspended-work
record is coded from 0, ORDER then RETURN JOB (R66, R186). -/
def Obligations.LaidOutQueriesAnswer : Prop :=
  (∀ (s : State) (b : Byte), s.takesAtOnce = true →
      (1 < b.toNat → refuses (.queryCarriage b) s 25 3 1)
        ∧ ∀ c, names b c → ∃ f : List Byte,
            accepts (.queryCarriage b) s { clearedOf s (.carriage c) with free := s.free + 1 } 25 f
              ∧ let q := s.sq c
                let d := s.pt c
                let at' := fieldAt f
                f.length = 43 ∧ at' 1 1 = carriageCode c ∧ at' 2 1 = carStateCode q.state
                  ∧ at' 3 1 = (if q.holdPending then 1 else 0) + (if q.resumePending then 2 else 0)
                  ∧ at' 4 1 = linkStateCode d.link
                  ∧ at' 5 1 = (if d.position.isSome then 1 else 0)
                  ∧ (∀ p, d.position = some p →
                      at' 6 2 = p.x % 65536 ∧ at' 8 2 = p.y % 65536)
                  ∧ at' 10 1 = ((s.arec c).zone.getD 255) % 256
                  ∧ (q.load = none → at' 11 1 = 0 ∧ at' 18 1 = 255)
                  ∧ (∀ l, q.load = some l →
                      at' 11 1 = (if l.sure then 1 else 2) ∧ at' 12 2 = l.piece.material % 65536
                        ∧ at' 14 2 = l.piece.thickness % 65536 ∧ at' 16 1 = l.piece.profile.val
                        ∧ at' 17 1 = sizeCode l.piece.size ∧ at' 18 1 = l.origin.val)
                  ∧ (q.work = none → at' 19 1 = 0 ∧ at' 22 1 = 255 ∧ at' 23 1 = 255
                      ∧ at' 26 1 = 255 ∧ at' 27 1 = 255)
                  ∧ (∀ w, q.work = some w →
                      at' 22 1 = workClassCode w.cls ∧ at' 23 1 = phaseCode w.phase
                        ∧ at' 26 1 = (w.source.map (·.val)).getD 255
                        ∧ at' 27 1 = (w.dest.map (·.val)).getD 255
                        ∧ (∀ n dug, w.phase = .dig n dug →
                            at' 24 1 = n % 256 ∧ at' 25 1 = dug.val)
                        ∧ (∀ n v m t i x, w.kind = .order n v m t i x →
                            at' 19 1 = 1 ∧ at' 20 2 = n % 65536)
                        ∧ (∀ p v, w.kind = .returnJob p v → at' 19 1 = 2 ∧ at' 20 2 = p.val)
                        ∧ (∀ t x, w.kind = .setDown t x → at' 19 1 = 3
                            ∧ ∀ p, t = some p → at' 20 2 = p.val))
                  ∧ at' 28 1 = q.suspended.length % 256
                  ∧ (∀ k < 2, ∀ r, q.suspended[k]? = some r →
                      (∀ n, r.ref = .order n →
                        at' (29 + 5 * k) 1 = 0 ∧ at' (30 + 5 * k) 2 = n % 65536)
                        ∧ (∀ p, r.ref = .returnJob p →
                            at' (29 + 5 * k) 1 = 1 ∧ at' (30 + 5 * k) 2 = p.val)
                        ∧ at' (32 + 5 * k) 1 = suspendedPhaseCode r.phase
                        ∧ at' (33 + 5 * k) 1 = (r.dug.map (·.val)).getD 255)
                  ∧ at' 39 1 = (if q.wait.running then 1 else 0)
                  ∧ (q.wait.running = true → at' 40 2 = q.wait.ms / 1000 % 65536)
                  ∧ at' 42 1 = slotCode d.current ∧ at' 43 1 = slotCode d.next)
    ∧ (∀ (s : State) (b : Byte), s.takesAtOnce = true →
      (31 < b.toNat → refuses (.queryPlace b) s 26 3 1)
        ∧ ∀ p : Place, b.toNat = p.val → ∃ f : List Byte,
            accepts (.queryPlace b) s { clearedOf s (.place p) with free := s.free + 1 } 26 f
              ∧ let d := s.cell.places[p]
                let at' := fieldAt f
                at' 1 1 = p.val ∧ at' 2 1 = placeKindCode d.kind ∧ at' 3 2 = d.x % 65536
                  ∧ at' 5 2 = d.y % 65536 ∧ at' 7 2 = d.base % 65536
                  ∧ at' 9 1 = d.pieceLimit % 256 ∧ at' 10 2 = d.heightLimit % 65536
                  ∧ at' 12 1 = (d.saw.map (·.val)).getD 255 ∧ at' 13 1 = s.placeZone p
                  ∧ (s.stackRecs[p] = none → f.length = 20 ∧ at' 14 1 = 255)
                  ∧ ∀ r, s.stackRecs[p] = some r →
                      f.length = 20 + 7 * r.runs.length
                        ∧ at' 14 1 = stackStateCode r.state
                        ∧ at' 15 1 = (match r.user with | none => 0 | some .A => 1 | some .B => 2)
                        ∧ at' 16 1 = lockCode r.state
                        ∧ at' 17 1 = ((pieceCount r.runs).getD 255) % 256
                        ∧ at' 18 2
                          = (((runsHeight r.runs).map (d.base + ·)).getD 65535) % 65536
                        ∧ at' 20 1 = r.runs.length % 256
                        ∧ ∀ k run, r.runs[k]? = some run →
                            at' (21 + 7 * k) 2 = run.piece.material % 65536
                              ∧ at' (23 + 7 * k) 2 = run.piece.thickness % 65536
                              ∧ at' (25 + 7 * k) 1 = run.piece.profile.val
                              ∧ at' (26 + 7 * k) 1 = sizeCode run.piece.size
                              ∧ at' (27 + 7 * k) 1 = (run.count.getD 255) % 256)

/-- REPORTS OFF and REPORTS ON, and the two forms of QUERY EVENTS (R172, R175, R176). -/
def Obligations.ReportsAndEventQueries : Prop :=
  ∀ s : State, s.takesAtOnce = true →
    let gate (b : Bool) : State := { s with events := { s.events with gateOpen := b } }
    let count (k : EventClass) : List Byte :=
      le 1 (s.events.entries.filter fun e => eventClass e.kind = k).length
    let head := count .alarm ++ count .warning ++ count .notice
      ++ le 1 (s.events.entries.filter fun e => !e.sent).length ++ yes s.events.gateOpen
      ++ le 1 s.events.displaced
    let drawn : State := { s with free := s.free + 1 }
    accepts .reportsOff s (gate false) 23 []
      ∧ (s.events.gateOpen = true → accepts .reportsOn s s 24 [])
      ∧ (s.events.gateOpen = false → accepts .reportsOn s (gate true).sendReports 24 [])
      ∧ (s.events.entries = [] → accepts .queryEventsSummary s drawn 30 (head ++ [0xFF]))
      ∧ (∀ (e : EventEntry) (before after : List EventEntry) (filler : Half),
          s.events.entries = before ++ e :: after → filler = Config.freeHalf s.free 10 →
          (∀ x ∈ before, classCode (eventClass e.kind) < classCode (eventClass x.kind)) →
          (∀ x ∈ after, classCode (eventClass e.kind) ≤ classCode (eventClass x.kind)) →
          accepts .queryEventsSummary s drawn 30 (head ++ entryBytes filler e))
      ∧ ∀ start : Quad,
          let all := s.events.entries.filter fun e => decide (start.toNat < e.creation)
          let page := all.take 16
          let goes : EventEntry → Bool := fun e =>
            decide (e ∈ page) && (decide (eventClass e.kind = .notice)
              || (match e.source with
                | .order n => decide (eventClass e.kind = .warning)
                    && s.queue.entries.all fun o => o.number ≠ n
                | _ => false))
          accepts (.queryEventsList start) s { drawn with
            events := { s.events with
              entries := s.events.entries.filter fun e => !goes e
              displaced := if all.length ≤ 16 then 0 else s.events.displaced } } 30
            (le 1 page.length
              ++ (page.mapIdx fun i e =>
                  entryBytes (Config.freeHalf s.free (5 + 14 * i)) e).flatten
              ++ le 1 (all.length - page.length) ++ le 1 s.events.displaced)

/-- What CELL RESET leaves of a carriage that is IDLE, CLAIMING, in SAW WAIT, BLOCKED or HELD: IDLE
with its load and nothing else, to ask for work when it has no load (R141). -/
def resetIdle (q : Sequencer) : Sequencer := { q with
  state := .idle, work := none, suspended := [], wait := ⟨false, q.wait.ms⟩, expired := false
  holdPending := false, cancelPending := false, orderDone := false, fullRaised := false
  atInfeed := false, ask := q.load = none, latched := ⟨false, false, false, false⟩ }

/-- The return work of a saw is due by the count and the state of its return place now (R46). -/
def isDue (s : State) (w : Saw) : Bool :=
  match s.queue.returns[w] with
  | some r =>
    let n := knownCount (s.runsAt r.place)
    decide (s.stackState r.place = some .ready) && decide (1 ≤ n)
      && (decide (s.cell.trigger ≤ n) || s.saws[w].permitHold)
  | none => false

/-- CELL RESET on standing carriages whose ports are not stopping (R22, R63, R116, R141, R177, R187):
the Cell Map, the counters, the runs, the saws, the lines and the link keep their values. Each return entry is taken
afresh and judged (R46); those found due take the next due ranks in the order of their return places' numbers. -/
def Obligations.CellResetClears : Prop :=
  ∀ s : State, s.takesAtOnce = true → s.arb.host.awaiting = none →
    (∀ g : Gate, s.arb.gates[g].isAwaiting = false) →
    (∀ c, ((s.sq c).state = .idle ∨ (s.sq c).state = .claiming ∨ (s.sq c).state = .sawWait
      ∨ (s.sq c).state = .blocked ∨ (s.sq c).state = .held) ∧ (s.pt c).stopping = false) →
    (∀ w : Saw, s.saws[w].releasePending = false) →
    ∃ t, accepts .cellReset s t 31 []
      ∧ t.queue.entries = []
      ∧ (∀ w : Saw, ∀ r, s.queue.returns[w] = some r → ∃ st, t.queue.returns[w] = some { r with
          count := knownCount (s.runsAt r.place)
          ready := s.stackState r.place = some .ready
          withdrawn := s.saws[w].permitHold
          state := st })
      ∧ ((∀ w : Saw, s.returnPlace w = s.queue.returns[w].map (·.place)) →
          s.queue.nextRank ≤ 4294967292 →
          let due := isDue s
          let before : Place → Nat := fun p =>
            ((List.finRange 4).filter fun w =>
              due w && s.queue.returns[w].any fun r => decide (r.place < p)).length
          (∀ w : Saw, ∀ r, s.queue.returns[w] = some r →
              t.queue.returns[w].map (·.state)
                = some (if due w = true then ReturnState.due (s.queue.nextRank + before r.place)
                  else .notDue))
            ∧ t.queue.nextRank
              = s.queue.nextRank + ((List.finRange 4).filter fun w => due w).length)
      ∧ (∀ w : Saw, s.queue.returns[w] = none → t.queue.returns[w] = none)
      ∧ (∀ c, t.sq c = resetIdle (s.sq c))
      ∧ (∀ p : Place, t.stackRecs[p] = s.stackRecs[p].map fun r => { r with user := none })
      ∧ t.arb = { s.arb with
          waiting := [], gates := s.arb.gates.map fun g => { g with stalled := false }
          host := ⟨none, false⟩
          records := ⟨{ s.arb.records.a with ordered := none },
            { s.arb.records.b with ordered := none }⟩ }
      ∧ t.events = { s.events with entries := [], gateOpen := true, displaced := 0 }
      ∧ t.cell = s.cell ∧ t.counters = s.counters ∧ t.saws = s.saws ∧ t.lines = s.lines
      ∧ t.port = s.port ∧ t.link = s.link ∧ t.pending = s.pending

/-! ### Drive reports -/

/-- The port has recorded the position of a report (R121). -/
def reportedAt (s : State) (c : Carriage) (pos : Pos) : State :=
  s.modPort c fun d => { d with position := some pos }

/-- A step completes and the drive goes on with the next one (R124, NEXT). -/
def wentOn (s : State) (c : Carriage) : State :=
  s.modPort c fun d => { d with current := d.next, next := none, withdrawing := false }

/-- READY (R122, R129, R133, R134): taken while stopping, and unexpected outside the referenced states
and in FAULTED, for its position alone; the answer to a CLEAR makes the link READY, sends HOME to a
HOMING carriage and brings a FAULTED one with a RESUME pending to IDLE. That a READY while stopping is
taken for its position alone is the model's reading, log entry 23. -/
def Obligations.ReadyAnswersClear : Prop :=
  ∀ (s : State) (c : Carriage) (pos : Pos), s.rested = true →
    let q := s.sq c
    let d := s.pt c
    let i : Instr := .readyReport c pos
    let here := reportedAt s c pos
    let ready := here.modPort c fun d => { d with link := .ready, clearPending := false }
    (d.stopping = true → exec i s = .next here)
      ∧ (d.stopping = false → d.clearPending = false →
          (q.state = .unreferenced ∨ q.state = .homing ∨ q.state = .stopped
            ∨ q.state = .faulted) → exec i s = .next here)
      ∧ (d.stopping = false → d.clearPending = true → q.state = .homing →
          exec i s = .next (ready.modPort c fun d =>
            { d with sent := d.sent ++ [.home], current := some .home }))
      ∧ (d.stopping = false → d.clearPending = true → q.state = .faulted →
          q.resumePending = true → s.noClaims = true →
          (s.sq (other c)).state.unmoved = true →
          exec i s = .next (ready.modSeq c fun q =>
            { q with
              state := .idle, resumePending := false
              ask := q.ask || (q.load = none && q.work = none) }))
      ∧ (d.stopping = false → d.clearPending = true → q.state ≠ .homing →
          ¬(q.state = .faulted ∧ q.resumePending = true) → exec i s = .next ready)

/-- CONTACT (R28, R29, R125): a READY stack within the tolerance, and a MEASURE stack that holds a number of pieces
within its limits and the tolerance, are gripped; every other verdict is ABANDON, with the lock and the warning of its
cause, or STACK EMPTY for no piece. GRIP READING (R30, R126): LIFT in band, limits included; REGRIP for a first
reading out of band; for a second one the stack is LOCKED with its runs, GRIP FAIL is raised and ABANDON sent. -/
def Obligations.PickChecked : Prop :=
  (∀ (s : State) (c : Carriage) (pos : Pos) (height top search : Nat) (p : Place)
      (prof : GripProfile) (sl : Bool) (r : StackRec), s.rested = true → s.noChoosers = true →
      (s.pt c).stopping = false →
      (s.pt c).current = some (.pick p top search prof .descending sl) →
      s.stackRecs[p] = some r →
      let i : Instr := .contact c pos height
      let d := s.cell.places[p]
      let here := reportedAt s c pos
      let after (u : State) (cmd : DriveCmd) (ph : PickPhase) : Host.Outcome State Fault Refusal :=
        .next (u.modPort c fun d => { d with
          sent := sentTo d cmd, current := some (.pick p top search prof ph false) })
      (∀ h, r.state = .ready → runsHeight r.runs = some h →
        let dev : Int := (height : Int) - ((d.base + h : Nat) : Int)
        (dev.natAbs ≤ s.cell.tolerance → exec i s = after here .grip .firstGrip)
          ∧ (s.cell.tolerance < dev.natAbs →
              exec i s = after ((here.setStack p (.locked .mismatch) r.runs).raise .stackMismatch
                (.place p) dev) .abandon .abandoning))
        ∧ ∀ (run : Run) (below : List Run) (n : Nat), r.state = .measure →
            r.runs = run :: below → 0 < run.piece.thickness →
            let t := run.piece.thickness
            let h : Int := (height : Int) - (d.base : Int)
            let residue := (h - ((n * t : Nat) : Int)).natAbs
            let tooMuch := 250 < n ∨ d.pieceLimit < n ∨ d.heightLimit < d.base + n * t
            (n = 0 ∧ 2 * h < (t : Int))
              ∨ (1 ≤ n ∧ ((2 * n * t : Nat) : Int) ≤ 2 * h + (t : Int)
                ∧ 2 * h + (t : Int) < ((2 * (n + 1) * t : Nat) : Int)) →
            (n = 0 → exec i s = after ((here.setStack p .empty []).raise .stackEmpty (.place p)
                run.piece.material) .abandon .abandoning)
              ∧ (1 ≤ n → tooMuch → exec i s = after ((here.setStack p (.locked .overflow)
                  r.runs).raise .stackOverflow (.place p) n) .abandon .abandoning)
              ∧ (1 ≤ n → ¬tooMuch → s.cell.tolerance < residue →
                  exec i s = after ((here.setStack p (.locked .mismatch) r.runs).raise
                    .stackMismatch (.place p) residue) .abandon .abandoning)
              ∧ (1 ≤ n → ¬tooMuch → residue ≤ s.cell.tolerance →
                  exec i s = after ((here.modCounters fun k => { k with
                      loaded := min (k.loaded + n) 1099511627775 }).setStack p .ready
                        [{ run with count := some n }]) .grip .firstGrip))
    ∧ (∀ (s : State) (c : Carriage) (pos : Pos) (vacuum top search : Nat) (p : Place)
      (prof : GripProfile) (sl : Bool), s.rested = true → s.noChoosers = true →
      (s.pt c).stopping = false →
      let i : Instr := .gripReading c pos vacuum
      let pick (ph : PickPhase) : Step := .pick p top search prof ph sl
      let here := reportedAt s c pos
      let good := prof.low ≤ vacuum ∧ vacuum ≤ prof.high
      let after (u : State) (cmd : DriveCmd) (ph : PickPhase) : Host.Outcome State Fault Refusal :=
        .next (u.modPort c fun d => { d with
          sent := sentTo d cmd, current := some (.pick p top search prof ph false) })
      ((s.pt c).current = some (pick .firstGrip) ∨ (s.pt c).current = some (pick .secondGrip) →
        good → exec i s = after here .lift .lifting)
        ∧ ((s.pt c).current = some (pick .firstGrip) → ¬good →
            exec i s = after here .regrip .secondGrip)
        ∧ ((s.pt c).current = some (pick .secondGrip) → ¬good →
            exec i s = after ((here.setStack p (.locked .gripFail) (s.runsAt p)).raise .gripFail
              (.place p) vacuum) .abandon .abandoning))

/-- Nothing but the work itself says what a carriage standing after a step does: it is MOVING for its work, no hold,
no cancel notice and no expired wait is pending, and it has no ordered move. -/
def goesOnAtWork (s : State) (c : Carriage) : Prop :=
  (s.sq c).state = .moving ∧ (s.sq c).holdPending = false ∧ (s.sq c).cancelPending = false
    ∧ (s.sq c).expired = false ∧ (s.arec c).ordered = none

/-- The span to a target is granted and its steps are issued, or, when a zone of it is not claimable, the carriage is
CLAIMING with a waiting claim (R92); the other carriage is MOVING, so that nothing more follows (R96). -/
def movesOn (s t : State) (c : Carriage) (cur target : Nat) (cls : WorkClass) : Prop :=
  (s.spanClaimable c false (spanOf cur target) = true →
      t = { s.grantSpan c (spanOf cur target) with todo := s.todo })
    ∧ (s.spanClaimable c false (spanOf cur target) = false → (s.sq (other c)).state = .moving →
        t = { s with
          arb := { s.arb with waiting := [⟨c, target, cls, false⟩] }
          seq := s.seq.set c { s.sq c with state := .claiming } })

/-- LIFT DONE of a PICK for an order (R31, R71, R75, R127): the top piece leaves the record, with STACK EMPTY for
the last one, and is the load with its origin and the profile values of the pick; the source is released and the
phase is DELIVER; the drive goes on with its next step, or, standing with a hold pending, the carriage is HELD; a
DIG keeps its claims. Standing with no hold it claims the travel to the infeed, or in a DIG the move of its PLACE;
after the PLACE of a DIG with pieces still to dig and no better work on offer it claims the next buffer and the next
PICK (R72, R73). LIFT DONE of the PLACE of a SET DOWN with an empty suspend stack (R81, R87, R128): the place is
released, the work ends, both carriages take a work notice and the carriage is IDLE. -/
def Obligations.LiftDoneCompletes : Prop :=
  (∀ (s : State) (c : Carriage) (pos : Pos) (p : Place) (top search n : Nat)
      (prof : GripProfile) (slipped : Bool) (r : StackRec) (x : Piece) (below : List Run)
      (w : Work), s.rested = true → s.noChoosers = true → (s.pt c).stopping = false →
      (s.pt c).current = some (.pick p top search prof .lifting slipped) →
      s.stackRecs[p] = some r → r.runs = ⟨x, some n⟩ :: below → (s.sq c).work = some w →
      (∃ m v a b infeed g, w.kind = .order m v a b infeed g) →
      let here := reportedAt s c pos
      let rest := if n ≤ 1 then below else ⟨x, some (n - 1)⟩ :: below
      let lifted : State :=
        if rest = [] then
          (here.setStack p .empty []).raise .stackEmpty (.place p) x.material
        else here.setStack p r.state rest
      let load : Load := ⟨x, p, !slipped, prof⟩
      let freed := (lifted.releasePlace c p).modSeq c fun q => { q with
        load := some load, atInfeed := false
        work := some { w with source := none, phase := .deliver } }
      (w.phase = .source → w.source = some p → (s.pt c).next ≠ none →
        exec (.liftDone c pos .next) s = .next (wentOn freed c))
        ∧ (∀ k dug, w.phase = .dig k dug → (s.pt c).next ≠ none →
            exec (.liftDone c pos .next) s = .next (wentOn
              (lifted.modSeq c fun q => { q with load := some load }) c))
        ∧ (w.phase = .source → w.source = some p → (s.pt c).next = none →
            (s.sq c).holdPending = true → (s.sq c).cancelPending = false →
            (s.sq c).expired = false → (s.sq c).state = .moving → s.noClaims = true →
            exec (.liftDone c pos .standing) s = .next (wentOn (freed.modSeq c fun q =>
              { q with state := .held, holdPending := false, wait := ⟨false, q.wait.ms⟩ }) c))
        ∧ ∀ cur, (s.pt c).next = none → goesOnAtWork s c → s.noClaims = true →
            (s.arec c).zone = some cur → s.posZone pos = cur →
            (∀ m v a b infeed g, w.kind = .order m v a b infeed g → w.phase = .source →
              w.source = some p → (wentOn freed c).standsAt c infeed = false →
              ∃ t, exec (.liftDone c pos .standing) s = .next t
                ∧ movesOn (wentOn freed c) t c cur (s.placeZone infeed) w.cls)
              ∧ ∀ k dug d, w.phase = .dig k dug → w.dest = some d →
                  let lifted' := wentOn (lifted.modSeq c fun q => { q with load := some load }) c
                  ∃ t, exec (.liftDone c pos .standing) s = .next t
                    ∧ movesOn lifted' t c cur (s.placeZone d) w.cls)
    ∧ (∀ (s : State) (c : Carriage) (pos : Pos) (d dug dest : Place) (top floor cur n : Nat)
        (w : Work) (x : Piece), s.quiet = true → (s.pt c).stopping = false →
        (s.pt c).current = some (.place d top floor true) → (s.pt c).next = none →
        (s.sq c).work = some w → (∃ m v a b infeed g, w.kind = .order m v a b infeed g) →
        w.phase = .dig n dug → 2 ≤ n → w.dest = some d → w.source = some dug →
        (s.sq c).load = none → goesOnAtWork s c →
        (s.arec c).zone = some cur → s.posZone pos = cur →
        let w1 : Work := { w with phase := .dig (n - 1) dug, dest := none }
        let placed := (wentOn ((reportedAt s c pos).releasePlace c d) c).modSeq c fun q =>
          { q with work := some w1 }
        placed.request c (some w.cls) = (placed, none) → s.topPiece dug = some x →
        placed.digBuffer c dug x = some dest → placed.mayClaimDest c dest x = true →
        ∃ t, exec (.liftDone c pos .standing) s = .next t
          ∧ movesOn ((placed.setUser dest (some c)).modSeq c fun q => { q with
              fullRaised := false, work := some { w1 with dest := some dest } }) t c cur
                (s.placeZone dug) w.cls)
    ∧ (∀ (s : State) (c : Carriage) (pos : Pos) (p : Place) (top floor : Nat) (w : Work)
      (t g : Option Place), s.quiet = true → (s.pt c).stopping = false →
      (s.pt c).current = some (.place p top floor true) → (s.pt c).next = none →
      (s.sq c).work = some w → w.kind = .setDown t g → w.dest = some p →
      (s.sq c).state = .moving → (s.sq c).suspended = [] → (s.sq c).load = none →
      (s.sq c).holdPending = false → (s.sq c).cancelPending = false → (s.sq c).expired = false →
      (∀ q, q ≠ p → s.userAt q ≠ some c) →
      exec (.liftDone c pos .standing) s = .next (wentOn ((((reportedAt s c pos).releasePlace c
        p).modSeq c fun q =>
          { q with
            state := .idle, work := none, orderDone := false, fullRaised := false
            ask := true }).modSeq (other c) noticed) c))

/-- RELEASE DONE (R32, R55, R128, R150, R162): the piece joins the record of the place, an EMPTY one
becoming READY, and the load is removed. On the OPEN infeed of a saw in BOOK mode with the book not yet
complete, the book timer starts in full, the material leads the last fed list and the order counts down,
leaving with ORDER DONE at 0. -/
def Obligations.ReleaseDoneSetsDown : Prop :=
  ∀ (s : State) (c : Carriage) (pos : Pos) (p : Place) (top floor : Nat) (l : Load)
    (r : StackRec), s.rested = true → s.noChoosers = true → (s.pt c).stopping = false →
    (s.pt c).current = some (.place p top floor false) → (s.sq c).load = some l →
    s.stackRecs[p] = some r →
    let i : Instr := .releaseDone c pos
    let runs := layRuns [⟨l.piece, some 1⟩] r.runs
    let down := (((reportedAt s c pos).setStack p
      (if r.state = .empty then .ready else r.state) runs).modSeq c fun q =>
        { q with load := none }).modPort c fun d =>
          { d with current := some (.place p top floor true) }
    (s.cell.places[p].kind ≠ .infeed → exec i s = .next down)
      ∧ ∀ (w : Saw) (k : Work) (e : OrderEntry) (n h : Nat) (x y : Nat) (infeed : Place)
          (g : Option Place),
          s.cell.places[p].kind = .infeed → s.cell.places[p].saw = some w →
          s.infeedPlace w = some p → s.saws[w].mode = .book → s.saws[w].state = .opened →
          (s.sq c).work = some k → k.kind = .order e.number w x y infeed g → s.queue.ok = true →
          e ∈ s.queue.entries → e.saw = w → e.state = .active c →
          pieceCount runs = some n → n < s.saws[w].threshold → runsHeight runs = some h →
          s.cell.places[p].base + h + l.piece.thickness ≤ s.cell.places[p].heightLimit →
          let fed := down.modSaw w fun y => { y with
            bookTimer := ⟨y.timeout ≠ 0, y.timeout * 1000⟩
            lastFed := ((l.piece.material, l.piece.profile)
              :: y.lastFed.filter fun f => f.1 ≠ l.piece.material).take 8 }
          let done := ({ fed with
            queue := { fed.queue with
              entries := fed.queue.entries.filter fun y =>
                y.number ≠ e.number } } : State).raise .orderDone (.order e.number) (e.placed + 1)
          (1 < e.remaining → exec i s = .next { fed with
              queue := { fed.queue with
                entries := fed.queue.entries.map fun y =>
                  if y.number = e.number then
                    { y with placed := e.placed + 1, remaining := e.remaining - 1 }
                  else y } })
            ∧ (e.remaining = 1 → exec i s = .next (({ done with
                saws := done.saws.set w.val (afterOrderEnd done w) } : State).modSeq c fun q =>
                  { q with orderDone := true }))

/-- STEP DONE of a TRAVEL with a next step (R95, R111, R124): in a zone the carriage holds, the position
is accepted, every other zone it held is released, an ordered move is over and the next step is current.
In another zone the carriage is FAULTED with ZONE CONFLICT pending, its port stopping, its work gone, and it
holds the reported zone alone where that is keepable. After ABANDON the source is released and the order
is to resolve a source afresh (R74). Standing at its infeed the carriage puts the arrival questions (R75): with
two yes answers it claims the infeed and its own zone and issues the PLACE, otherwise it is in SAW WAIT with its
wait timer running. Standing after ABANDON it claims the source it resolves (R71); with none the order leaves it,
STARVED with its reason or requeued (R53), and with an empty suspend stack it is IDLE and asks for work (R81).
The model's readings: any reported position in a held zone is taken as the arrival, also one the step's target does
not lie in (log entry 35), and a cancel notice that is pending waits through a completion with NEXT (log entry 44). -/
def Obligations.StepDoneArrives : Prop :=
  ∀ (s : State) (c : Carriage) (pos : Pos), s.quiet = true → (s.pt c).stopping = false →
    let i : Instr := .stepDone c pos .next
    let z := s.posZone pos
    let here := reportedAt s c pos
    (∀ x y f, (s.pt c).current = some (.travel x y f) → (s.pt c).next ≠ none →
      s.holder z = some c →
      exec i s = .next (wentOn { here with
        arb := { s.arb with
          zones := Vector.ofFn fun k : Fin 16 =>
            if s.arb.zones[k].holder = some c ∧ k.val ≠ z then
              { s.arb.zones[k] with holder := none }
            else s.arb.zones[k]
          records := s.arb.records.set c ⟨some pos, some z, none⟩ } } c))
      ∧ (∀ x y f, (s.pt c).current = some (.travel x y f) → s.holder z ≠ some c →
          (s.sq c).state = .moving →
          ∃ t, exec i s = .next t ∧ (t.sq c).state = .faulted ∧ (t.pt c).stopping = true
            ∧ (t.pt c).position = some pos ∧ (t.sq c).work = none ∧ (t.sq c).suspended = []
            ∧ (t.sq c).load = (s.sq c).load
            ∧ (∃ e ∈ t.events.entries, e.kind = .zoneConflict ∧ e.source = .carriage c
                ∧ e.detail = z)
            ∧ (s.keepable c z = true → t.heldZones c = [z]
                ∧ t.arec c = { s.arec c with accepted := some pos, zone := some z }))
      ∧ (∀ (p : Place) (top search : Nat) (prof : GripProfile) (sl : Bool) (w : Work),
          (s.pt c).current = some (.pick p top search prof .abandoning sl) →
          (s.pt c).next ≠ none → (s.sq c).work = some w →
          (∃ n v m t d g, w.kind = .order n v m t d g) → w.source = some p → w.dest = none →
          exec i s = .next (wentOn ((here.releasePlace c p).modSeq c fun q => { q with
            work := some { w with source := none, phase := .source } }) c))
      ∧ ∀ (w : Work) (n : Nat) (v : Saw) (m h : Nat) (infeed : Place) (g : Option Place),
          (s.sq c).work = some w → w.kind = .order n v m h infeed g → w.dest = none →
          (s.pt c).next = none → goesOnAtWork s c →
          let j : Instr := .stepDone c pos .standing
          (∀ x y f (l : Load), (s.pt c).current = some (.travel x y f) → s.holder z = some c →
              w.phase = .deliver → (s.sq c).load = some l →
              let there := (wentOn { here with
                arb := { s.arb with
                  zones := Vector.ofFn fun k : Fin 16 =>
                    if s.arb.zones[k].holder = some c ∧ k.val ≠ z then
                      { s.arb.zones[k] with holder := none }
                    else s.arb.zones[k]
                  records := s.arb.records.set c ⟨some pos, some z, none⟩ } } c).modSeq c
                    fun q => { q with atInfeed := true }
              let yes := s.infeedTakes v = true ∧ s.mayClaimDest c infeed l.piece = true
              (yes → ∃ t, exec j s = .next t
                  ∧ movesOn ((there.setUser infeed (some c)).modSeq c fun q => { q with
                      wait := ⟨false, q.wait.ms⟩, work := some { w with dest := some infeed } })
                        t c z z w.cls)
                ∧ (¬yes → exec j s = .next (there.modSeq c fun q => { q with
                    state := .sawWait
                    wait := if q.wait.running then q.wait
                      else ⟨true, s.saws[v].waitLimit * 1000⟩ })))
            ∧ ∀ (p : Place) (top search cur : Nat) (prof : GripProfile) (sl : Bool),
                (s.pt c).current = some (.pick p top search prof .abandoning sl) →
                w.source = some p → (s.sq c).load = none → (s.arec c).zone = some cur → z = cur →
                let freed := wentOn ((here.releasePlace c p).modSeq c fun q => { q with
                  work := some { w with source := none, phase := .source } }) c
                (∀ src, freed.resolveSource c m h infeed = some src →
                    freed.mayClaimSource c src = true → freed.matching m h src = some 0 →
                    ∃ t, exec j s = .next t
                      ∧ movesOn ((freed.setUser src (some c)).modSeq c fun q => { q with
                          work := some { w with source := some src, phase := .source } })
                            t c cur (s.placeZone src) w.cls)
                  ∧ ∀ e ∈ s.queue.entries, e.number = n → s.queue.ok = true →
                      freed.resolveSource c m h infeed = none → (s.sq c).suspended = [] →
                      (∀ q, q ≠ p → s.userAt q ≠ some c) →
                      ∃ t, exec j s = .next t ∧ (t.sq c).state = .idle ∧ (t.sq c).work = none
                        ∧ (t.sq c).ask = true ∧ (t.pt c).current = none
                        ∧ t.stackRecs = freed.stackRecs
                        ∧ ∀ y ∈ t.queue.entries, y.number = n →
                            y = { e with state := match freed.starveReason e with
                              | some r => .starved r
                              | none => backState s e }

/-- HOME DONE (R100, R135): in HOMING with HOME in flight, in the home zone with no load or a SURE one, the carriage
holds its home zone, HOME DONE is raised, its alarms are cleared, it is IDLE and STARVED orders are requeued;
elsewhere it is FAULTED with ZONE CONFLICT, and with an UNCERTAIN load it is FAULTED. In any other state it is taken
for its position alone. That the detail of that ZONE CONFLICT is the reported zone is the model's reading, log entry
50 (R100 gives no detail). -/
def Obligations.HomeDoneReferences : Prop :=
  ∀ (s : State) (c : Carriage) (pos : Pos), s.quiet = true →
    let i : Instr := .homeDone c pos
    let q := s.sq c
    let d := s.pt c
    let home : Nat := match c with | .A => 0 | .B => 15
    let here := reportedAt s c pos
    let homing := q.state = .homing ∧ d.current = some .home ∧ d.stopping = false
    let sure := ∀ l, q.load = some l → l.sure = true
    let placed : State := { here.modPort c fun d => { d with current := none } with
      arb := { s.arb with
        zones := Vector.ofFn fun k : Fin 16 =>
          if k.val = home then { s.arb.zones[k] with holder := some c }
          else if s.arb.zones[k].holder = some c then { s.arb.zones[k] with holder := none }
          else s.arb.zones[k]
        records := s.arb.records.set c
          { s.arec c with accepted := some pos, zone := some home } } }
    let told := placed.raise .homeDone (.carriage c) pos.x
    (¬homing → exec i s = .next here)
      ∧ (homing → s.posZone pos = home → sure →
          exec i s = .next (({ told with
            events := { told.events with
              entries := told.events.entries.filter fun e =>
                !(e.source = .carriage c && (e.kind = .zoneConflict || e.kind = .gripLoss
                  || e.kind = .driveFault)) } } : State).modSeq c fun q => { q with
                    state := .idle
                    ask := q.ask || (q.load = none && q.work = none) }).requeueStarved)
      ∧ (homing → s.posZone pos ≠ home ∨ ¬sure →
          ∃ t, exec i s = .next t ∧ (t.sq c).state = .faulted
            ∧ (t.arec c).accepted = some pos
            ∧ (t.arec c).zone = some (if s.posZone pos ≠ home ∧ s.keepable c (s.posZone pos) = true
                then s.posZone pos else home)
            ∧ (s.posZone pos ≠ home → ∃ e ∈ t.events.entries, e.kind = .zoneConflict
                ∧ e.source = .carriage c ∧ e.detail = s.posZone pos))

/-- STOPPED (R111, R113, R129): both slots are emptied and the port is no longer stopping; a carriage
that holds the reported zone holds it alone, its ordered move is removed and its place claims are
released; one that holds no zone takes it for the position. A carriage a CELL RESET left MOVING with no
work is IDLE. Not stopping, a carriage that is not referenced takes it for its position alone. -/
def Obligations.StoppedEmptiesSlots : Prop :=
  ∀ (s : State) (c : Carriage) (pos : Pos), s.quiet = true →
    (∀ w : Saw, s.saws[w].releasePending = false) →
    let i : Instr := .stopped c pos
    let z := s.posZone pos
    let here := reportedAt s c pos
    let base : State := { here.modPort c fun d => { d with
        current := none, next := none, withdrawing := false, stopping := false } with
      stackRecs := s.stackRecs.map fun r => r.map fun x =>
        if x.user = some c then { x with user := none } else x }
    let alone : State := { base with
      arb := { s.arb with
        zones := Vector.ofFn fun k : Fin 16 =>
          if s.arb.zones[k].holder = some c ∧ k.val ≠ z then
            { s.arb.zones[k] with holder := none }
          else s.arb.zones[k]
        records := s.arb.records.set c ⟨some pos, some z, none⟩ } }
    let lost := (s.sq c).state = .unreferenced ∨ (s.sq c).state = .homing
      ∨ (s.sq c).state = .stopped
    ((s.pt c).stopping = false → lost → exec i s = .next here)
      ∧ ((s.pt c).stopping = true → lost → s.heldZones c = [] →
          exec i s = .next (base.modRec c fun r => { r with ordered := none }))
      ∧ ((s.pt c).stopping = true → (s.sq c).state = .faulted → s.holder z = some c →
          exec i s = .next alone)
      ∧ ((s.pt c).stopping = true → (s.sq c).state = .moving → (s.sq c).work = none →
          (s.sq c).holdPending = false → s.holder z = some c →
          exec i s = .next (alone.modSeq c fun q => { q with
            state := .idle, ask := q.ask || q.load = none }))

/-- DRIVE FAULT and VACUUM LOW (R130, R131, R132): the alarm is raised; a referenced carriage is FAULTED
with its port stopping, its work and suspend stack gone and no order left with it, its load kept, UNCERTAIN
after a VACUUM LOW; a HOMING one is sent STOP in any case and is UNREFERENCED. A VACUUM LOW with no load and no pick
past its LIFT is a DRIVE FAULT with code 0 of a referenced carriage. That a CLEAR not yet answered is dropped is the
model's reading, log entry 23. -/
def Obligations.DriveAlarmsFault : Prop :=
  ∀ (s : State) (c : Carriage) (pos : Pos) (n : Nat), s.quiet = true →
    let q := s.sq c
    let here := reportedAt s c pos
    let broken := (here.modPort c fun d => { d with
      link := .fault, clearPending := false }).raise .driveFault (.carriage c) n
    let stopped (u : State) : State := u.modPort c fun d => { d with
      sent := sentTo d .stop, stopping := true }
    let working := q.state = .idle ∨ q.state = .claiming ∨ q.state = .moving
    let faulted (t : State) (kind : EventKind) : Prop :=
      (t.sq c).state = .faulted ∧ (t.pt c).stopping = true ∧ (t.sq c).work = none
        ∧ (t.sq c).suspended = [] ∧ (t.sq c).holdPending = false
        ∧ (t.sq c).cancelPending = false ∧ (t.sq c).wait.running = false
        ∧ (∀ e ∈ t.queue.entries, e.state ≠ .active c ∧ e.state ≠ .suspended c)
        ∧ ∃ e ∈ t.events.entries, e.kind = kind ∧ e.source = .carriage c ∧ e.detail = n
    let holds := q.load ≠ none ∨ ∃ p top search prof sl,
      (s.pt c).current = some (.pick p top search prof .lifting sl)
    (q.state = .unreferenced ∨ q.state = .stopped →
      exec (.driveFault c pos n) s = .next broken)
      ∧ (q.state = .faulted → exec (.driveFault c pos n) s
          = .next (broken.modSeq c fun q => { q with resumePending := false }))
      ∧ (q.state = .homing → exec (.driveFault c pos n) s
          = .next ((stopped broken).modSeq c fun q => { q with state := .unreferenced }))
      ∧ (working → ∃ t, exec (.driveFault c pos n) s = .next t ∧ faulted t .driveFault
          ∧ (t.pt c).link = .fault ∧ (t.sq c).load = q.load)
      ∧ (working → holds → ∃ t, exec (.vacuumLow c pos n) s = .next t ∧ faulted t .gripLoss
          ∧ (t.sq c).load = q.load.map fun l => { l with sure := false })
      ∧ (q.state = .homing → holds → ∃ t, exec (.vacuumLow c pos n) s = .next t
          ∧ (t.sq c).state = .unreferenced ∧ (t.pt c).stopping = true
          ∧ (t.pt c).sent = sentTo (s.pt c) .stop
          ∧ (t.sq c).load = q.load.map fun l => { l with sure := false })
      ∧ (working → ¬holds →
          exec (.vacuumLow c pos n) s = exec (.driveFault c pos 0) s)
      ∧ (q.state = .unreferenced ∨ q.state = .homing ∨ q.state = .stopped ∨ q.state = .faulted →
          ¬holds → exec (.vacuumLow c pos n) s = .next here)

/-! ### Saws -/

/-- A fallback taken (R155, R156, R157) in BOOK mode in a state that takes it, with its cause: a book
under the saw is marked, one on the infeed is stranded, an empty infeed takes its own outcome. -/
def fallenBack (s : State) (w : Saw) (cause : Int) : State :=
  let warned := s.raise .sawFallback (.saw w) cause
  if s.saws[w].state = .cutting then warned.modSaw w fun y => { y with fallbackPending := true }
  else if s.bookCount w ≠ 0 then blocks warned w .strandedBook
  else emptyFallback s w cause

/-- SAW_STATUS_RECORD and SAW_LINK_SILENCE (R155, R156, R157): the link fields, and the fallback of a saw that was
AUTO. The model's choice and reading: SAW_LINK_SILENCE acts whenever the silence timer runs and does nothing
otherwise (log entry 3), and the book timer of an infeed that enters BLOCKED keeps its remaining time (log entry
32). -/
def Obligations.SawLinkHeard : Prop :=
  ∀ (s : State) (w : Saw), s.quiet = true →
    let x := s.saws[w]
    let takes := x.mode = .book
      ∧ (x.state = .closed ∨ x.state = .opened ∨ x.state = .cutting)
    let heard (st : SawStatus) : State := s.modSaw w fun y => { y with
      status := st, silence := ⟨true, 2000⟩, silent := false }
    let silent : State := s.modSaw w fun y => { y with silence := ⟨false, 0⟩, silent := true }
    exec (.sawStatusRecord w .auto) s = .next (heard .auto)
      ∧ (¬(x.status = .auto ∧ takes) →
          exec (.sawStatusRecord w .manual) s = .next (heard .manual))
      ∧ (x.status = .auto → takes →
          exec (.sawStatusRecord w .manual) s = .next (fallenBack (heard .manual) w 0))
      ∧ (x.silence.running = false → exec (.sawLinkSilence w) s = .next s)
      ∧ (x.silence.running = true → ¬(x.status = .auto ∧ takes) →
          exec (.sawLinkSilence w) s = .next silent)
      ∧ (x.silence.running = true → x.status = .auto → takes →
          exec (.sawLinkSilence w) s = .next (fallenBack silent w 1))

/-- REMNANT_RECORD (R158, R163, R164): not well formed it is discarded; with no return table or with an overrun it
is counted; on a full table the overrun is taken, and an infeed that is OPEN, CLOSED or BLOCKED is BLOCKED with
reason OVERRUN, its book timer keeping its remaining time (the model's reading, log entry 32); otherwise the piece
joins the table with the profile its material was last fed with. -/
def Obligations.RemnantTaken : Prop :=
  ∀ (s : State) (w : Saw) (m t : Nat) (size : Option SizeClass), s.quiet = true →
    let i : Instr := .remnantRecord w m t size
    let good := 1 ≤ m ∧ m ≤ 4095 ∧ 30 ≤ t ∧ t ≤ 600 ∧ size ≠ none
    let heard : State := s.modSaw w fun y => { y with silence := ⟨true, 2000⟩, silent := false }
    let counted : State := heard.modSaw w fun y => { y with
      overrunCount := min (y.overrunCount + 1) 255 }
    let profile : Profile :=
      ((s.saws[w].lastFed.find? fun f => f.1 = m).map (·.2)).getD 0
    (¬good → exec i s = .next s)
      ∧ (good → s.returnPlace w = none →
          exec i s = .next (counted.raise .returnOverrun (.saw w) m))
      ∧ (∀ p, good → s.returnPlace w = some p → s.saws[w].overrun = true →
          exec i s = .next counted)
      ∧ (∀ p, good → s.returnPlace w = some p → s.saws[w].overrun = false →
          4 ≤ knownCount (s.runsAt p) →
          let flagged := (counted.modSaw w fun y => { y with
            overrun := true, permitHold := true }).raise .returnOverrun (.saw w) m
          (s.saws[w].state = .undefined ∨ s.saws[w].state = .cutting →
            exec i s = .next (flagged.handPermit w true))
            ∧ (s.saws[w].state ≠ .undefined → s.saws[w].state ≠ .cutting →
                exec i s = .next ((blocks flagged w .overrun).handPermit w true)))
      ∧ ∀ (p : Place) (r : StackRec), good → s.returnPlace w = some p →
          s.saws[w].overrun = false → s.stackRecs[p] = some r → knownCount r.runs < 4 →
          exec i s = .next ((heard.modCounters fun k => { k with
            returned := min (k.returned + 1) 1099511627775 }).setStack p
              (if r.state = .empty then .ready else r.state)
              (layRuns [⟨⟨m, t, profile, size⟩, some 1⟩] r.runs))

/-- BOOK_TIMER_EXPIRY and WAIT_TIMER_EXPIRY (R57, R77, R151): a running book timer releases the book, or makes the
release wait for the user of the infeed, and changes nothing more while one waits already; a wait that expires in a
step is noted; one that expires in SAW WAIT raises INFEED TIMEOUT, blocks the order and turns the work to DIVERT,
and with no destination for the load the carriage is BLOCKED with BUFFER FULL. -/
def Obligations.TimersExpire : Prop :=
  ∀ s : State, s.rested = true →
    (∀ w : Saw,
      let x := s.saws[w]
      (x.bookTimer.running = false → exec (.bookTimerExpiry w) s = .next s)
        ∧ (x.bookTimer.running = true → x.releasePending = true →
            exec (.bookTimerExpiry w) s = .next (s.modSaw w fun y => { y with
              bookTimer := ⟨false, 0⟩ }))
        ∧ (x.bookTimer.running = true → x.releasePending = false → s.infeedUser w = none →
            exec (.bookTimerExpiry w) s = .next (s.modSaw w fun y => { y with
              cutGo := true, state := .cutting, bookTimer := ⟨false, 0⟩
              releasePending := false }))
        ∧ (x.bookTimer.running = true → x.releasePending = false → s.infeedUser w ≠ none →
            exec (.bookTimerExpiry w) s = .next (s.modSaw w fun y => { y with
              releasePending := true, bookTimer := ⟨false, 0⟩ })))
      ∧ ∀ c : Carriage,
          let q := s.sq c
          (q.wait.running = false → exec (.waitTimerExpiry c) s = .next s)
            ∧ (q.wait.running = true → q.state = .moving →
                exec (.waitTimerExpiry c) s = .next (s.modSeq c fun q => { q with
                  wait := ⟨false, 0⟩, expired := true }))
            ∧ ∀ (n : Nat) (w : Saw) (m t : Nat) (infeed : Place) (g : Option Place)
                (k : WorkClass) (l : Load),
                q.wait.running = true → q.state = .sawWait → q.holdPending = false →
                s.noClaims = true → (s.sq (other c)).state.unmoved = true →
                q.work = some ⟨.order n w m t infeed g, k, .deliver, none, none⟩ →
                q.load = some l → s.divertPlace c g l.piece = none →
                let warned := s.raise .infeedTimeout (.saw w) n
                exec (.waitTimerExpiry c) s = .next ((({ warned with
                  queue := { s.queue with
                    entries := s.queue.entries.map fun e =>
                      if e.number = n ∧ e.state = .active c then
                        { e with state := .blocked .infeedTimeout }
                      else e } } : State).modSeq c fun q => { q with
                        state := .blocked, wait := ⟨false, 0⟩, expired := false
                        fullRaised := true
                        work := some ⟨.order n w m t infeed g, k, .divert, none, none⟩ }).raise
                          .bufferFull (.carriage c) l.piece.material)

/-- READY and CUT DONE (R149, R153, R154): the lines are recorded; READY opens a CLOSED infeed, its book timer
running on, and closes an OPEN one, a panel taken in BASIC mode leaving with it; CUT DONE in CUTTING in BOOK mode
empties the infeed, counts the book as cut, withdraws CUT GO, stops the book timer at 0, raises CUT RELEASED and
lets the infeed take an overrun, then a pending fallback, which is then over, then follow READY; the fall of CUT
DONE is recorded. The model's readings: entering BLOCKED keeps the book timer's remaining time, which is 0 here (log
entry 32), and an overrun leaves a pending fallback pending (log entry 33). -/
def Obligations.SawLinesFollow : Prop :=
  ∀ (s : State) (w : Saw), s.quiet = true →
    let x := s.saws[w]
    let n := s.bookCount w
    let up := s.modSaw w fun y => { y with ready := true }
    let down := s.modSaw w fun y => { y with ready := false }
    let runs := x.mode = .book ∧ 1 ≤ n ∧ 0 < x.timeout
    let shut (u : State) : State := u.modSaw w fun y => { y with
      state := .closed, cutGo := false, bookTimer := ⟨false, y.bookTimer.ms⟩ }
    let emptied (u : State) (p : Place) : State := (u.modCounters fun k => { k with
      cut := min (k.cut + n) 1099511627775 }).setStack p .empty []
    let lineUp := s.modSaw w fun y => { y with cutDone := true }
    let lineDown := s.modSaw w fun y => { y with cutDone := false }
    let cut (p : Place) : State := ((emptied lineUp p).modSaw w fun y => { y with
      cutGo := false, bookTimer := ⟨false, 0⟩ }).raise .cutReleased (.saw w) n
    (x.state ≠ .closed → exec (.readyAsserted w) s = .next up)
      ∧ (x.state = .closed → ¬runs → exec (.readyAsserted w) s = .next (opens up w))
      ∧ (x.state = .closed → runs → exec (.readyAsserted w) s
          = .next ((opens up w).modSaw w fun y => { y with
            bookTimer := ⟨true, y.bookTimer.ms⟩ }))
      ∧ (x.state ≠ .opened → exec (.readyDeasserted w) s = .next down)
      ∧ (x.state = .opened → ¬(x.mode = .basic ∧ x.basicTaken = true) →
          exec (.readyDeasserted w) s = .next (shut down))
      ∧ (∀ p, x.state = .opened → x.mode = .basic → x.basicTaken = true →
          s.infeedPlace w = some p →
          exec (.readyDeasserted w) s = .next ((shut (emptied down p)).modSaw w fun y => { y with
            basicTaken := false }))
      ∧ (¬(x.state = .cutting ∧ x.mode = .book) → exec (.cutDone w) s = .next lineUp)
      ∧ (∀ p, x.state = .cutting → x.mode = .book → s.infeedPlace w = some p →
          (x.overrun = true → exec (.cutDone w) s = .next (blocks (cut p) w .overrun))
            ∧ (x.overrun = false → x.fallbackPending = true →
                exec (.cutDone w) s = .next (emptyFallback ((cut p).modSaw w fun y => { y with
                  fallbackPending := false }) w (shownCause x)))
            ∧ (x.overrun = false → x.fallbackPending = false → x.ready = true →
                exec (.cutDone w) s = .next (opens (cut p) w))
            ∧ (x.overrun = false → x.fallbackPending = false → x.ready = false →
                exec (.cutDone w) s = .next ((cut p).modSaw w fun y => { y with
                  state := .closed })))
      ∧ exec (.cutDoneDeasserted w) s = .next lineDown

/-! ### Curtains, gates, E-STOP, power-on -/

/-- The zones of a range, with a closure source set to a value. -/
def sourced (s : State) (r : Option ZoneRange) (k : Fin 7) (b : Bool) : Vector ZoneRec 16 :=
  Vector.ofFn fun z : Fin 16 =>
    if inOptRange r z.val then
      { s.arb.zones[z] with sources := s.arb.zones[z].sources.set k.val b }
    else s.arb.zones[z]

/-- CURTAIN_ASSERTED and CURTAIN_DEASSERTED (R108, R110, R173): the zones of the range take the source
and CURTAIN BREACH is raised with the number of carriages stopped; a MOVING carriage that holds a zone of
the range is FAULTED with ZONE CONFLICT, a HOMING one is UNREFERENCED. At the fall the source leaves
every zone and the alarm is cleared. A line already at the level changes nothing (log entry 8). The events are
in order, so that no more than 11 alarms are pending and none is displaced. -/
def Obligations.CurtainCloses : Prop :=
  ∀ (s : State) (k : Curtain), s.quiet = true → s.events.ok = true →
    let r := s.cell.curtains[k]
    let i : Instr := .curtainAsserted k
    let line (b : Bool) : Lines := { s.lines with curtain := s.lines.curtain.set k.val b }
    let src : Fin 7 := ⟨k.val, by omega⟩
    let hit (c : Carriage) : Prop := (s.sq c).state = .moving
      ∧ ∃ z ∈ s.heldZones c, inOptRange r z = true
    let caught (c : Carriage) : Prop := hit c ∨ ((s.sq c).state = .homing ∧ r ≠ none)
    (s.lines.curtain[k] = true → exec i s = .next s)
      ∧ (s.lines.curtain[k] = false → (∀ c, ¬caught c) →
          exec i s = .next (({ s with
            lines := line true
            arb := { s.arb with zones := sourced s r src true } } : State).raise .curtainBreach
              (.curtain k) 0))
      ∧ (∀ c, s.lines.curtain[k] = false → hit c → ¬caught (other c) →
          ∃ t, exec i s = .next t ∧ (t.sq c).state = .faulted ∧ (t.pt c).stopping = true
            ∧ t.arb.zones = sourced s r src true
            ∧ (t.sq (other c)).state = (s.sq (other c)).state
            ∧ (∃ e ∈ t.events.entries, e.kind = .curtainBreach ∧ e.source = .curtain k
                ∧ e.detail = 1)
            ∧ ∃ e ∈ t.events.entries, e.kind = .zoneConflict ∧ e.source = .carriage c
                ∧ ∃ z : Nat, e.detail = z ∧ s.holder z = some c ∧ inOptRange r z = true
                  ∧ ∀ y < z, s.holder y = some c → inOptRange r y = false)
      ∧ (∀ c, s.lines.curtain[k] = false → (s.sq c).state = .homing → r ≠ none →
          ∃ t, exec i s = .next t ∧ (t.sq c).state = .unreferenced
            ∧ (t.pt c).stopping = true ∧ t.arb.zones = sourced s r src true)
      ∧ (s.lines.curtain[k] = false → exec (.curtainDeasserted k) s = .next s)
      ∧ (s.lines.curtain[k] = true → exec (.curtainDeasserted k) s = .next { s with
          lines := line false
          arb := { s.arb with
            zones := Vector.ofFn fun z : Fin 16 =>
              { s.arb.zones[z] with sources := s.arb.zones[z].sources.set k.val false } }
          events := { s.events with
            entries := s.events.entries.filter fun e =>
              !(e.kind = .curtainBreach && e.source = .curtain k) } })

/-- ACCESS_REQUEST_ASSERTED and ACCESS_REQUEST_DEASSERTED (R104, R106, R107): a clear range, and NONE, is
closed and granted at once, with ZONE CLOSED raised (the detail of a range of NONE is free, log entry
12); under carriages in motion the closing is AWAITING. At the fall the closing is OFF, the grant is
withdrawn and the source leaves every zone. -/
def Obligations.AccessGrants : Prop :=
  ∀ (s : State) (g : Gate), s.rested = true → s.noChoosers = true → s.arb.waiting = [] →
    (∀ h, h ≠ g → s.arb.gates[h].isAwaiting = false) → s.arb.host.awaiting = none →
    let r := s.cell.gates[g]
    let up : Instr := .accessRequestAsserted g
    let line (b : Bool) : Lines := { s.lines with access := s.lines.access.set g.val b }
    let src : Fin 7 := ⟨4 + g.val, by omega⟩
    let clear := ∀ x, r = some x → (∀ z : Fin 16, inRange x z.val = true →
        s.arb.zones[z].holder = none)
      ∧ (s.sq .A).state ≠ .homing ∧ (s.sq .B).state ≠ .homing
    let granted : State := { s with
      lines := line true
      arb := { s.arb with
        zones := sourced s r src true
        gates := s.arb.gates.set g.val ⟨.granted r, false, true⟩ } }
    (s.lines.access[g] = true → exec up s = .next s)
      ∧ (∀ x, s.lines.access[g] = false → clear → r = some x →
          exec up s = .next (granted.raise .zoneClosed (.gate g) x.first))
      ∧ (s.lines.access[g] = false → r = none →
          exec up s = .next (({ granted with free := s.free + 1 } : State).raise .zoneClosed
            (.gate g) (Config.freeDetail s.free)))
      ∧ (s.lines.access[g] = false → ¬clear →
          (∀ c, (s.sq c).state = .moving ∨ (s.sq c).state = .homing) →
          exec up s = .next { s with
            lines := line true
            arb := { s.arb with
              gates := s.arb.gates.set g.val
                ⟨.awaiting r, false, s.arb.gates[g].grant⟩ } })
      ∧ (s.lines.access[g] = true →
          exec (.accessRequestDeasserted g) s = .next { s with
            lines := line false
            arb := { s.arb with
              zones := Vector.ofFn fun z : Fin 16 =>
                { s.arb.zones[z] with
                  sources := s.arb.zones[z].sources.set (4 + g.val) false }
              gates := s.arb.gates.set g.val ⟨.off, false, false⟩ } })
      ∧ (s.lines.access[g] = false →
          exec (.accessRequestDeasserted g) s = .next s)

/-- E_STOP_ASSERTED and E_STOP_RELEASED (R115, R139, R140, R173): both carriages are STOPPED with their
links DISABLED, their work gone, their loads kept, no zone held and no order left with them, and E-STOP
is pending; at the release both are UNREFERENCED and NOT READY and the alarm is cleared. That a release before the
STOPPED leaves the slots, marked stopped, until STOPPED is the model's choice, log entry 51 (Table 6-6 has them empty
at the release). -/
def Obligations.EStopStops : Prop :=
  ∀ s : State, s.quiet = true →
    (s.lines.eStop = true → exec .eStopAsserted s = .next s)
      ∧ (s.lines.eStop = false → ∃ t, exec .eStopAsserted s = .next t ∧ t.lines.eStop = true
          ∧ (∀ c, (t.sq c).state = .stopped ∧ (t.sq c).load = (s.sq c).load
              ∧ (t.sq c).work = none ∧ (t.sq c).suspended = [] ∧ (t.sq c).resumePending = false
              ∧ (t.sq c).ask = false ∧ (t.pt c).link = .disabled ∧ t.heldZones c = []
              ∧ t.arec c = ⟨(s.arec c).accepted, none, none⟩
              ∧ (∀ e ∈ t.queue.entries, e.state ≠ .active c ∧ e.state ≠ .suspended c)
              ∧ ((t.pt c).stopping = true ∨ ∀ p, t.userAt p ≠ some c))
          ∧ (∃ e ∈ t.events.entries, e.kind = .eStop ∧ e.source = .cell)
          ∧ t.cell = s.cell ∧ t.counters = s.counters)
      ∧ (s.lines.eStop = false → exec .eStopReleased s = .next s)
      ∧ (s.lines.eStop = true → exec .eStopReleased s = .next { s with
          lines := { s.lines with eStop := false }
          seq := ⟨{ s.seq.a with state := .unreferenced }, { s.seq.b with state := .unreferenced }⟩
          port := ⟨{ s.port.a with link := .notReady }, { s.port.b with link := .notReady }⟩
          events := { s.events with
            entries := s.events.entries.filter fun e =>
              !(e.kind = .eStop && e.source = .cell) } })

/-- POWER_ON (Tables 1-1, 3-4, 4-3, 6-6, 7-1, 8-1, 9-4; R38, R89, R114, R142, R178, R180, R181, R183, R184): the
power-on values the spec gives, and POWER_ON takes them in every state; the commands that wait, the levels of the
lines and the model's count of free values are kept (log entry 9). With no line asserted nothing else happens; with
E-STOP asserted both carriages are STOPPED and DISABLED. -/
def Obligations.PowerOnResets : Prop :=
  ((∀ z : Zone, State.reset.cell.starts[z] = z.val * 4000 ∧ State.reset.arb.zones[z].holder = none
        ∧ ∀ i : Fin 7, State.reset.arb.zones[z].sources[i] = false)
      ∧ (∀ p : Place, State.reset.cell.places[p] = ⟨.unused, 0, 0, 0, 0, 0, none⟩
          ∧ State.reset.stackRecs[p] = none)
      ∧ (∀ k : Curtain, State.reset.cell.curtains[k] = none)
      ∧ (∀ g : Gate, State.reset.cell.gates[g] = none
          ∧ State.reset.arb.gates[g] = ⟨.off, false, false⟩)
      ∧ (∀ p : Profile, State.reset.cell.profiles[p] = ⟨40, 90, 30⟩)
      ∧ State.reset.cell.tolerance = 20 ∧ State.reset.cell.digLimit = 40
      ∧ State.reset.cell.trigger = 2
      ∧ State.reset.counters = ⟨0, 0, 0, 0, 0⟩
      ∧ State.reset.queue.entries = [] ∧ State.reset.queue.nextRank = 1
      ∧ State.reset.arb.host = ⟨none, false⟩ ∧ State.reset.arb.waiting = []
      ∧ (∀ c : Carriage,
          (State.reset.sq c).state = .unreferenced ∧ (State.reset.sq c).work = none
            ∧ (State.reset.sq c).suspended = [] ∧ (State.reset.sq c).load = none
            ∧ (State.reset.sq c).wait.running = false ∧ (State.reset.sq c).holdPending = false
            ∧ (State.reset.sq c).resumePending = false
            ∧ (State.reset.pt c).link = .notReady ∧ (State.reset.pt c).position = none
            ∧ (State.reset.pt c).current = none ∧ (State.reset.pt c).next = none
            ∧ State.reset.arec c = ⟨none, none, none⟩)
      ∧ (∀ w : Saw,
          State.reset.queue.returns[w] = none ∧ State.reset.saws[w].mode = .basic
            ∧ State.reset.saws[w].state = .undefined ∧ State.reset.saws[w].threshold = 1
            ∧ State.reset.saws[w].timeout = 0 ∧ State.reset.saws[w].bookTimer = ⟨false, 0⟩
            ∧ State.reset.saws[w].waitLimit = 60 ∧ State.reset.saws[w].lock = false
            ∧ State.reset.saws[w].basicTaken = false ∧ State.reset.saws[w].releasePending = false
            ∧ State.reset.saws[w].fallbackPending = false ∧ State.reset.saws[w].status = .none
            ∧ State.reset.saws[w].silent = true ∧ State.reset.saws[w].silence.running = false
            ∧ State.reset.saws[w].ready = false ∧ State.reset.saws[w].cutGo = false
            ∧ State.reset.saws[w].overrun = false ∧ State.reset.saws[w].overrunCount = 0
            ∧ State.reset.saws[w].permitHold = false ∧ State.reset.saws[w].lastFed = [])
      ∧ State.reset.events = ⟨[], true, 1, 0⟩
      ∧ State.reset.link.rx = .hunt ∧ State.reset.link.waiting = []
      ∧ State.reset.link.owedBad = 0 ∧ State.reset.link.owedBusy = 0
      ∧ State.reset.link.outbound = [] ∧ State.reset.link.framingErrors = 0
      ∧ State.reset.link.frameTimeouts = 0 ∧ State.reset.link.badChecks = 0
      ∧ State.reset.link.overruns = 0)
    ∧ (∀ s : State,
      (s.lines = ⟨Vector.replicate 4 false, Vector.replicate 2 false, false⟩ →
        exec .powerOn s = .next { State.reset with pending := s.pending, free := s.free })
        ∧ ∃ t, exec .powerOn s = .next t ∧ t.cell = State.reset.cell ∧ t.lines = s.lines
            ∧ t.pending = s.pending ∧ t.queue.entries = [] ∧ (∀ p : Place, t.stackRecs[p] = none)
            ∧ (s.lines.eStop = true → ∀ c,
                (t.sq c).state = .stopped ∧ (t.pt c).link = .disabled))

/-! ### Invariant -/

/-- Every step keeps the invariant of the records: the outbound queue within 8 frames and the waiting list within 2,
the pending events within 96 with one for each kind and source and each source of its kind's type, the orders within
32 with one for each number and their counts in balance, the counters within their maxima, CUT GO only in CUTTING,
the settings within their ranges, a stack record for exactly the places that are not UNUSED. -/
def Obligations.StepKeepsInvariant : Prop :=
  ∀ s t : State, Inv s → step s = .next t → Inv t

/-- The invariant holds after reset. -/
def Obligations.ResetHasInvariant : Prop := Inv State.reset
end

