-- ==== Sys2Proof/Laws/State.lean ====
section
/-! SUPPORT. What each update of the state does to each field, and the reads of one carriage. -/

namespace Sys2Proof.Machine

/-! ### Carriages -/

@[simp] theorem other_other (c : Carriage) : other (other c) = c := by cases c <;> rfl

theorem other_ne (c : Carriage) : other c ≠ c := by cases c <;> decide

theorem eq_or_other (c d : Carriage) : d = c ∨ d = other c := by cases c <;> cases d <;> decide

@[simp] theorem get_set_self {α : Type} (v : PerCarriage α) (c : Carriage) (x : α) :
    (v.set c x).get c = x := by cases c <;> rfl

@[simp] theorem get_set_other {α : Type} (v : PerCarriage α) (c : Carriage) (x : α) :
    (v.set c x).get (other c) = v.get (other c) := by cases c <;> rfl

@[simp] theorem get_other_set {α : Type} (v : PerCarriage α) (c : Carriage) (x : α) :
    (v.set (other c) x).get c = v.get c := by cases c <;> rfl

@[simp] theorem set_set {α : Type} (v : PerCarriage α) (c : Carriage) (x y : α) :
    (v.set c x).set c y = v.set c y := by cases c <;> rfl

@[simp] theorem set_get {α : Type} (v : PerCarriage α) (c : Carriage) :
    v.set c (v.get c) = v := by cases c <;> rfl

/-! ### Fields of updates -/

@[simp] theorem modSeq_pending (s : State) (c : Carriage) (f : Sequencer → Sequencer) :
    (s.modSeq c f).pending = s.pending := rfl
@[simp] theorem modSeq_link (s : State) (c : Carriage) (f : Sequencer → Sequencer) :
    (s.modSeq c f).link = s.link := rfl
@[simp] theorem modSeq_cell (s : State) (c : Carriage) (f : Sequencer → Sequencer) :
    (s.modSeq c f).cell = s.cell := rfl
@[simp] theorem modSeq_stackRecs (s : State) (c : Carriage) (f : Sequencer → Sequencer) :
    (s.modSeq c f).stackRecs = s.stackRecs := rfl
@[simp] theorem modSeq_counters (s : State) (c : Carriage) (f : Sequencer → Sequencer) :
    (s.modSeq c f).counters = s.counters := rfl
@[simp] theorem modSeq_queue (s : State) (c : Carriage) (f : Sequencer → Sequencer) :
    (s.modSeq c f).queue = s.queue := rfl
@[simp] theorem modSeq_seq (s : State) (c : Carriage) (f : Sequencer → Sequencer) :
    (s.modSeq c f).seq = s.seq.set c (f (s.sq c)) := rfl
@[simp] theorem modSeq_port (s : State) (c : Carriage) (f : Sequencer → Sequencer) :
    (s.modSeq c f).port = s.port := rfl
@[simp] theorem modSeq_arb (s : State) (c : Carriage) (f : Sequencer → Sequencer) :
    (s.modSeq c f).arb = s.arb := rfl
@[simp] theorem modSeq_saws (s : State) (c : Carriage) (f : Sequencer → Sequencer) :
    (s.modSeq c f).saws = s.saws := rfl
@[simp] theorem modSeq_events (s : State) (c : Carriage) (f : Sequencer → Sequencer) :
    (s.modSeq c f).events = s.events := rfl
@[simp] theorem modSeq_lines (s : State) (c : Carriage) (f : Sequencer → Sequencer) :
    (s.modSeq c f).lines = s.lines := rfl
@[simp] theorem modSeq_todo (s : State) (c : Carriage) (f : Sequencer → Sequencer) :
    (s.modSeq c f).todo = s.todo := rfl
@[simp] theorem modSeq_free (s : State) (c : Carriage) (f : Sequencer → Sequencer) :
    (s.modSeq c f).free = s.free := rfl

@[simp] theorem modPort_pending (s : State) (c : Carriage) (f : DrivePort → DrivePort) :
    (s.modPort c f).pending = s.pending := rfl
@[simp] theorem modPort_link (s : State) (c : Carriage) (f : DrivePort → DrivePort) :
    (s.modPort c f).link = s.link := rfl
@[simp] theorem modPort_cell (s : State) (c : Carriage) (f : DrivePort → DrivePort) :
    (s.modPort c f).cell = s.cell := rfl
@[simp] theorem modPort_stackRecs (s : State) (c : Carriage) (f : DrivePort → DrivePort) :
    (s.modPort c f).stackRecs = s.stackRecs := rfl
@[simp] theorem modPort_counters (s : State) (c : Carriage) (f : DrivePort → DrivePort) :
    (s.modPort c f).counters = s.counters := rfl
@[simp] theorem modPort_queue (s : State) (c : Carriage) (f : DrivePort → DrivePort) :
    (s.modPort c f).queue = s.queue := rfl
@[simp] theorem modPort_seq (s : State) (c : Carriage) (f : DrivePort → DrivePort) :
    (s.modPort c f).seq = s.seq := rfl
@[simp] theorem modPort_port (s : State) (c : Carriage) (f : DrivePort → DrivePort) :
    (s.modPort c f).port = s.port.set c (f (s.pt c)) := rfl
@[simp] theorem modPort_arb (s : State) (c : Carriage) (f : DrivePort → DrivePort) :
    (s.modPort c f).arb = s.arb := rfl
@[simp] theorem modPort_saws (s : State) (c : Carriage) (f : DrivePort → DrivePort) :
    (s.modPort c f).saws = s.saws := rfl
@[simp] theorem modPort_events (s : State) (c : Carriage) (f : DrivePort → DrivePort) :
    (s.modPort c f).events = s.events := rfl
@[simp] theorem modPort_lines (s : State) (c : Carriage) (f : DrivePort → DrivePort) :
    (s.modPort c f).lines = s.lines := rfl
@[simp] theorem modPort_todo (s : State) (c : Carriage) (f : DrivePort → DrivePort) :
    (s.modPort c f).todo = s.todo := rfl
@[simp] theorem modPort_free (s : State) (c : Carriage) (f : DrivePort → DrivePort) :
    (s.modPort c f).free = s.free := rfl

@[simp] theorem modRec_pending (s : State) (c : Carriage) (f : ArbRecord → ArbRecord) :
    (s.modRec c f).pending = s.pending := rfl
@[simp] theorem modRec_link (s : State) (c : Carriage) (f : ArbRecord → ArbRecord) :
    (s.modRec c f).link = s.link := rfl
@[simp] theorem modRec_cell (s : State) (c : Carriage) (f : ArbRecord → ArbRecord) :
    (s.modRec c f).cell = s.cell := rfl
@[simp] theorem modRec_stackRecs (s : State) (c : Carriage) (f : ArbRecord → ArbRecord) :
    (s.modRec c f).stackRecs = s.stackRecs := rfl
@[simp] theorem modRec_counters (s : State) (c : Carriage) (f : ArbRecord → ArbRecord) :
    (s.modRec c f).counters = s.counters := rfl
@[simp] theorem modRec_queue (s : State) (c : Carriage) (f : ArbRecord → ArbRecord) :
    (s.modRec c f).queue = s.queue := rfl
@[simp] theorem modRec_seq (s : State) (c : Carriage) (f : ArbRecord → ArbRecord) :
    (s.modRec c f).seq = s.seq := rfl
@[simp] theorem modRec_port (s : State) (c : Carriage) (f : ArbRecord → ArbRecord) :
    (s.modRec c f).port = s.port := rfl
@[simp] theorem modRec_arb (s : State) (c : Carriage) (f : ArbRecord → ArbRecord) :
    (s.modRec c f).arb = { s.arb with records := s.arb.records.set c (f (s.arec c)) } := rfl
@[simp] theorem modRec_saws (s : State) (c : Carriage) (f : ArbRecord → ArbRecord) :
    (s.modRec c f).saws = s.saws := rfl
@[simp] theorem modRec_events (s : State) (c : Carriage) (f : ArbRecord → ArbRecord) :
    (s.modRec c f).events = s.events := rfl
@[simp] theorem modRec_lines (s : State) (c : Carriage) (f : ArbRecord → ArbRecord) :
    (s.modRec c f).lines = s.lines := rfl
@[simp] theorem modRec_todo (s : State) (c : Carriage) (f : ArbRecord → ArbRecord) :
    (s.modRec c f).todo = s.todo := rfl
@[simp] theorem modRec_free (s : State) (c : Carriage) (f : ArbRecord → ArbRecord) :
    (s.modRec c f).free = s.free := rfl

@[simp] theorem modSaw_pending (s : State) (w : Saw) (f : SawStation → SawStation) :
    (s.modSaw w f).pending = s.pending := rfl
@[simp] theorem modSaw_link (s : State) (w : Saw) (f : SawStation → SawStation) :
    (s.modSaw w f).link = s.link := rfl
@[simp] theorem modSaw_cell (s : State) (w : Saw) (f : SawStation → SawStation) :
    (s.modSaw w f).cell = s.cell := rfl
@[simp] theorem modSaw_stackRecs (s : State) (w : Saw) (f : SawStation → SawStation) :
    (s.modSaw w f).stackRecs = s.stackRecs := rfl
@[simp] theorem modSaw_counters (s : State) (w : Saw) (f : SawStation → SawStation) :
    (s.modSaw w f).counters = s.counters := rfl
@[simp] theorem modSaw_queue (s : State) (w : Saw) (f : SawStation → SawStation) :
    (s.modSaw w f).queue = s.queue := rfl
@[simp] theorem modSaw_seq (s : State) (w : Saw) (f : SawStation → SawStation) :
    (s.modSaw w f).seq = s.seq := rfl
@[simp] theorem modSaw_port (s : State) (w : Saw) (f : SawStation → SawStation) :
    (s.modSaw w f).port = s.port := rfl
@[simp] theorem modSaw_arb (s : State) (w : Saw) (f : SawStation → SawStation) :
    (s.modSaw w f).arb = s.arb := rfl
@[simp] theorem modSaw_saws (s : State) (w : Saw) (f : SawStation → SawStation) :
    (s.modSaw w f).saws = s.saws.set w.val (f s.saws[w]) := rfl
@[simp] theorem modSaw_events (s : State) (w : Saw) (f : SawStation → SawStation) :
    (s.modSaw w f).events = s.events := rfl
@[simp] theorem modSaw_lines (s : State) (w : Saw) (f : SawStation → SawStation) :
    (s.modSaw w f).lines = s.lines := rfl
@[simp] theorem modSaw_todo (s : State) (w : Saw) (f : SawStation → SawStation) :
    (s.modSaw w f).todo = s.todo := rfl
@[simp] theorem modSaw_free (s : State) (w : Saw) (f : SawStation → SawStation) :
    (s.modSaw w f).free = s.free := rfl

@[simp] theorem modLink_pending (s : State) (f : HostLink → HostLink) :
    (s.modLink f).pending = s.pending := rfl
@[simp] theorem modLink_link (s : State) (f : HostLink → HostLink) :
    (s.modLink f).link = f s.link := rfl
@[simp] theorem modLink_cell (s : State) (f : HostLink → HostLink) :
    (s.modLink f).cell = s.cell := rfl
@[simp] theorem modLink_stackRecs (s : State) (f : HostLink → HostLink) :
    (s.modLink f).stackRecs = s.stackRecs := rfl
@[simp] theorem modLink_counters (s : State) (f : HostLink → HostLink) :
    (s.modLink f).counters = s.counters := rfl
@[simp] theorem modLink_queue (s : State) (f : HostLink → HostLink) :
    (s.modLink f).queue = s.queue := rfl
@[simp] theorem modLink_seq (s : State) (f : HostLink → HostLink) : (s.modLink f).seq = s.seq := rfl
@[simp] theorem modLink_port (s : State) (f : HostLink → HostLink) :
    (s.modLink f).port = s.port := rfl
@[simp] theorem modLink_arb (s : State) (f : HostLink → HostLink) : (s.modLink f).arb = s.arb := rfl
@[simp] theorem modLink_saws (s : State) (f : HostLink → HostLink) :
    (s.modLink f).saws = s.saws := rfl
@[simp] theorem modLink_events (s : State) (f : HostLink → HostLink) :
    (s.modLink f).events = s.events := rfl
@[simp] theorem modLink_lines (s : State) (f : HostLink → HostLink) :
    (s.modLink f).lines = s.lines := rfl
@[simp] theorem modLink_todo (s : State) (f : HostLink → HostLink) :
    (s.modLink f).todo = s.todo := rfl
@[simp] theorem modLink_free (s : State) (f : HostLink → HostLink) :
    (s.modLink f).free = s.free := rfl

@[simp] theorem modCell_pending (s : State) (f : CellMap → CellMap) :
    (s.modCell f).pending = s.pending := rfl
@[simp] theorem modCell_link (s : State) (f : CellMap → CellMap) :
    (s.modCell f).link = s.link := rfl
@[simp] theorem modCell_cell (s : State) (f : CellMap → CellMap) :
    (s.modCell f).cell = f s.cell := rfl
@[simp] theorem modCell_stackRecs (s : State) (f : CellMap → CellMap) :
    (s.modCell f).stackRecs = s.stackRecs := rfl
@[simp] theorem modCell_counters (s : State) (f : CellMap → CellMap) :
    (s.modCell f).counters = s.counters := rfl
@[simp] theorem modCell_queue (s : State) (f : CellMap → CellMap) :
    (s.modCell f).queue = s.queue := rfl
@[simp] theorem modCell_seq (s : State) (f : CellMap → CellMap) : (s.modCell f).seq = s.seq := rfl
@[simp] theorem modCell_port (s : State) (f : CellMap → CellMap) :
    (s.modCell f).port = s.port := rfl
@[simp] theorem modCell_arb (s : State) (f : CellMap → CellMap) : (s.modCell f).arb = s.arb := rfl
@[simp] theorem modCell_saws (s : State) (f : CellMap → CellMap) :
    (s.modCell f).saws = s.saws := rfl
@[simp] theorem modCell_events (s : State) (f : CellMap → CellMap) :
    (s.modCell f).events = s.events := rfl
@[simp] theorem modCell_lines (s : State) (f : CellMap → CellMap) :
    (s.modCell f).lines = s.lines := rfl
@[simp] theorem modCell_todo (s : State) (f : CellMap → CellMap) :
    (s.modCell f).todo = s.todo := rfl
@[simp] theorem modCell_free (s : State) (f : CellMap → CellMap) :
    (s.modCell f).free = s.free := rfl

@[simp] theorem modCounters_pending (s : State) (f : Counters → Counters) :
    (s.modCounters f).pending = s.pending := rfl
@[simp] theorem modCounters_link (s : State) (f : Counters → Counters) :
    (s.modCounters f).link = s.link := rfl
@[simp] theorem modCounters_cell (s : State) (f : Counters → Counters) :
    (s.modCounters f).cell = s.cell := rfl
@[simp] theorem modCounters_stackRecs (s : State) (f : Counters → Counters) :
    (s.modCounters f).stackRecs = s.stackRecs := rfl
@[simp] theorem modCounters_counters (s : State) (f : Counters → Counters) :
    (s.modCounters f).counters = f s.counters := rfl
@[simp] theorem modCounters_queue (s : State) (f : Counters → Counters) :
    (s.modCounters f).queue = s.queue := rfl
@[simp] theorem modCounters_seq (s : State) (f : Counters → Counters) :
    (s.modCounters f).seq = s.seq := rfl
@[simp] theorem modCounters_port (s : State) (f : Counters → Counters) :
    (s.modCounters f).port = s.port := rfl
@[simp] theorem modCounters_arb (s : State) (f : Counters → Counters) :
    (s.modCounters f).arb = s.arb := rfl
@[simp] theorem modCounters_saws (s : State) (f : Counters → Counters) :
    (s.modCounters f).saws = s.saws := rfl
@[simp] theorem modCounters_events (s : State) (f : Counters → Counters) :
    (s.modCounters f).events = s.events := rfl
@[simp] theorem modCounters_lines (s : State) (f : Counters → Counters) :
    (s.modCounters f).lines = s.lines := rfl
@[simp] theorem modCounters_todo (s : State) (f : Counters → Counters) :
    (s.modCounters f).todo = s.todo := rfl
@[simp] theorem modCounters_free (s : State) (f : Counters → Counters) :
    (s.modCounters f).free = s.free := rfl

@[simp] theorem mapZones_pending (s : State) (f : Nat → ZoneRec → ZoneRec) :
    (s.mapZones f).pending = s.pending := rfl
@[simp] theorem mapZones_link (s : State) (f : Nat → ZoneRec → ZoneRec) :
    (s.mapZones f).link = s.link := rfl
@[simp] theorem mapZones_cell (s : State) (f : Nat → ZoneRec → ZoneRec) :
    (s.mapZones f).cell = s.cell := rfl
@[simp] theorem mapZones_stackRecs (s : State) (f : Nat → ZoneRec → ZoneRec) :
    (s.mapZones f).stackRecs = s.stackRecs := rfl
@[simp] theorem mapZones_counters (s : State) (f : Nat → ZoneRec → ZoneRec) :
    (s.mapZones f).counters = s.counters := rfl
@[simp] theorem mapZones_queue (s : State) (f : Nat → ZoneRec → ZoneRec) :
    (s.mapZones f).queue = s.queue := rfl
@[simp] theorem mapZones_seq (s : State) (f : Nat → ZoneRec → ZoneRec) :
    (s.mapZones f).seq = s.seq := rfl
@[simp] theorem mapZones_port (s : State) (f : Nat → ZoneRec → ZoneRec) :
    (s.mapZones f).port = s.port := rfl
@[simp] theorem mapZones_arb (s : State) (f : Nat → ZoneRec → ZoneRec) :
    (s.mapZones f).arb = { s.arb with zones := Vector.ofFn fun z : Fin 16 => f z.val s.arb.zones[z] } := rfl
@[simp] theorem mapZones_saws (s : State) (f : Nat → ZoneRec → ZoneRec) :
    (s.mapZones f).saws = s.saws := rfl
@[simp] theorem mapZones_events (s : State) (f : Nat → ZoneRec → ZoneRec) :
    (s.mapZones f).events = s.events := rfl
@[simp] theorem mapZones_lines (s : State) (f : Nat → ZoneRec → ZoneRec) :
    (s.mapZones f).lines = s.lines := rfl
@[simp] theorem mapZones_todo (s : State) (f : Nat → ZoneRec → ZoneRec) :
    (s.mapZones f).todo = s.todo := rfl
@[simp] theorem mapZones_free (s : State) (f : Nat → ZoneRec → ZoneRec) :
    (s.mapZones f).free = s.free := rfl

@[simp] theorem modGate_pending (s : State) (g : Gate) (f : GateRec → GateRec) :
    (s.modGate g f).pending = s.pending := rfl
@[simp] theorem modGate_link (s : State) (g : Gate) (f : GateRec → GateRec) :
    (s.modGate g f).link = s.link := rfl
@[simp] theorem modGate_cell (s : State) (g : Gate) (f : GateRec → GateRec) :
    (s.modGate g f).cell = s.cell := rfl
@[simp] theorem modGate_stackRecs (s : State) (g : Gate) (f : GateRec → GateRec) :
    (s.modGate g f).stackRecs = s.stackRecs := rfl
@[simp] theorem modGate_counters (s : State) (g : Gate) (f : GateRec → GateRec) :
    (s.modGate g f).counters = s.counters := rfl
@[simp] theorem modGate_queue (s : State) (g : Gate) (f : GateRec → GateRec) :
    (s.modGate g f).queue = s.queue := rfl
@[simp] theorem modGate_seq (s : State) (g : Gate) (f : GateRec → GateRec) :
    (s.modGate g f).seq = s.seq := rfl
@[simp] theorem modGate_port (s : State) (g : Gate) (f : GateRec → GateRec) :
    (s.modGate g f).port = s.port := rfl
@[simp] theorem modGate_arb (s : State) (g : Gate) (f : GateRec → GateRec) :
    (s.modGate g f).arb = { s.arb with gates := s.arb.gates.set g.val (f s.arb.gates[g]) } := rfl
@[simp] theorem modGate_saws (s : State) (g : Gate) (f : GateRec → GateRec) :
    (s.modGate g f).saws = s.saws := rfl
@[simp] theorem modGate_events (s : State) (g : Gate) (f : GateRec → GateRec) :
    (s.modGate g f).events = s.events := rfl
@[simp] theorem modGate_lines (s : State) (g : Gate) (f : GateRec → GateRec) :
    (s.modGate g f).lines = s.lines := rfl
@[simp] theorem modGate_todo (s : State) (g : Gate) (f : GateRec → GateRec) :
    (s.modGate g f).todo = s.todo := rfl
@[simp] theorem modGate_free (s : State) (g : Gate) (f : GateRec → GateRec) :
    (s.modGate g f).free = s.free := rfl

@[simp] theorem modStack_pending (s : State) (p : Place) (f : StackRec → StackRec) :
    (s.modStack p f).pending = s.pending := rfl
@[simp] theorem modStack_link (s : State) (p : Place) (f : StackRec → StackRec) :
    (s.modStack p f).link = s.link := rfl
@[simp] theorem modStack_cell (s : State) (p : Place) (f : StackRec → StackRec) :
    (s.modStack p f).cell = s.cell := rfl
@[simp] theorem modStack_stackRecs (s : State) (p : Place) (f : StackRec → StackRec) :
    (s.modStack p f).stackRecs = s.stackRecs.set p.val (s.stackRecs[p].map f) := rfl
@[simp] theorem modStack_counters (s : State) (p : Place) (f : StackRec → StackRec) :
    (s.modStack p f).counters = s.counters := rfl
@[simp] theorem modStack_queue (s : State) (p : Place) (f : StackRec → StackRec) :
    (s.modStack p f).queue = s.queue := rfl
@[simp] theorem modStack_seq (s : State) (p : Place) (f : StackRec → StackRec) :
    (s.modStack p f).seq = s.seq := rfl
@[simp] theorem modStack_port (s : State) (p : Place) (f : StackRec → StackRec) :
    (s.modStack p f).port = s.port := rfl
@[simp] theorem modStack_arb (s : State) (p : Place) (f : StackRec → StackRec) :
    (s.modStack p f).arb = s.arb := rfl
@[simp] theorem modStack_saws (s : State) (p : Place) (f : StackRec → StackRec) :
    (s.modStack p f).saws = s.saws := rfl
@[simp] theorem modStack_events (s : State) (p : Place) (f : StackRec → StackRec) :
    (s.modStack p f).events = s.events := rfl
@[simp] theorem modStack_lines (s : State) (p : Place) (f : StackRec → StackRec) :
    (s.modStack p f).lines = s.lines := rfl
@[simp] theorem modStack_todo (s : State) (p : Place) (f : StackRec → StackRec) :
    (s.modStack p f).todo = s.todo := rfl
@[simp] theorem modStack_free (s : State) (p : Place) (f : StackRec → StackRec) :
    (s.modStack p f).free = s.free := rfl

@[simp] theorem putStack_pending (s : State) (p : Place) (r : Option StackRec) :
    (s.putStack p r).pending = s.pending := rfl
@[simp] theorem putStack_link (s : State) (p : Place) (r : Option StackRec) :
    (s.putStack p r).link = s.link := rfl
@[simp] theorem putStack_cell (s : State) (p : Place) (r : Option StackRec) :
    (s.putStack p r).cell = s.cell := rfl
@[simp] theorem putStack_stackRecs (s : State) (p : Place) (r : Option StackRec) :
    (s.putStack p r).stackRecs = s.stackRecs.set p.val r := rfl
@[simp] theorem putStack_counters (s : State) (p : Place) (r : Option StackRec) :
    (s.putStack p r).counters = s.counters := rfl
@[simp] theorem putStack_queue (s : State) (p : Place) (r : Option StackRec) :
    (s.putStack p r).queue = s.queue := rfl
@[simp] theorem putStack_seq (s : State) (p : Place) (r : Option StackRec) :
    (s.putStack p r).seq = s.seq := rfl
@[simp] theorem putStack_port (s : State) (p : Place) (r : Option StackRec) :
    (s.putStack p r).port = s.port := rfl
@[simp] theorem putStack_arb (s : State) (p : Place) (r : Option StackRec) :
    (s.putStack p r).arb = s.arb := rfl
@[simp] theorem putStack_saws (s : State) (p : Place) (r : Option StackRec) :
    (s.putStack p r).saws = s.saws := rfl
@[simp] theorem putStack_events (s : State) (p : Place) (r : Option StackRec) :
    (s.putStack p r).events = s.events := rfl
@[simp] theorem putStack_lines (s : State) (p : Place) (r : Option StackRec) :
    (s.putStack p r).lines = s.lines := rfl
@[simp] theorem putStack_todo (s : State) (p : Place) (r : Option StackRec) :
    (s.putStack p r).todo = s.todo := rfl
@[simp] theorem putStack_free (s : State) (p : Place) (r : Option StackRec) :
    (s.putStack p r).free = s.free := rfl

@[simp] theorem modReturn_pending (s : State) (w : Saw) (f : ReturnEntry → ReturnEntry) :
    (s.modReturn w f).pending = s.pending := rfl
@[simp] theorem modReturn_link (s : State) (w : Saw) (f : ReturnEntry → ReturnEntry) :
    (s.modReturn w f).link = s.link := rfl
@[simp] theorem modReturn_cell (s : State) (w : Saw) (f : ReturnEntry → ReturnEntry) :
    (s.modReturn w f).cell = s.cell := rfl
@[simp] theorem modReturn_stackRecs (s : State) (w : Saw) (f : ReturnEntry → ReturnEntry) :
    (s.modReturn w f).stackRecs = s.stackRecs := rfl
@[simp] theorem modReturn_counters (s : State) (w : Saw) (f : ReturnEntry → ReturnEntry) :
    (s.modReturn w f).counters = s.counters := rfl
@[simp] theorem modReturn_queue (s : State) (w : Saw) (f : ReturnEntry → ReturnEntry) :
    (s.modReturn w f).queue = { s.queue with returns := s.queue.returns.set w.val (s.queue.returns[w].map f) } := rfl
@[simp] theorem modReturn_seq (s : State) (w : Saw) (f : ReturnEntry → ReturnEntry) :
    (s.modReturn w f).seq = s.seq := rfl
@[simp] theorem modReturn_port (s : State) (w : Saw) (f : ReturnEntry → ReturnEntry) :
    (s.modReturn w f).port = s.port := rfl
@[simp] theorem modReturn_arb (s : State) (w : Saw) (f : ReturnEntry → ReturnEntry) :
    (s.modReturn w f).arb = s.arb := rfl
@[simp] theorem modReturn_saws (s : State) (w : Saw) (f : ReturnEntry → ReturnEntry) :
    (s.modReturn w f).saws = s.saws := rfl
@[simp] theorem modReturn_events (s : State) (w : Saw) (f : ReturnEntry → ReturnEntry) :
    (s.modReturn w f).events = s.events := rfl
@[simp] theorem modReturn_lines (s : State) (w : Saw) (f : ReturnEntry → ReturnEntry) :
    (s.modReturn w f).lines = s.lines := rfl
@[simp] theorem modReturn_todo (s : State) (w : Saw) (f : ReturnEntry → ReturnEntry) :
    (s.modReturn w f).todo = s.todo := rfl
@[simp] theorem modReturn_free (s : State) (w : Saw) (f : ReturnEntry → ReturnEntry) :
    (s.modReturn w f).free = s.free := rfl

@[simp] theorem putReturn_pending (s : State) (w : Saw) (r : Option ReturnEntry) :
    (s.putReturn w r).pending = s.pending := rfl
@[simp] theorem putReturn_link (s : State) (w : Saw) (r : Option ReturnEntry) :
    (s.putReturn w r).link = s.link := rfl
@[simp] theorem putReturn_cell (s : State) (w : Saw) (r : Option ReturnEntry) :
    (s.putReturn w r).cell = s.cell := rfl
@[simp] theorem putReturn_stackRecs (s : State) (w : Saw) (r : Option ReturnEntry) :
    (s.putReturn w r).stackRecs = s.stackRecs := rfl
@[simp] theorem putReturn_counters (s : State) (w : Saw) (r : Option ReturnEntry) :
    (s.putReturn w r).counters = s.counters := rfl
@[simp] theorem putReturn_queue (s : State) (w : Saw) (r : Option ReturnEntry) :
    (s.putReturn w r).queue = { s.queue with returns := s.queue.returns.set w.val r } := rfl
@[simp] theorem putReturn_seq (s : State) (w : Saw) (r : Option ReturnEntry) :
    (s.putReturn w r).seq = s.seq := rfl
@[simp] theorem putReturn_port (s : State) (w : Saw) (r : Option ReturnEntry) :
    (s.putReturn w r).port = s.port := rfl
@[simp] theorem putReturn_arb (s : State) (w : Saw) (r : Option ReturnEntry) :
    (s.putReturn w r).arb = s.arb := rfl
@[simp] theorem putReturn_saws (s : State) (w : Saw) (r : Option ReturnEntry) :
    (s.putReturn w r).saws = s.saws := rfl
@[simp] theorem putReturn_events (s : State) (w : Saw) (r : Option ReturnEntry) :
    (s.putReturn w r).events = s.events := rfl
@[simp] theorem putReturn_lines (s : State) (w : Saw) (r : Option ReturnEntry) :
    (s.putReturn w r).lines = s.lines := rfl
@[simp] theorem putReturn_todo (s : State) (w : Saw) (r : Option ReturnEntry) :
    (s.putReturn w r).todo = s.todo := rfl
@[simp] theorem putReturn_free (s : State) (w : Saw) (r : Option ReturnEntry) :
    (s.putReturn w r).free = s.free := rfl

@[simp] theorem mapOrders_pending (s : State) (p : OrderEntry → Bool) (f : OrderEntry → OrderEntry) :
    (s.mapOrders p f).pending = s.pending := rfl
@[simp] theorem mapOrders_link (s : State) (p : OrderEntry → Bool) (f : OrderEntry → OrderEntry) :
    (s.mapOrders p f).link = s.link := rfl
@[simp] theorem mapOrders_cell (s : State) (p : OrderEntry → Bool) (f : OrderEntry → OrderEntry) :
    (s.mapOrders p f).cell = s.cell := rfl
@[simp] theorem mapOrders_stackRecs (s : State) (p : OrderEntry → Bool) (f : OrderEntry → OrderEntry) :
    (s.mapOrders p f).stackRecs = s.stackRecs := rfl
@[simp] theorem mapOrders_counters (s : State) (p : OrderEntry → Bool) (f : OrderEntry → OrderEntry) :
    (s.mapOrders p f).counters = s.counters := rfl
@[simp] theorem mapOrders_queue (s : State) (p : OrderEntry → Bool) (f : OrderEntry → OrderEntry) :
    (s.mapOrders p f).queue = { s.queue with entries := s.queue.entries.map fun e => if p e then f e else e } := rfl
@[simp] theorem mapOrders_seq (s : State) (p : OrderEntry → Bool) (f : OrderEntry → OrderEntry) :
    (s.mapOrders p f).seq = s.seq := rfl
@[simp] theorem mapOrders_port (s : State) (p : OrderEntry → Bool) (f : OrderEntry → OrderEntry) :
    (s.mapOrders p f).port = s.port := rfl
@[simp] theorem mapOrders_arb (s : State) (p : OrderEntry → Bool) (f : OrderEntry → OrderEntry) :
    (s.mapOrders p f).arb = s.arb := rfl
@[simp] theorem mapOrders_saws (s : State) (p : OrderEntry → Bool) (f : OrderEntry → OrderEntry) :
    (s.mapOrders p f).saws = s.saws := rfl
@[simp] theorem mapOrders_events (s : State) (p : OrderEntry → Bool) (f : OrderEntry → OrderEntry) :
    (s.mapOrders p f).events = s.events := rfl
@[simp] theorem mapOrders_lines (s : State) (p : OrderEntry → Bool) (f : OrderEntry → OrderEntry) :
    (s.mapOrders p f).lines = s.lines := rfl
@[simp] theorem mapOrders_todo (s : State) (p : OrderEntry → Bool) (f : OrderEntry → OrderEntry) :
    (s.mapOrders p f).todo = s.todo := rfl
@[simp] theorem mapOrders_free (s : State) (p : OrderEntry → Bool) (f : OrderEntry → OrderEntry) :
    (s.mapOrders p f).free = s.free := rfl

@[simp] theorem dropOrder_pending (s : State) (n : Nat) : (s.dropOrder n).pending = s.pending := rfl
@[simp] theorem dropOrder_link (s : State) (n : Nat) : (s.dropOrder n).link = s.link := rfl
@[simp] theorem dropOrder_cell (s : State) (n : Nat) : (s.dropOrder n).cell = s.cell := rfl
@[simp] theorem dropOrder_stackRecs (s : State) (n : Nat) :
    (s.dropOrder n).stackRecs = s.stackRecs := rfl
@[simp] theorem dropOrder_counters (s : State) (n : Nat) :
    (s.dropOrder n).counters = s.counters := rfl
@[simp] theorem dropOrder_queue (s : State) (n : Nat) :
    (s.dropOrder n).queue = { s.queue with entries := s.queue.entries.filter fun e => e.number ≠ n } := rfl
@[simp] theorem dropOrder_seq (s : State) (n : Nat) : (s.dropOrder n).seq = s.seq := rfl
@[simp] theorem dropOrder_port (s : State) (n : Nat) : (s.dropOrder n).port = s.port := rfl
@[simp] theorem dropOrder_arb (s : State) (n : Nat) : (s.dropOrder n).arb = s.arb := rfl
@[simp] theorem dropOrder_saws (s : State) (n : Nat) : (s.dropOrder n).saws = s.saws := rfl
@[simp] theorem dropOrder_events (s : State) (n : Nat) : (s.dropOrder n).events = s.events := rfl
@[simp] theorem dropOrder_lines (s : State) (n : Nat) : (s.dropOrder n).lines = s.lines := rfl
@[simp] theorem dropOrder_todo (s : State) (n : Nat) : (s.dropOrder n).todo = s.todo := rfl
@[simp] theorem dropOrder_free (s : State) (n : Nat) : (s.dropOrder n).free = s.free := rfl

@[simp] theorem queueFrame_pending (s : State) (f : Frame) :
    (s.queueFrame f).pending = s.pending := rfl
@[simp] theorem queueFrame_link (s : State) (f : Frame) :
    (s.queueFrame f).link = { s.link with outbound := s.link.outbound ++ [f] } := rfl
@[simp] theorem queueFrame_cell (s : State) (f : Frame) : (s.queueFrame f).cell = s.cell := rfl
@[simp] theorem queueFrame_stackRecs (s : State) (f : Frame) :
    (s.queueFrame f).stackRecs = s.stackRecs := rfl
@[simp] theorem queueFrame_counters (s : State) (f : Frame) :
    (s.queueFrame f).counters = s.counters := rfl
@[simp] theorem queueFrame_queue (s : State) (f : Frame) : (s.queueFrame f).queue = s.queue := rfl
@[simp] theorem queueFrame_seq (s : State) (f : Frame) : (s.queueFrame f).seq = s.seq := rfl
@[simp] theorem queueFrame_port (s : State) (f : Frame) : (s.queueFrame f).port = s.port := rfl
@[simp] theorem queueFrame_arb (s : State) (f : Frame) : (s.queueFrame f).arb = s.arb := rfl
@[simp] theorem queueFrame_saws (s : State) (f : Frame) : (s.queueFrame f).saws = s.saws := rfl
@[simp] theorem queueFrame_events (s : State) (f : Frame) :
    (s.queueFrame f).events = s.events := rfl
@[simp] theorem queueFrame_lines (s : State) (f : Frame) : (s.queueFrame f).lines = s.lines := rfl
@[simp] theorem queueFrame_todo (s : State) (f : Frame) : (s.queueFrame f).todo = s.todo := rfl
@[simp] theorem queueFrame_free (s : State) (f : Frame) : (s.queueFrame f).free = s.free := rfl

@[simp] theorem clearEvents_pending (s : State) (p : EventEntry → Bool) :
    (s.clearEvents p).pending = s.pending := rfl
@[simp] theorem clearEvents_link (s : State) (p : EventEntry → Bool) :
    (s.clearEvents p).link = s.link := rfl
@[simp] theorem clearEvents_cell (s : State) (p : EventEntry → Bool) :
    (s.clearEvents p).cell = s.cell := rfl
@[simp] theorem clearEvents_stackRecs (s : State) (p : EventEntry → Bool) :
    (s.clearEvents p).stackRecs = s.stackRecs := rfl
@[simp] theorem clearEvents_counters (s : State) (p : EventEntry → Bool) :
    (s.clearEvents p).counters = s.counters := rfl
@[simp] theorem clearEvents_queue (s : State) (p : EventEntry → Bool) :
    (s.clearEvents p).queue = s.queue := rfl
@[simp] theorem clearEvents_seq (s : State) (p : EventEntry → Bool) :
    (s.clearEvents p).seq = s.seq := rfl
@[simp] theorem clearEvents_port (s : State) (p : EventEntry → Bool) :
    (s.clearEvents p).port = s.port := rfl
@[simp] theorem clearEvents_arb (s : State) (p : EventEntry → Bool) :
    (s.clearEvents p).arb = s.arb := rfl
@[simp] theorem clearEvents_saws (s : State) (p : EventEntry → Bool) :
    (s.clearEvents p).saws = s.saws := rfl
@[simp] theorem clearEvents_events (s : State) (p : EventEntry → Bool) :
    (s.clearEvents p).events = { s.events with entries := s.events.entries.filter fun e => !p e } := rfl
@[simp] theorem clearEvents_lines (s : State) (p : EventEntry → Bool) :
    (s.clearEvents p).lines = s.lines := rfl
@[simp] theorem clearEvents_todo (s : State) (p : EventEntry → Bool) :
    (s.clearEvents p).todo = s.todo := rfl
@[simp] theorem clearEvents_free (s : State) (p : EventEntry → Bool) :
    (s.clearEvents p).free = s.free := rfl

@[simp] theorem dueExam_pending (s : State) : (s.dueExam).pending = s.pending := rfl
@[simp] theorem dueExam_link (s : State) : (s.dueExam).link = s.link := rfl
@[simp] theorem dueExam_cell (s : State) : (s.dueExam).cell = s.cell := rfl
@[simp] theorem dueExam_stackRecs (s : State) : (s.dueExam).stackRecs = s.stackRecs := rfl
@[simp] theorem dueExam_counters (s : State) : (s.dueExam).counters = s.counters := rfl
@[simp] theorem dueExam_queue (s : State) : (s.dueExam).queue = s.queue := rfl
@[simp] theorem dueExam_seq (s : State) : (s.dueExam).seq = s.seq := rfl
@[simp] theorem dueExam_port (s : State) : (s.dueExam).port = s.port := rfl
@[simp] theorem dueExam_arb (s : State) : (s.dueExam).arb = s.arb := rfl
@[simp] theorem dueExam_saws (s : State) : (s.dueExam).saws = s.saws := rfl
@[simp] theorem dueExam_events (s : State) : (s.dueExam).events = s.events := rfl
@[simp] theorem dueExam_lines (s : State) : (s.dueExam).lines = s.lines := rfl
@[simp] theorem dueExam_todo (s : State) : (s.dueExam).todo = { s.todo with exam := true } := rfl
@[simp] theorem dueExam_free (s : State) : (s.dueExam).free = s.free := rfl

@[simp] theorem drawn_pending (s : State) : (s.drawn).pending = s.pending := rfl
@[simp] theorem drawn_link (s : State) : (s.drawn).link = s.link := rfl
@[simp] theorem drawn_cell (s : State) : (s.drawn).cell = s.cell := rfl
@[simp] theorem drawn_stackRecs (s : State) : (s.drawn).stackRecs = s.stackRecs := rfl
@[simp] theorem drawn_counters (s : State) : (s.drawn).counters = s.counters := rfl
@[simp] theorem drawn_queue (s : State) : (s.drawn).queue = s.queue := rfl
@[simp] theorem drawn_seq (s : State) : (s.drawn).seq = s.seq := rfl
@[simp] theorem drawn_port (s : State) : (s.drawn).port = s.port := rfl
@[simp] theorem drawn_arb (s : State) : (s.drawn).arb = s.arb := rfl
@[simp] theorem drawn_saws (s : State) : (s.drawn).saws = s.saws := rfl
@[simp] theorem drawn_events (s : State) : (s.drawn).events = s.events := rfl
@[simp] theorem drawn_lines (s : State) : (s.drawn).lines = s.lines := rfl
@[simp] theorem drawn_todo (s : State) : (s.drawn).todo = s.todo := rfl
@[simp] theorem drawn_free (s : State) : (s.drawn).free = s.free + 1 := rfl

@[simp] theorem setCurtainLine_pending (s : State) (k : Curtain) (b : Bool) :
    (s.setCurtainLine k b).pending = s.pending := rfl
@[simp] theorem setCurtainLine_link (s : State) (k : Curtain) (b : Bool) :
    (s.setCurtainLine k b).link = s.link := rfl
@[simp] theorem setCurtainLine_cell (s : State) (k : Curtain) (b : Bool) :
    (s.setCurtainLine k b).cell = s.cell := rfl
@[simp] theorem setCurtainLine_stackRecs (s : State) (k : Curtain) (b : Bool) :
    (s.setCurtainLine k b).stackRecs = s.stackRecs := rfl
@[simp] theorem setCurtainLine_counters (s : State) (k : Curtain) (b : Bool) :
    (s.setCurtainLine k b).counters = s.counters := rfl
@[simp] theorem setCurtainLine_queue (s : State) (k : Curtain) (b : Bool) :
    (s.setCurtainLine k b).queue = s.queue := rfl
@[simp] theorem setCurtainLine_seq (s : State) (k : Curtain) (b : Bool) :
    (s.setCurtainLine k b).seq = s.seq := rfl
@[simp] theorem setCurtainLine_port (s : State) (k : Curtain) (b : Bool) :
    (s.setCurtainLine k b).port = s.port := rfl
@[simp] theorem setCurtainLine_arb (s : State) (k : Curtain) (b : Bool) :
    (s.setCurtainLine k b).arb = s.arb := rfl
@[simp] theorem setCurtainLine_saws (s : State) (k : Curtain) (b : Bool) :
    (s.setCurtainLine k b).saws = s.saws := rfl
@[simp] theorem setCurtainLine_events (s : State) (k : Curtain) (b : Bool) :
    (s.setCurtainLine k b).events = s.events := rfl
@[simp] theorem setCurtainLine_lines (s : State) (k : Curtain) (b : Bool) :
    (s.setCurtainLine k b).lines = { s.lines with curtain := s.lines.curtain.set k.val b } := rfl
@[simp] theorem setCurtainLine_todo (s : State) (k : Curtain) (b : Bool) :
    (s.setCurtainLine k b).todo = s.todo := rfl
@[simp] theorem setCurtainLine_free (s : State) (k : Curtain) (b : Bool) :
    (s.setCurtainLine k b).free = s.free := rfl

@[simp] theorem setAccessLine_pending (s : State) (g : Gate) (b : Bool) :
    (s.setAccessLine g b).pending = s.pending := rfl
@[simp] theorem setAccessLine_link (s : State) (g : Gate) (b : Bool) :
    (s.setAccessLine g b).link = s.link := rfl
@[simp] theorem setAccessLine_cell (s : State) (g : Gate) (b : Bool) :
    (s.setAccessLine g b).cell = s.cell := rfl
@[simp] theorem setAccessLine_stackRecs (s : State) (g : Gate) (b : Bool) :
    (s.setAccessLine g b).stackRecs = s.stackRecs := rfl
@[simp] theorem setAccessLine_counters (s : State) (g : Gate) (b : Bool) :
    (s.setAccessLine g b).counters = s.counters := rfl
@[simp] theorem setAccessLine_queue (s : State) (g : Gate) (b : Bool) :
    (s.setAccessLine g b).queue = s.queue := rfl
@[simp] theorem setAccessLine_seq (s : State) (g : Gate) (b : Bool) :
    (s.setAccessLine g b).seq = s.seq := rfl
@[simp] theorem setAccessLine_port (s : State) (g : Gate) (b : Bool) :
    (s.setAccessLine g b).port = s.port := rfl
@[simp] theorem setAccessLine_arb (s : State) (g : Gate) (b : Bool) :
    (s.setAccessLine g b).arb = s.arb := rfl
@[simp] theorem setAccessLine_saws (s : State) (g : Gate) (b : Bool) :
    (s.setAccessLine g b).saws = s.saws := rfl
@[simp] theorem setAccessLine_events (s : State) (g : Gate) (b : Bool) :
    (s.setAccessLine g b).events = s.events := rfl
@[simp] theorem setAccessLine_lines (s : State) (g : Gate) (b : Bool) :
    (s.setAccessLine g b).lines = { s.lines with access := s.lines.access.set g.val b } := rfl
@[simp] theorem setAccessLine_todo (s : State) (g : Gate) (b : Bool) :
    (s.setAccessLine g b).todo = s.todo := rfl
@[simp] theorem setAccessLine_free (s : State) (g : Gate) (b : Bool) :
    (s.setAccessLine g b).free = s.free := rfl

@[simp] theorem setEStopLine_pending (s : State) (b : Bool) :
    (s.setEStopLine b).pending = s.pending := rfl
@[simp] theorem setEStopLine_link (s : State) (b : Bool) : (s.setEStopLine b).link = s.link := rfl
@[simp] theorem setEStopLine_cell (s : State) (b : Bool) : (s.setEStopLine b).cell = s.cell := rfl
@[simp] theorem setEStopLine_stackRecs (s : State) (b : Bool) :
    (s.setEStopLine b).stackRecs = s.stackRecs := rfl
@[simp] theorem setEStopLine_counters (s : State) (b : Bool) :
    (s.setEStopLine b).counters = s.counters := rfl
@[simp] theorem setEStopLine_queue (s : State) (b : Bool) :
    (s.setEStopLine b).queue = s.queue := rfl
@[simp] theorem setEStopLine_seq (s : State) (b : Bool) : (s.setEStopLine b).seq = s.seq := rfl
@[simp] theorem setEStopLine_port (s : State) (b : Bool) : (s.setEStopLine b).port = s.port := rfl
@[simp] theorem setEStopLine_arb (s : State) (b : Bool) : (s.setEStopLine b).arb = s.arb := rfl
@[simp] theorem setEStopLine_saws (s : State) (b : Bool) : (s.setEStopLine b).saws = s.saws := rfl
@[simp] theorem setEStopLine_events (s : State) (b : Bool) :
    (s.setEStopLine b).events = s.events := rfl
@[simp] theorem setEStopLine_lines (s : State) (b : Bool) :
    (s.setEStopLine b).lines = { s.lines with eStop := b } := rfl
@[simp] theorem setEStopLine_todo (s : State) (b : Bool) : (s.setEStopLine b).todo = s.todo := rfl
@[simp] theorem setEStopLine_free (s : State) (b : Bool) : (s.setEStopLine b).free = s.free := rfl

/-! ### Reads of one carriage -/

@[simp] theorem modSeq_sq_self (s : State) (c : Carriage) (f : Sequencer → Sequencer) :
    (s.modSeq c f).sq c = f (s.sq c) := by cases c <;> rfl

@[simp] theorem modSeq_sq_other (s : State) (c : Carriage) (f : Sequencer → Sequencer) :
    (s.modSeq c f).sq (other c) = s.sq (other c) := by cases c <;> rfl

@[simp] theorem modPort_pt_self (s : State) (c : Carriage) (f : DrivePort → DrivePort) :
    (s.modPort c f).pt c = f (s.pt c) := by cases c <;> rfl

@[simp] theorem modPort_pt_other (s : State) (c : Carriage) (f : DrivePort → DrivePort) :
    (s.modPort c f).pt (other c) = s.pt (other c) := by cases c <;> rfl

@[simp] theorem modRec_arec_self (s : State) (c : Carriage) (f : ArbRecord → ArbRecord) :
    (s.modRec c f).arec c = f (s.arec c) := by cases c <;> rfl

@[simp] theorem modRec_arec_other (s : State) (c : Carriage) (f : ArbRecord → ArbRecord) :
    (s.modRec c f).arec (other c) = s.arec (other c) := by cases c <;> rfl

@[simp] theorem modSeq_pt (s : State) (d : Carriage) (f : Sequencer → Sequencer) (c : Carriage) :
    (s.modSeq d f).pt c = s.pt c := rfl
@[simp] theorem modSeq_arec (s : State) (d : Carriage) (f : Sequencer → Sequencer) (c : Carriage) :
    (s.modSeq d f).arec c = s.arec c := rfl

@[simp] theorem modPort_sq (s : State) (d : Carriage) (f : DrivePort → DrivePort) (c : Carriage) :
    (s.modPort d f).sq c = s.sq c := rfl
@[simp] theorem modPort_arec (s : State) (d : Carriage) (f : DrivePort → DrivePort) (c : Carriage) :
    (s.modPort d f).arec c = s.arec c := rfl

@[simp] theorem modRec_sq (s : State) (d : Carriage) (f : ArbRecord → ArbRecord) (c : Carriage) :
    (s.modRec d f).sq c = s.sq c := rfl
@[simp] theorem modRec_pt (s : State) (d : Carriage) (f : ArbRecord → ArbRecord) (c : Carriage) :
    (s.modRec d f).pt c = s.pt c := rfl

@[simp] theorem modSaw_sq (s : State) (w : Saw) (f : SawStation → SawStation) (c : Carriage) :
    (s.modSaw w f).sq c = s.sq c := rfl
@[simp] theorem modSaw_pt (s : State) (w : Saw) (f : SawStation → SawStation) (c : Carriage) :
    (s.modSaw w f).pt c = s.pt c := rfl
@[simp] theorem modSaw_arec (s : State) (w : Saw) (f : SawStation → SawStation) (c : Carriage) :
    (s.modSaw w f).arec c = s.arec c := rfl

@[simp] theorem modLink_sq (s : State) (f : HostLink → HostLink) (c : Carriage) :
    (s.modLink f).sq c = s.sq c := rfl
@[simp] theorem modLink_pt (s : State) (f : HostLink → HostLink) (c : Carriage) :
    (s.modLink f).pt c = s.pt c := rfl
@[simp] theorem modLink_arec (s : State) (f : HostLink → HostLink) (c : Carriage) :
    (s.modLink f).arec c = s.arec c := rfl

@[simp] theorem modCell_sq (s : State) (f : CellMap → CellMap) (c : Carriage) :
    (s.modCell f).sq c = s.sq c := rfl
@[simp] theorem modCell_pt (s : State) (f : CellMap → CellMap) (c : Carriage) :
    (s.modCell f).pt c = s.pt c := rfl
@[simp] theorem modCell_arec (s : State) (f : CellMap → CellMap) (c : Carriage) :
    (s.modCell f).arec c = s.arec c := rfl

@[simp] theorem modCounters_sq (s : State) (f : Counters → Counters) (c : Carriage) :
    (s.modCounters f).sq c = s.sq c := rfl
@[simp] theorem modCounters_pt (s : State) (f : Counters → Counters) (c : Carriage) :
    (s.modCounters f).pt c = s.pt c := rfl
@[simp] theorem modCounters_arec (s : State) (f : Counters → Counters) (c : Carriage) :
    (s.modCounters f).arec c = s.arec c := rfl

@[simp] theorem mapZones_sq (s : State) (f : Nat → ZoneRec → ZoneRec) (c : Carriage) :
    (s.mapZones f).sq c = s.sq c := rfl
@[simp] theorem mapZones_pt (s : State) (f : Nat → ZoneRec → ZoneRec) (c : Carriage) :
    (s.mapZones f).pt c = s.pt c := rfl

@[simp] theorem modGate_sq (s : State) (g : Gate) (f : GateRec → GateRec) (c : Carriage) :
    (s.modGate g f).sq c = s.sq c := rfl
@[simp] theorem modGate_pt (s : State) (g : Gate) (f : GateRec → GateRec) (c : Carriage) :
    (s.modGate g f).pt c = s.pt c := rfl

@[simp] theorem modStack_sq (s : State) (p : Place) (f : StackRec → StackRec) (c : Carriage) :
    (s.modStack p f).sq c = s.sq c := rfl
@[simp] theorem modStack_pt (s : State) (p : Place) (f : StackRec → StackRec) (c : Carriage) :
    (s.modStack p f).pt c = s.pt c := rfl
@[simp] theorem modStack_arec (s : State) (p : Place) (f : StackRec → StackRec) (c : Carriage) :
    (s.modStack p f).arec c = s.arec c := rfl

@[simp] theorem putStack_sq (s : State) (p : Place) (r : Option StackRec) (c : Carriage) :
    (s.putStack p r).sq c = s.sq c := rfl
@[simp] theorem putStack_pt (s : State) (p : Place) (r : Option StackRec) (c : Carriage) :
    (s.putStack p r).pt c = s.pt c := rfl
@[simp] theorem putStack_arec (s : State) (p : Place) (r : Option StackRec) (c : Carriage) :
    (s.putStack p r).arec c = s.arec c := rfl

@[simp] theorem modReturn_sq (s : State) (w : Saw) (f : ReturnEntry → ReturnEntry) (c : Carriage) :
    (s.modReturn w f).sq c = s.sq c := rfl
@[simp] theorem modReturn_pt (s : State) (w : Saw) (f : ReturnEntry → ReturnEntry) (c : Carriage) :
    (s.modReturn w f).pt c = s.pt c := rfl
@[simp] theorem modReturn_arec (s : State) (w : Saw) (f : ReturnEntry → ReturnEntry) (c : Carriage) :
    (s.modReturn w f).arec c = s.arec c := rfl

@[simp] theorem putReturn_sq (s : State) (w : Saw) (r : Option ReturnEntry) (c : Carriage) :
    (s.putReturn w r).sq c = s.sq c := rfl
@[simp] theorem putReturn_pt (s : State) (w : Saw) (r : Option ReturnEntry) (c : Carriage) :
    (s.putReturn w r).pt c = s.pt c := rfl
@[simp] theorem putReturn_arec (s : State) (w : Saw) (r : Option ReturnEntry) (c : Carriage) :
    (s.putReturn w r).arec c = s.arec c := rfl

@[simp] theorem mapOrders_sq (s : State) (p : OrderEntry → Bool) (f : OrderEntry → OrderEntry) (c : Carriage) :
    (s.mapOrders p f).sq c = s.sq c := rfl
@[simp] theorem mapOrders_pt (s : State) (p : OrderEntry → Bool) (f : OrderEntry → OrderEntry) (c : Carriage) :
    (s.mapOrders p f).pt c = s.pt c := rfl
@[simp] theorem mapOrders_arec (s : State) (p : OrderEntry → Bool) (f : OrderEntry → OrderEntry) (c : Carriage) :
    (s.mapOrders p f).arec c = s.arec c := rfl

@[simp] theorem dropOrder_sq (s : State) (n : Nat) (c : Carriage) :
    (s.dropOrder n).sq c = s.sq c := rfl
@[simp] theorem dropOrder_pt (s : State) (n : Nat) (c : Carriage) :
    (s.dropOrder n).pt c = s.pt c := rfl
@[simp] theorem dropOrder_arec (s : State) (n : Nat) (c : Carriage) :
    (s.dropOrder n).arec c = s.arec c := rfl

@[simp] theorem queueFrame_sq (s : State) (f : Frame) (c : Carriage) :
    (s.queueFrame f).sq c = s.sq c := rfl
@[simp] theorem queueFrame_pt (s : State) (f : Frame) (c : Carriage) :
    (s.queueFrame f).pt c = s.pt c := rfl
@[simp] theorem queueFrame_arec (s : State) (f : Frame) (c : Carriage) :
    (s.queueFrame f).arec c = s.arec c := rfl

@[simp] theorem clearEvents_sq (s : State) (p : EventEntry → Bool) (c : Carriage) :
    (s.clearEvents p).sq c = s.sq c := rfl
@[simp] theorem clearEvents_pt (s : State) (p : EventEntry → Bool) (c : Carriage) :
    (s.clearEvents p).pt c = s.pt c := rfl
@[simp] theorem clearEvents_arec (s : State) (p : EventEntry → Bool) (c : Carriage) :
    (s.clearEvents p).arec c = s.arec c := rfl

@[simp] theorem dueExam_sq (s : State) (c : Carriage) :
    (s.dueExam).sq c = s.sq c := rfl
@[simp] theorem dueExam_pt (s : State) (c : Carriage) :
    (s.dueExam).pt c = s.pt c := rfl
@[simp] theorem dueExam_arec (s : State) (c : Carriage) :
    (s.dueExam).arec c = s.arec c := rfl

@[simp] theorem drawn_sq (s : State) (c : Carriage) :
    (s.drawn).sq c = s.sq c := rfl
@[simp] theorem drawn_pt (s : State) (c : Carriage) :
    (s.drawn).pt c = s.pt c := rfl
@[simp] theorem drawn_arec (s : State) (c : Carriage) :
    (s.drawn).arec c = s.arec c := rfl

@[simp] theorem setCurtainLine_sq (s : State) (k : Curtain) (b : Bool) (c : Carriage) :
    (s.setCurtainLine k b).sq c = s.sq c := rfl
@[simp] theorem setCurtainLine_pt (s : State) (k : Curtain) (b : Bool) (c : Carriage) :
    (s.setCurtainLine k b).pt c = s.pt c := rfl
@[simp] theorem setCurtainLine_arec (s : State) (k : Curtain) (b : Bool) (c : Carriage) :
    (s.setCurtainLine k b).arec c = s.arec c := rfl

@[simp] theorem setAccessLine_sq (s : State) (g : Gate) (b : Bool) (c : Carriage) :
    (s.setAccessLine g b).sq c = s.sq c := rfl
@[simp] theorem setAccessLine_pt (s : State) (g : Gate) (b : Bool) (c : Carriage) :
    (s.setAccessLine g b).pt c = s.pt c := rfl
@[simp] theorem setAccessLine_arec (s : State) (g : Gate) (b : Bool) (c : Carriage) :
    (s.setAccessLine g b).arec c = s.arec c := rfl

@[simp] theorem setEStopLine_sq (s : State) (b : Bool) (c : Carriage) :
    (s.setEStopLine b).sq c = s.sq c := rfl
@[simp] theorem setEStopLine_pt (s : State) (b : Bool) (c : Carriage) :
    (s.setEStopLine b).pt c = s.pt c := rfl
@[simp] theorem setEStopLine_arec (s : State) (b : Bool) (c : Carriage) :
    (s.setEStopLine b).arec c = s.arec c := rfl

@[simp] theorem mapZones_arec (s : State) (f : Nat → ZoneRec → ZoneRec) (c : Carriage) :
    (s.mapZones f).arec c = s.arec c := rfl
@[simp] theorem modGate_arec (s : State) (g : Gate) (f : GateRec → GateRec) (c : Carriage) :
    (s.modGate g f).arec c = s.arec c := rfl

end Sys2Proof.Machine
end

