-- ==== Sys2Proof/Laws/Stable.lean ====
section
/-! SUPPORT. What the blocks' operations can do to the state, said once: a property that stands every
basic update stands every operation built of them. A frame and an invariant are both such properties. -/

namespace Sys2Proof.Machine

/-- A property that every basic update of the blocks keeps: any change of sequencers, ports, arbiter,
notices, stack records, return entries, and the free count; the drop of an order; a change of orders,
saw stations or counters that keeps their laws; a raising of an event with a source that fits its kind and
a clearing of events. -/
structure Stable (P : State → Prop) : Prop where
  seq : ∀ s v, P s → P { s with seq := v }
  port : ∀ s v, P s → P { s with port := v }
  arb : ∀ s v, P s → P { s with arb := v }
  todo : ∀ s v, P s → P { s with todo := v }
  free : ∀ s v, P s → P { s with free := v }
  saw : ∀ s w f, (∀ x, x.ok = true → (f x).ok = true) → P s → P (s.modSaw w f)
  stack : ∀ s p f, P s → P (s.modStack p f)
  orders : ∀ s p f, (∀ e, p e = true → (f e).number = e.number ∧ (e.ok = true → (f e).ok = true)) →
    P s → P (s.mapOrders p f)
  drop : ∀ s n, P s → P (s.dropOrder n)
  returns : ∀ s v, P s → P { s with queue := { s.queue with returns := v } }
  rank : ∀ s, P s → P { s with queue := s.queue.takeRank.2 }
  counters : ∀ s f, (∀ k, k.ok = true → (f k).ok = true) → P s → P (s.modCounters f)
  raise : ∀ s k src d, sourceFits k src = true → P s → P (s.raise k src d)
  clear : ∀ s p, P s → P (s.clearEvents p)

theorem countUp_le (n k : Nat) : countUp n k ≤ Config.maxCounter := Nat.min_le_right _ _

namespace Stable

variable {P : State → Prop}

theorem and {Q : State → Prop} (hp : Stable P) (hq : Stable Q) : Stable fun s => P s ∧ Q s where
  seq s v h := ⟨hp.seq s v h.1, hq.seq s v h.2⟩
  port s v h := ⟨hp.port s v h.1, hq.port s v h.2⟩
  arb s v h := ⟨hp.arb s v h.1, hq.arb s v h.2⟩
  todo s v h := ⟨hp.todo s v h.1, hq.todo s v h.2⟩
  free s v h := ⟨hp.free s v h.1, hq.free s v h.2⟩
  saw s w f hf h := ⟨hp.saw s w f hf h.1, hq.saw s w f hf h.2⟩
  stack s p f h := ⟨hp.stack s p f h.1, hq.stack s p f h.2⟩
  orders s p f hf h := ⟨hp.orders s p f hf h.1, hq.orders s p f hf h.2⟩
  drop s n h := ⟨hp.drop s n h.1, hq.drop s n h.2⟩
  returns s v h := ⟨hp.returns s v h.1, hq.returns s v h.2⟩
  rank s h := ⟨hp.rank s h.1, hq.rank s h.2⟩
  counters s f hf h := ⟨hp.counters s f hf h.1, hq.counters s f hf h.2⟩
  raise s k src d hf h := ⟨hp.raise s k src d hf h.1, hq.raise s k src d hf h.2⟩
  clear s p h := ⟨hp.clear s p h.1, hq.clear s p h.2⟩

theorem foldl {α : Type} (f : State → α → State) (hf : ∀ t x, P t → P (f t x)) :
    ∀ (l : List α) (s : State), P s → P (l.foldl f s)
  | [], _, hs => hs
  | x :: l, s, hs => foldl f hf l (f s x) (hf s x hs)

variable (h : Stable P) {s : State}
include h

/-! ### Basic updates -/

theorem modSeq (c : Carriage) (f) (hs : P s) : P (s.modSeq c f) := h.seq s _ hs
theorem modPort (c : Carriage) (f) (hs : P s) : P (s.modPort c f) := h.port s _ hs
theorem modRec (c : Carriage) (f) (hs : P s) : P (s.modRec c f) := h.arb s _ hs
theorem mapZones (f) (hs : P s) : P (s.mapZones f) := h.arb s _ hs
theorem modGate (g : Gate) (f) (hs : P s) : P (s.modGate g f) := h.arb s _ hs
theorem modClaim (c : Carriage) (f) (hs : P s) : P (s.modClaim c f) := h.arb s _ hs
theorem dueExam (hs : P s) : P s.dueExam := h.todo s _ hs
theorem nudgeWait (c : Carriage) (hs : P s) : P (s.nudgeWait c) := h.todo s _ hs
theorem modReturn (w : Saw) (f) (hs : P s) : P (s.modReturn w f) := h.returns s _ hs
theorem putReturn (w : Saw) (r) (hs : P s) : P (s.putReturn w r) := h.returns s _ hs

theorem nudgeBlocked (c : Carriage) (l) (hs : P s) : P (s.nudgeBlocked c l) := by
  unfold State.nudgeBlocked; split
  · exact h.todo _ _ hs
  · exact h.modSeq _ _ hs
  · exact hs

theorem setCarState (c : Carriage) (st) (hs : P s) : P (s.setCarState c st) := by
  unfold State.setCarState; split
  · exact hs
  · exact h.nudgeBlocked _ _ (h.dueExam (h.modSeq _ _ hs))

theorem holdZones (c : Carriage) (p) (hs : P s) : P (s.holdZones c p) := h.mapZones _ hs
theorem releaseZones (c : Carriage) (p) (hs : P s) : P (s.releaseZones c p) := h.mapZones _ hs
theorem addSource (src) (p) (hs : P s) : P (s.addSource src p) := h.mapZones _ hs
theorem removeSource (src) (p) (hs : P s) : P (s.removeSource src p) := h.mapZones _ hs

/-! ### Order Queue -/

theorem noticeTo (c : Carriage) (hs : P s) : P (s.noticeTo c) := by
  unfold State.noticeTo; split
  · split
    · exact h.modSeq _ _ hs
    · exact hs
  · exact h.modSeq _ _ hs
  · exact hs

theorem workNotice (hs : P s) : P s.workNotice := h.noticeTo _ (h.noticeTo _ hs)

theorem setOrderState (n : Nat) (st) (hs : P s) : P (s.setOrderState n st) :=
  h.orders s _ _ (fun e _ => ⟨rfl, fun k => by simpa [OrderEntry.ok] using k⟩) hs

theorem requeueWhere (p) (hs : P s) : P (s.requeueWhere p) := by
  have h1 : P (s.mapOrders p fun e => { e with state := s.requeuedState e }) :=
    h.orders s _ _ (fun e _ => ⟨rfl, fun k => by simpa [OrderEntry.ok] using k⟩) hs
  unfold State.requeueWhere; dsimp only; split
  · exact h.workNotice h1
  · exact h1

theorem requeueStarved (hs : P s) : P s.requeueStarved := h.requeueWhere _ hs
theorem requeueBlocked (w : Saw) (hs : P s) : P (s.requeueBlocked w) := h.requeueWhere _ hs

theorem blockOrders (w : Saw) (r) (hs : P s) : P (s.blockOrders w r) :=
  h.orders s _ _ (fun e _ => ⟨rfl, fun k => by simpa [OrderEntry.ok] using k⟩) hs

theorem blockTimedOut (c : Carriage) (n) (hs : P s) : P (s.blockTimedOut c n) :=
  h.orders s _ _ (fun e _ => ⟨rfl, fun k => by simpa [OrderEntry.ok] using k⟩) hs

theorem judge (w : Saw) (hs : P s) : P (s.judge w) := by
  unfold State.judge; split
  · exact hs
  · split
    · split
      · exact h.workNotice (h.modReturn _ _ (h.rank _ hs))
      · exact hs
    · split
      · exact hs
      · exact h.modReturn _ _ hs
    · exact hs

theorem handCount (w : Saw) (n b) (hs : P s) : P (s.handCount w n b) := h.judge _ (h.modReturn _ _ hs)
theorem handPermit (w : Saw) (b) (hs : P s) : P (s.handPermit w b) := h.judge _ (h.modReturn _ _ hs)
theorem returnEnded (w : Saw) (hs : P s) : P (s.returnEnded w) := h.judge _ (h.modReturn _ _ hs)

theorem returnLost (c : Carriage) (w : Saw) (hs : P s) : P (s.returnLost c w) := by
  unfold State.returnLost; split
  · exact hs
  · split
    · exact hs
    · split
      · exact h.workNotice (h.modReturn _ _ hs)
      · exact h.modReturn _ _ hs

theorem handBack (c : Carriage) (hs : P s) : P (s.handBack c) :=
  foldl _ (fun _ w ht => h.returnLost c w ht) _ _ (h.requeueWhere _ hs)

theorem starve (n r) (hs : P s) : P (s.starve n r) := h.raise _ _ _ _ rfl (h.setOrderState _ _ hs)

theorem walk (c : Carriage) : ∀ (l : List Candidate) (s : State), P s → P (State.walk c l s).1
  | [], _, hs => hs
  | .return_ w :: l, s, hs => by
      unfold State.walk; split
      · split
        · exact hs
        · exact walk c l s hs
      · exact walk c l s hs
  | .order n :: l, s, hs => by
      unfold State.walk; split
      · exact walk c l s hs
      · split
        · exact hs
        · split
          · exact walk c l _ (h.starve _ _ hs)
          · exact walk c l s hs

theorem request (c : Carriage) (b) (hs : P s) : P (s.request c b).1 := h.walk c _ _ hs

theorem beginWork (c : Carriage) (w) (hs : P s) : P (s.beginWork c w) := h.modSeq _ _ hs

theorem startOrder (c : Carriage) (n) (hs : P s) : P (s.startOrder c n) := by
  unfold State.startOrder; split
  · exact hs
  · split
    · exact hs
    · exact h.beginWork _ _ (h.setOrderState _ _ hs)

theorem startReturn (c : Carriage) (w : Saw) (hs : P s) : P (s.startReturn c w) := by
  unfold State.startReturn; split
  · exact hs
  · exact h.beginWork _ _ (h.modReturn _ _ hs)

theorem takeOffer (c : Carriage) (x) (hs : P s) : P (s.takeOffer c x) := by
  unfold State.takeOffer; split
  · exact h.startOrder _ _ hs
  · exact h.startReturn _ _ hs

theorem suspendEntry (c : Carriage) (k) (hs : P s) : P (s.suspendEntry c k) := by
  unfold State.suspendEntry; split
  · exact h.setOrderState _ _ hs
  · exact h.modReturn _ _ hs
  · exact hs

theorem reportNoSource (n) (hs : P s) : P (s.reportNoSource n) := by
  unfold State.reportNoSource; split
  · exact hs
  · split
    · exact h.starve _ _ hs
    · exact h.requeueWhere _ hs

/-! ### Stack Table -/

theorem setPermitHold (w : Saw) (b) (hs : P s) : P (s.setPermitHold w b) := by
  unfold State.setPermitHold; split
  · exact hs
  · exact h.handPermit _ _ (h.saw _ _ _ (fun x k => by simpa [SawStation.ok] using k) hs)

theorem permitByCount (w : Saw) (n) (hs : P s) : P (s.permitByCount w n) := by
  unfold State.permitByCount; split
  · exact h.setPermitHold _ _ hs
  · split
    · exact hs
    · exact h.setPermitHold _ _ hs

theorem contentNotice (p : Place) (c : Carriage) (hs : P s) : P (s.contentNotice p c) := by
  unfold State.contentNotice; split
  · exact h.nudgeWait _ hs
  · exact h.nudgeBlocked _ _ hs

theorem contentChange (p : Place) (hs : P s) : P (s.contentChange p) := by
  have h1 := h.contentNotice p .B (h.contentNotice p .A (h.requeueStarved hs))
  unfold State.contentChange; dsimp only; split
  · exact h.permitByCount _ _ (h.handCount _ _ _ h1)
  · exact h1

theorem setStack (p : Place) (st runs) (hs : P s) : P (s.setStack p st runs) :=
  h.contentChange _ (h.stack _ _ _ hs)

theorem lockStack (p : Place) (r) (hs : P s) : P (s.lockStack p r) := h.setStack _ _ _ hs
theorem addTo (p : Place) (x) (hs : P s) : P (s.addTo p x) := h.setStack _ _ _ hs
theorem emptyStack (p : Place) (hs : P s) : P (s.emptyStack p) := h.setStack _ _ _ hs

theorem liftFrom (p : Place) (hs : P s) : P (s.liftFrom p) := by
  unfold State.liftFrom; dsimp only; split
  · exact h.raise _ _ _ _ rfl (h.emptyStack _ hs)
  · exact h.setStack _ _ _ hs

theorem contactCheck (p : Place) (n) (hs : P s) : P (s.contactCheck p n).1 := by
  unfold State.contactCheck; split
  · exact hs
  · dsimp only; split
    · exact hs
    · exact h.raise _ _ _ _ rfl (h.lockStack _ _ hs)

theorem measure (p : Place) (n) (hs : P s) : P (s.measure p n).1 := by
  unfold State.measure; split
  · exact hs
  · dsimp only; split
    · exact h.raise _ _ _ _ rfl (h.emptyStack _ hs)
    · split
      · exact h.raise _ _ _ _ rfl (h.lockStack _ _ hs)
      · split
        · exact h.raise _ _ _ _ rfl (h.lockStack _ _ hs)
        · refine h.setStack _ _ _ (h.counters _ _ (fun k hk => ?_) hs)
          simp only [Counters.ok, Bool.and_eq_true, decide_eq_true_eq] at hk ⊢
          exact ⟨⟨⟨⟨countUp_le _ _, hk.1.1.1.2⟩, hk.1.1.2⟩, hk.1.2⟩, hk.2⟩

theorem judgeContact (p : Place) (n) (hs : P s) : P (s.judgeContact p n).1 := by
  unfold State.judgeContact; split
  · exact h.contactCheck _ _ hs
  · exact h.measure _ _ hs
  · exact hs

theorem gripFail (p : Place) (n) (hs : P s) : P (s.gripFail p n) :=
  h.raise _ _ _ _ rfl (h.lockStack _ _ hs)

end Stable

end Sys2Proof.Machine
end

