-- ==== Sys2Proof/Laws/StableMoves.lean ====
section
/-! SUPPORT. A stable property stands every operation of the saw stations, the ports, the sequencers and
the arbiter, and the acting on the notices of a step. -/

namespace Sys2Proof.Machine

namespace Stable

variable {P : State → Prop} (h : Stable P) {s : State}
include h

/-! ### Saw Station Controllers -/

theorem openingNoticeTo (w : Saw) (c : Carriage) (hs : P s) : P (s.openingNoticeTo w c) := by
  unfold State.openingNoticeTo; split
  · exact h.modSeq _ _ hs
  · split
    · exact h.nudgeWait _ hs
    · exact hs
  · exact hs

theorem openingNotice (w : Saw) (hs : P s) : P (s.openingNotice w) :=
  h.openingNoticeTo _ _ (h.openingNoticeTo _ _ hs)

theorem enter (w : Saw) (st) (hs : P s) : P (s.modSaw w (SawStation.enter st)) :=
  h.saw _ _ _ (fun x k => by simp_all [SawStation.ok, SawStation.enter]) hs

theorem enterOpen (w : Saw) (hs : P s) : P (s.enterOpen w) :=
  h.openingNotice _ (h.requeueBlocked _ (h.enter _ _ hs))

theorem enterInfeedBlocked (w : Saw) (r) (hs : P s) : P (s.enterInfeedBlocked w r) := by
  have h1 : P (s.modSaw w fun x =>
      { x.enter (.blocked r) with bookTimer := x.bookTimer.halt, releasePending := false }) :=
    h.saw _ _ _ (fun x k => by simp_all [SawStation.ok, SawStation.enter]) hs
  unfold State.enterInfeedBlocked; dsimp only; split
  · exact h1
  · exact h.blockOrders _ _ h1

theorem followReady (w : Saw) (hs : P s) : P (s.followReady w) := by
  unfold State.followReady; split
  · split
    · exact hs
    · exact h.enterOpen _ hs
  · exact h.enter _ _ hs

theorem raiseFallback (w : Saw) (hs : P s) : P (s.raiseFallback w) := h.raise _ _ _ _ rfl hs

theorem emptyOutcome (w : Saw) (hs : P s) : P (s.emptyOutcome w) := by
  unfold State.emptyOutcome; split
  · exact h.enterInfeedBlocked _ _ hs
  · exact h.followReady _ (h.saw _ _ _ (fun x k => by simpa [SawStation.ok] using k) hs)

theorem fallbackEmpty (w : Saw) (hs : P s) : P (s.fallbackEmpty w) :=
  h.emptyOutcome _ (h.raiseFallback _ hs)

theorem takeFallback (w : Saw) (hs : P s) : P (s.takeFallback w) := by
  unfold State.takeFallback; split
  · split
    · exact h.saw _ _ _ (fun x k => by simpa [SawStation.ok] using k) (h.raiseFallback _ hs)
    · split
      · exact h.fallbackEmpty _ hs
      · exact h.enterInfeedBlocked _ _ (h.raiseFallback _ hs)
    · split
      · exact h.fallbackEmpty _ hs
      · exact h.enterInfeedBlocked _ _ (h.raiseFallback _ hs)
    · exact hs
  · exact hs

theorem releaseBook (w : Saw) (hs : P s) : P (s.releaseBook w) :=
  h.saw _ _ _ (fun x k => by simp_all [SawStation.ok]) hs

theorem decideRelease (w : Saw) (hs : P s) : P (s.decideRelease w) := by
  unfold State.decideRelease; split_ifs
  · exact hs
  · exact h.saw _ _ _ (fun x k => by simpa [SawStation.ok] using k) hs
  · exact h.releaseBook _ hs

theorem orderEnd (w : Saw) (hs : P s) : P (s.orderEnd w) := by
  unfold State.orderEnd; split
  · exact h.decideRelease _ hs
  · exact hs

theorem bookPlacement (w : Saw) (p : Place) (x) (hs : P s) : P (s.bookPlacement w p x) := by
  unfold State.bookPlacement; dsimp only; split
  · split
    · exact h.decideRelease _ (h.saw _ _ _ (fun x k => by simpa [SawStation.ok] using k) hs)
    · exact h.saw _ _ _ (fun x k => by simpa [SawStation.ok] using k) hs
  · split
    · exact h.decideRelease _ (h.saw _ _ _ (fun x k => by simpa [SawStation.ok] using k) hs)
    · exact h.saw _ _ _ (fun x k => by simpa [SawStation.ok] using k) hs
  · exact h.enter _ _ hs
  · exact hs

theorem basicPlacement (w : Saw) (hs : P s) : P (s.basicPlacement w) := by
  have h1 : P (s.modSaw w fun y => { y with basicTaken := true }) :=
    h.saw _ _ _ (fun x k => by simpa [SawStation.ok] using k) hs
  unfold State.basicPlacement; dsimp only; split
  · exact h1
  · exact h1
  · exact h.enter _ _ h1
  · exact h1
  · exact hs

theorem placement (w : Saw) (p : Place) (x) (hs : P s) : P (s.placement w p x) := by
  have h1 : P (s.modSaw w fun y => { y with lastFed := fedList x y.lastFed }) :=
    h.saw _ _ _ (fun y k => by
      simp only [SawStation.ok, Bool.and_eq_true, decide_eq_true_eq] at k ⊢
      exact ⟨k.1, by simp [fedList]⟩) hs
  unfold State.placement; dsimp only; split
  · exact h.bookPlacement _ _ _ h1
  · exact h.basicPlacement _ h1

theorem cutInfeed (w : Saw) (hs : P s) : P (s.cutInfeed w) := by
  unfold State.cutInfeed; split
  · refine h.emptyStack _ (h.counters _ _ (fun k hk => ?_) hs)
    simp only [Counters.ok, Bool.and_eq_true, decide_eq_true_eq] at hk ⊢
    exact ⟨⟨⟨hk.1.1.1, countUp_le _ _⟩, hk.1.2⟩, hk.2⟩
  · exact hs

theorem setUser (p : Place) (u) (hs : P s) : P (s.setUser p u) := h.stack _ _ _ hs

theorem userCleared (p : Place) (hs : P s) : P (s.userCleared p) := by
  unfold State.userCleared; split
  · split
    · exact h.releaseBook _ hs
    · exact hs
  · exact hs

theorem releasePlace (c : Carriage) (p : Place) (hs : P s) : P (s.releasePlace c p) := by
  unfold State.releasePlace; split
  · exact h.nudgeBlocked _ _ (h.userCleared _ (h.setUser _ _ hs))
  · exact hs

theorem releasePlaces (c : Carriage) (hs : P s) : P (s.releasePlaces c) :=
  foldl _ (fun _ p ht => h.releasePlace c p ht) _ _ hs

theorem overrunInfeed (w : Saw) (hs : P s) : P (s.overrunInfeed w) := by
  unfold State.overrunInfeed; split
  · exact h.enterInfeedBlocked _ _ hs
  · exact h.enterInfeedBlocked _ _ hs
  · exact h.enterInfeedBlocked _ _ hs
  · exact hs

theorem countOverrun (w : Saw) (hs : P s) : P (s.countOverrun w) := by
  refine h.saw _ _ _ (fun x k => ?_) hs
  simp only [SawStation.ok, Bool.and_eq_true, decide_eq_true_eq] at k ⊢
  exact ⟨⟨k.1.1, Nat.min_le_right _ _⟩, k.2⟩

theorem intake (w : Saw) (p : Place) (m t z) (hs : P s) : P (s.intake w p m t z) := by
  refine h.addTo _ _ (h.counters _ _ (fun k hk => ?_) hs)
  simp only [Counters.ok, Bool.and_eq_true, decide_eq_true_eq] at hk ⊢
  exact ⟨⟨⟨⟨hk.1.1.1.1, countUp_le _ _⟩, hk.1.1.2⟩, hk.1.2⟩, hk.2⟩

theorem returnOverrun (w : Saw) (m) (hs : P s) : P (s.returnOverrun w m) :=
  h.handPermit _ _ (h.overrunInfeed _ (h.raise _ _ _ _ rfl (h.countOverrun _
    (h.saw _ _ _ (fun x k => by simpa [SawStation.ok] using k) hs))))

theorem takeRemnant (w : Saw) (m t z) (hs : P s) : P (s.takeRemnant w m t z) := by
  unfold State.takeRemnant; split
  · exact h.raise _ _ _ _ rfl (h.countOverrun _ hs)
  · split
    · exact h.countOverrun _ hs
    · split
      · exact h.returnOverrun _ _ hs
      · exact h.intake _ _ _ _ _ hs

theorem reloadBookTimer (w : Saw) (hs : P s) : P (s.reloadBookTimer w) := by
  unfold State.reloadBookTimer; dsimp only
  exact h.saw _ _ _ (fun x k => by simpa [SawStation.ok] using k) hs

theorem leaveOverrun (w : Saw) (hs : P s) : P (s.leaveOverrun w) := by
  unfold State.leaveOverrun; split
  · split
    · split
      · dsimp only; split
        · exact h.reloadBookTimer _ (h.fallbackEmpty _ hs)
        · exact h.fallbackEmpty _ hs
      · exact h.enterInfeedBlocked _ _ hs
    · exact h.reloadBookTimer _ (h.followReady _ hs)
  · exact hs

theorem recoverReturn (w : Saw) (hs : P s) : P (s.recoverReturn w) :=
  h.handPermit _ _ (h.leaveOverrun _
    (h.saw _ _ _ (fun x k => by simp_all [SawStation.ok]) hs))

theorem bookRemoved (w : Saw) (hs : P s) : P (s.bookRemoved w) := by
  have h1 : P (s.modSaw w fun y =>
      { y with bookTimer := Timer.stopped, releasePending := false, basicTaken := false }) :=
    h.saw _ _ _ (fun x k => by simpa [SawStation.ok] using k) hs
  unfold State.bookRemoved; dsimp only
  split
  · split
    · exact h.fallbackEmpty _ (h.openingNotice _ h1)
    · exact h.fallbackEmpty _ h1
  · split
    · exact h.openingNotice _ h1
    · exact h1

theorem infeedDefined (w : Saw) (hs : P s) : P (s.infeedDefined w) := by
  unfold State.infeedDefined; split
  · exact h.enterInfeedBlocked _ _ hs
  · split
    · exact h.fallbackEmpty _ hs
    · exact h.followReady _ hs

theorem infeedUndefined (w : Saw) (hs : P s) : P (s.infeedUndefined w) :=
  h.saw _ _ _ (fun x k => by simp_all [SawStation.ok, SawStation.enter]) hs

/-! ### Drive Link Ports -/

theorem send (c : Carriage) (x) (hs : P s) : P (s.send c x) := by
  unfold State.send; split
  · exact hs
  · exact h.modPort _ _ hs

theorem sendStep (c : Carriage) (b x) (hs : P s) : P (s.sendStep c b x) := by
  unfold State.sendStep; split
  · exact h.send _ _ hs
  · exact hs

theorem handStep (c : Carriage) (x) (hs : P s) : P (s.handStep c x) := by
  unfold State.handStep; split
  · exact h.sendStep _ _ _ (h.modPort _ _ hs)
  · exact h.sendStep _ _ _ (h.modPort _ _ hs)

theorem sendStop (c : Carriage) (hs : P s) : P (s.sendStop c) := h.modPort _ _ (h.send _ _ hs)

theorem stopDrive (c : Carriage) (hs : P s) : P (s.stopDrive c) := by
  unfold State.stopDrive; split
  · exact hs
  · exact h.sendStop _ hs

theorem sendClear (c : Carriage) (hs : P s) : P (s.sendClear c) := h.modPort _ _ (h.send _ _ hs)

theorem withdrawNext (c : Carriage) (hs : P s) : P (s.withdrawNext c) := by
  unfold State.withdrawNext; split
  · exact hs
  · exact h.modPort _ _ (h.send _ _ hs)

theorem setCurrent (c : Carriage) (x) (hs : P s) : P (s.setCurrent c x) := h.modPort _ _ hs
theorem recordPos (c : Carriage) (p) (hs : P s) : P (s.recordPos c p) := h.modPort _ _ hs
theorem completeStep (c : Carriage) (k) (hs : P s) : P (s.completeStep c k) := h.modPort _ _ hs

/-! ### Carriage Sequencers -/

theorem withdrawClaim (c : Carriage) (hs : P s) : P (s.withdrawClaim c) := by
  unfold State.withdrawClaim; split
  · exact h.dueExam (h.arb _ _ hs)
  · exact hs

theorem releaseUnlessStopping (c : Carriage) (hs : P s) : P (s.releaseUnlessStopping c) := by
  unfold State.releaseUnlessStopping; split
  · exact hs
  · exact h.releasePlaces _ hs

theorem enterFaulted (c : Carriage) (hs : P s) : P (s.enterFaulted c) :=
  h.setCarState _ _ (h.withdrawClaim _ (h.withdrawNext _ (h.releaseUnlessStopping _
    (h.modSeq _ _ (h.handBack _ hs)))))

theorem stopAndFault (c : Carriage) (hs : P s) : P (s.stopAndFault c) :=
  h.enterFaulted _ (h.stopDrive _ hs)

theorem stopHoming (c : Carriage) (hs : P s) : P (s.stopHoming c) :=
  h.setCarState _ _ (h.sendStop _ hs)

theorem holdAlone (c : Carriage) (z) (hs : P s) : P (s.holdAlone c z) :=
  h.dueExam (h.holdZones _ _ (h.releaseZones _ _ hs))

theorem settleHolding (c : Carriage) (p) (hs : P s) : P (s.settleHolding c p) := by
  unfold State.settleHolding; dsimp only; split
  · exact h.modRec _ _ (h.holdAlone _ _ hs)
  · split
    · exact h.holdAlone _ _ hs
    · exact hs

theorem positionConflict (c : Carriage) (p b) (hs : P s) : P (s.positionConflict c p b) := by
  have h1 : P (if b then s else s.sendStop c) := by
    split
    · exact hs
    · exact h.sendStop _ hs
  unfold State.positionConflict; dsimp only
  refine h.settleHolding _ _ (h.raise _ _ _ _ rfl ?_)
  generalize (if b then s else s.sendStop c) = t at h1 ⊢
  split
  · exact h1
  · exact h.enterFaulted _ h1

theorem takeDriveFault (c : Carriage) (n) (hs : P s) : P (s.takeDriveFault c n) := by
  have h1 : P ((s.modPort c fun d => { d with link := .fault, clearPending := false }).raise
      .driveFault (.carriage c) n) := h.raise _ _ _ _ rfl (h.modPort _ _ hs)
  unfold State.takeDriveFault; dsimp only; split
  · exact h.modSeq _ _ h1
  · exact h.stopHoming _ h1
  · exact h1
  · exact h1
  · exact h.stopAndFault _ h1

theorem unexpected (c : Carriage) (hs : P s) : P (s.unexpected c) := by
  unfold State.unexpected; split
  · exact h.takeDriveFault _ _ hs
  · exact hs

theorem enterIdle (c : Carriage) (hs : P s) : P (s.enterIdle c) := h.modSeq _ _ (h.setCarState _ _ hs)
theorem enterHeld (c : Carriage) (hs : P s) : P (s.enterHeld c) := h.modSeq _ _ (h.setCarState _ _ hs)
theorem modWork (c : Carriage) (f) (hs : P s) : P (s.modWork c f) := h.modSeq _ _ hs

theorem releaseDest (c : Carriage) (hs : P s) : P (s.releaseDest c) := by
  unfold State.releaseDest; split
  · split
    · exact h.releasePlace _ _ (h.modWork _ _ hs)
    · exact hs
  · exact hs

theorem releaseSource (c : Carriage) (hs : P s) : P (s.releaseSource c) := by
  unfold State.releaseSource; split
  · split
    · exact h.releasePlace _ _ (h.modWork _ _ hs)
    · exact hs
  · exact hs

theorem enterSawWait (c : Carriage) (w : Saw) (hs : P s) : P (s.enterSawWait c w) := by
  unfold State.enterSawWait; dsimp only
  exact h.modSeq _ _ (h.setCarState _ _ (h.releaseDest _ hs))

theorem enterCarBlocked (c : Carriage) (hs : P s) : P (s.enterCarBlocked c) := by
  unfold State.enterCarBlocked; dsimp only; split
  · exact h.setCarState _ _ hs
  · exact h.raise _ _ _ _ rfl (h.modSeq _ _ (h.setCarState _ _ hs))

theorem claimSource (c : Carriage) (p : Place) (m t) (hs : P s) : P (s.claimSource c p m t) :=
  h.modWork _ _ (h.setUser _ _ hs)

theorem resolveOrder (c : Carriage) {t : State} (ht : s.resolveOrder c = some t) (hs : P s) : P t := by
  unfold State.resolveOrder at ht
  split at ht
  · split at ht
    · split at ht
      · split at ht
        · cases ht; exact h.claimSource _ _ _ _ hs
        · cases ht
      · cases ht
    · cases ht
  · cases ht

theorem resumeRecord (c : Carriage) (r) (hs : P s) : P (s.resumeRecord c r) := by
  unfold State.resumeRecord; split
  · have h1 := h.startOrder c ‹Nat› hs
    dsimp only; split
    · split
      · split
        · exact h.claimSource _ _ _ _ h1
        · exact h1
      · exact h1
    · exact h1
  · split
    · exact h.startReturn _ _ hs
    · exact h.workNotice hs

theorem tellEnded (w : Work) (hs : P s) : P (s.tellEnded w) := by
  unfold State.tellEnded; split
  · exact h.returnEnded _ hs
  · exact hs

theorem popNext (c : Carriage) (hs : P s) : P (s.popNext c) := by
  unfold State.popNext; split
  · exact hs
  · dsimp only; split
    · exact h.takeOffer _ _ (h.request _ _ hs)
    · exact h.resumeRecord _ _ (h.modSeq _ _ (h.request _ _ hs))

theorem endWork (c : Carriage) (hs : P s) : P (s.endWork c) := by
  unfold State.endWork; split
  · exact hs
  · exact h.popNext _ (h.workNotice (h.tellEnded _ (h.modSeq _ _ (h.releasePlaces _ hs))))

theorem endUnresolved (c : Carriage) (hs : P s) : P (s.endUnresolved c) := by
  unfold State.endUnresolved; split
  · split
    · exact h.endWork _ (h.reportNoSource _ hs)
    · exact h.endWork _ hs
  · exact hs

theorem claimReturn (c : Carriage) (p : Place) (hs : P s) : P (s.claimReturn c p) :=
  h.modWork _ _ (h.setUser _ _ hs)

theorem advanceN (c : Carriage) : ∀ (n : Nat) (s : State), P s → P (State.advanceN n c s)
  | 0, _, hs => hs
  | n + 1, s, hs => by
      unfold State.advanceN; split
      · split
        · exact h.resolveOrder c ‹_› hs
        · exact advanceN c n _ (h.endUnresolved _ hs)
      · split
        · exact h.claimReturn _ _ hs
        · exact advanceN c n _ (h.endWork _ hs)
      · split
        · exact hs
        · exact advanceN c n _ (h.popNext _ hs)
      · exact hs

theorem advance (c : Carriage) (hs : P s) : P (s.advance c) := h.advanceN c _ _ hs

theorem issueMove (c : Carriage) (p x) (hs : P s) : P (s.issueMove c p x) := by
  unfold State.issueMove; split
  · exact h.handStep _ _ hs
  · exact h.handStep _ _ (h.handStep _ _ hs)

theorem issue (c : Carriage) (hs : P s) : P (s.issue c) := by
  unfold State.issue; split
  · exact h.issueMove _ _ _ hs
  · exact h.issueMove _ _ _ hs
  · split
    · split
      · exact h.handStep _ _ hs
      · exact h.enterSawWait _ _ hs
    · exact h.handStep _ _ hs
  · exact hs

theorem grantSpan (c : Carriage) (r) (hs : P s) : P (s.grantSpan c r) :=
  h.issue _ (h.dueExam (h.setCarState _ _ (h.holdZones _ _ hs)))

theorem claimMove (c : Carriage) (z) (hs : P s) : P (s.claimMove c z) := by
  unfold State.claimMove; split
  · exact hs
  · split
    · exact h.positionConflict _ _ _ hs
    · split
      · exact h.grantSpan _ _ hs
      · exact h.dueExam (h.setCarState _ _ (h.arb _ _ hs))

theorem claimHere (c : Carriage) (hs : P s) : P (s.claimHere c) := by
  unfold State.claimHere; split
  · exact h.claimMove _ _ hs
  · exact hs

theorem arrive (c : Carriage) (p : Place) (w : Saw) (hs : P s) : P (s.arrive c p w) := by
  unfold State.arrive; split
  · exact hs
  · split
    · exact h.claimHere _ (h.modSeq _ _ (h.setUser _ _ hs))
    · exact h.enterSawWait _ _ (h.modSeq _ _ hs)

theorem moveOn (c : Carriage) (hs : P s) : P (s.moveOn c) := by
  unfold State.moveOn; split
  · exact h.claimMove _ _ hs
  · exact h.claimMove _ _ hs
  · split
    · exact h.arrive _ _ _ hs
    · exact h.claimMove _ _ hs
  · exact hs

theorem choose (c : Carriage) (hs : P s) : P (s.choose c) := by
  unfold State.choose; split
  · exact h.enterCarBlocked _ hs
  · split
    · exact h.enterCarBlocked _ hs
    · split
      · exact h.moveOn _ (h.modSeq _ _ (h.modWork _ _ (h.setUser _ _ hs)))
      · exact h.enterCarBlocked _ hs

theorem act (c : Carriage) (hs : P s) : P (s.act c) := by
  unfold State.act; split
  · exact h.enterHeld _ hs
  · split
    · exact h.enterIdle _ hs
    · exact h.choose _ hs
    · exact h.moveOn _ hs

theorem proceed (c : Carriage) (hs : P s) : P (s.proceed c) := h.act _ (h.advance _ hs)

theorem actOnCancel (c : Carriage) (hs : P s) : P (s.actOnCancel c) := by
  unfold State.actOnCancel; split
  · exact h.proceed _ (h.modSeq _ _ hs)
  · dsimp only; split
    · exact h.proceed _ (h.endWork _ (h.modSeq _ _ (h.releasePlaces _ hs)))
    · exact h.proceed _ (h.modSeq _ _ (h.modSeq _ _ (h.releasePlaces _ hs)))

theorem actOnExpiry (c : Carriage) (hs : P s) : P (s.actOnExpiry c) := by
  unfold State.actOnExpiry; split
  · exact hs
  · split
    · exact h.act _ (h.modSeq _ _ (h.releaseDest _ (h.blockTimedOut _ _ (h.raise _ _ _ _ rfl hs))))
    · exact hs

theorem suspendFor (c : Carriage) (w ph d x) (hs : P s) : P (s.suspendFor c w ph d x) := by
  unfold State.suspendFor; dsimp only; split
  · exact hs
  · exact h.workNotice (h.takeOffer _ _ (h.suspendEntry _ _ (h.modSeq _ _ (h.releaseSource _ hs))))

theorem preempt (c : Carriage) (ph d) (hs : P s) : P (s.preempt c ph d) := by
  unfold State.preempt; split
  · exact hs
  · dsimp only; split
    · exact h.suspendFor _ _ _ _ _ (h.request _ _ hs)
    · exact h.request _ _ hs

theorem goOn (c : Carriage) (hs : P s) : P (s.goOn c) := by
  unfold State.goOn; split
  · exact h.actOnCancel _ hs
  · split
    · exact h.actOnExpiry _ hs
    · exact h.proceed _ hs

theorem pickDone (c : Carriage) (p : Place) (g b) (hs : P s) : P (s.pickDone c p g b) := by
  unfold State.pickDone; split
  · exact hs
  · rename_i x _
    have h1 : P ((s.liftFrom p).modSeq c fun q => { q with load := some ⟨x, p, !b, g⟩ }) :=
      h.modSeq _ _ (h.liftFrom _ hs)
    dsimp only; split
    · exact h1
    · split
      · exact h.modSeq _ _ (h.modWork _ _ (h.releaseSource _ h1))
      · split
        · split
          · exact h.modWork _ _ h1
          · exact h.releaseDest _ (h.modWork _ _ h1)
        · exact h.modWork _ _ h1
      · exact h1

theorem pickAbandoned (c : Carriage) (hs : P s) : P (s.pickAbandoned c) := by
  have h1 := h.releaseDest c (h.releaseSource c hs)
  unfold State.pickAbandoned; dsimp only; split
  · exact h1
  · split
    · exact h.endWork _ h1
    · exact h.modWork _ _ h1

theorem placeDone (c : Carriage) (hs : P s) : P (s.placeDone c) := by
  have h1 := h.releaseDest c hs
  unfold State.placeDone; split
  · exact hs
  · dsimp only; split
    · split
      · exact h1
      · exact h.endWork _ h1
    · split
      · exact h.modSeq _ _ h1
      · exact h.preempt _ _ _ (h.modSeq _ _ h1)

theorem travelDone (c : Carriage) (p) (hs : P s) : P (s.travelDone c p) :=
  h.dueExam (h.modRec _ _ (h.releaseZones _ _ hs))

theorem letGo (c : Carriage) (p : Place) (x) (hs : P s) : P (s.letGo c p x) :=
  h.modSeq _ _ (h.addTo _ _ hs)

theorem countdown (c : Carriage) (n) (hs : P s) : P (s.countdown c n) := by
  unfold State.countdown; split
  · exact hs
  · rename_i e _
    split
    · split
      · exact h.orderEnd _ (h.modSeq _ _ (h.raise _ _ _ _ rfl (h.drop _ _ hs)))
      · refine h.orders _ _ _ (fun x hx => ⟨rfl, fun k => ?_⟩) hs
        simp only [decide_eq_true_eq] at hx
        subst hx
        simp only [OrderEntry.ok, Bool.and_eq_true, decide_eq_true_eq] at k ⊢
        omega
    · exact hs

theorem fed (c : Carriage) (p : Place) (x) (hs : P s) : P (s.fed c p x) := by
  unfold State.fed; split
  · have h1 := h.placement ‹Saw› p x hs
    dsimp only; split
    · split
      · exact h.countdown _ _ h1
      · exact h1
    · exact h1
  · exact hs

/-! ### Zone Arbiter -/

theorem grantWaiting (w) (hs : P s) : P (s.grantWaiting w) := by
  unfold State.grantWaiting; split
  · exact h.positionConflict _ _ _ hs
  · exact h.grantSpan _ _ (h.withdrawClaim _ hs)

theorem grantIfWaiting (w) (hs : P s) : P (s.grantIfWaiting w) := by
  unfold State.grantIfWaiting; split
  · split
    · exact h.grantWaiting _ hs
    · exact hs
  · exact hs

theorem grantClaims (hs : P s) : P s.grantClaims := by
  unfold State.grantClaims; split
  · exact hs
  · exact h.grantWaiting _ hs
  · split
    · exact h.grantWaiting _ hs
    · exact h.grantIfWaiting _ (h.grantWaiting _ hs)

theorem orderMove (c : Carriage) (k z) (hs : P s) :
    match s.orderMove c k z with
    | .moved t => P t
    | .conflict t => P t
    | .withheld => True := by
  cases z with
  | none => simp [State.orderMove]
  | some z =>
    rcases hc : (s.arec c).zone with _ | cur
    · simp [State.orderMove, hc]
    · by_cases hq : (decide (z ≤ 15)
          && s.spanClaimable c (decide (k = .clearOut)) (spanOf cur z)) = true
      · have hm : ∀ y : Nat, P ((((((s.withdrawClaim c).holdZones c
            (inRange (spanOf cur z))).modRec c fun r =>
            { r with ordered := some ⟨k, z⟩ }).setCarState c .moving).modSeq c fun q =>
            { q with atInfeed := false }).dueExam.handStep c
            (.travel ((((((s.withdrawClaim c).holdZones c
            (inRange (spanOf cur z))).modRec c fun r =>
            { r with ordered := some ⟨k, z⟩ }).setCarState c .moving).modSeq c fun q =>
            { q with atInfeed := false }).cell.middle z) y
            (((((((s.withdrawClaim c).holdZones c
            (inRange (spanOf cur z))).modRec c fun r =>
            { r with ordered := some ⟨k, z⟩ }).setCarState c .moving).modSeq c fun q =>
            { q with atInfeed := false }).sq c).loadFloor))) := fun y =>
          h.handStep _ _ (h.dueExam (h.modSeq _ _ (h.setCarState _ _
            (h.modRec _ _ (h.holdZones _ _ (h.withdrawClaim _ hs))))))
        unfold State.orderMove
        simp only [hc, hq, if_true]
        rcases hst : s.strayed c with _ | v <;> rcases hp : (s.pt c).position with _ | p
        · exact hm 0
        · exact hm p.y
        · exact hm 0
        · exact h.positionConflict _ _ _ hs
      · unfold State.orderMove
        simp only [hc, hq]
        trivial

theorem stallClaim (w) (hs : P s) : P (s.stallClaim w) := by
  unfold State.stallClaim; split
  · split
    · exact hs
    · exact h.raise _ _ _ _ rfl (h.modClaim _ _ hs)
  · exact hs

theorem makeWay (c : Carriage) (w l) (hs : P s) : P (s.makeWay c w l) := by
  unfold State.makeWay; split
  · exact hs
  · have h1 := h.orderMove c .makeWay (makeWayTarget c (s.claimSpan w)) hs
    revert h1
    rcases s.orderMove c .makeWay (makeWayTarget c (s.claimSpan w)) with t | t | _ <;> intro h1
    · exact h.modClaim _ _ h1
    · exact h1
    · exact foldl _ (fun _ x ht => h.stallClaim x ht) _ _ hs

theorem yieldFor (w o) (hs : P s) : P (s.yieldFor w o) := by
  unfold State.yieldFor; split
  · exact h.makeWay _ _ _ hs
  · exact h.makeWay _ _ _ hs

theorem helpClaim (w) (hs : P s) : P (s.helpClaim w) := by
  unfold State.helpClaim; split
  · exact hs
  · split
    · exact hs
    · dsimp only; split_ifs
      · exact h.stallClaim _ hs
      · exact hs
      all_goals split
      · exact h.yieldFor _ _ hs
      · exact h.makeWay _ _ _ hs
      · exact h.yieldFor _ _ hs
      · exact hs

theorem helpClaims (hs : P s) : P s.helpClaims := foldl _ (fun _ x ht => h.helpClaim x ht) _ _ hs

theorem drawFor (r) (hs : P s) : P (s.drawFor r) := by
  unfold State.drawFor; split
  · exact hs
  · exact h.free _ _ hs

theorem closeGate (g : Gate) (r) (hs : P s) : P (s.closeGate g r) :=
  h.raise _ _ _ _ rfl (h.drawFor _ (h.modGate _ _ (h.addSource _ _ hs)))

theorem closeHost (r) (hs : P s) : P (s.closeHost r) :=
  h.raise _ _ _ _ rfl (h.arb _ _ (h.addSource _ _ hs))

theorem judgeGate (g : Gate) (hs : P s) : P (s.judgeGate g) := by
  unfold State.judgeGate; split
  · split
    · exact h.closeGate _ _ hs
    · exact hs
  · exact hs

theorem judgeHost (hs : P s) : P s.judgeHost := by
  unfold State.judgeHost; split
  · split
    · exact h.closeHost _ hs
    · exact hs
  · exact hs

theorem setClosingStall (k b) (hs : P s) : P (s.setClosingStall k b) := by
  unfold State.setClosingStall; split
  · exact h.modGate _ _ hs
  · exact h.arb _ _ hs

theorem stallClosing (c : Carriage) (k) (hs : P s) : P (s.stallClosing c k) := by
  unfold State.stallClosing; split
  · exact hs
  · exact h.raise _ _ _ _ rfl (h.setClosingStall _ _ hs)

theorem renewClaim (c : Carriage) (hs : P s) : P (s.renewClaim c) := by
  unfold State.renewClaim; split
  · exact hs
  · exact h.arb _ _ hs

theorem orderOut (c : Carriage) (l) (hs : P s) : P (s.orderOut c l) := by
  have h1 := h.orderMove c .clearOut
    (clearOutTarget c (((s.arec c).zone).getD 0) (l.map (·.2))) hs
  unfold State.orderOut; dsimp only
  generalize s.orderMove c .clearOut
    (clearOutTarget c (((s.arec c).zone).getD 0) (l.map (·.2))) = o at h1 ⊢
  cases o
  · exact foldl _ (fun _ x ht => h.setClosingStall _ _ ht) _ _ h1
  · exact h1
  · exact h.renewClaim _ (foldl _ (fun _ x ht => h.stallClosing _ _ ht) _ _ hs)

theorem clearOut (c : Carriage) (hs : P s) : P (s.clearOut c) := by
  unfold State.clearOut; split
  · exact hs
  · split_ifs
    · exact foldl _ (fun _ x ht => h.stallClosing _ _ ht) _ _ hs
    · exact hs
    · exact h.orderOut _ _ hs
    · exact hs

theorem judgeClosings (hs : P s) : P s.judgeClosings :=
  h.clearOut _ (h.clearOut _ (h.judgeHost (h.judgeGate _ (h.judgeGate _ hs))))

theorem examPass (hs : P s) : P s.examPass :=
  h.helpClaims (h.judgeClosings (h.grantClaims (h.todo _ _ hs)))

theorem examineN : ∀ (n : Nat) (s : State), P s → P (State.examineN n s)
  | 0, _, hs => hs
  | n + 1, s, hs => by
      unfold State.examineN; split
      · exact examineN n _ (h.examPass hs)
      · exact hs

theorem examine (hs : P s) : P s.examine := h.examineN _ _ hs

theorem retryBlocked (c : Carriage) (hs : P s) : P (s.retryBlocked c) := by
  unfold State.retryBlocked; dsimp only; split
  · exact h.act _ (h.todo _ _ hs)
  · exact h.todo _ _ hs

theorem retryWait (c : Carriage) (hs : P s) : P (s.retryWait c) := by
  unfold State.retryWait; dsimp only; split
  · exact h.moveOn _ (h.todo _ _ hs)
  · exact h.todo _ _ hs

theorem settleN : ∀ (n : Nat) (s : State), P s → P (State.settleN n s)
  | 0, _, hs => hs
  | n + 1, s, hs => by
      have h1 := h.examine hs
      unfold State.settleN; dsimp only
      split
      · exact settleN n _ (h.retryBlocked _ h1)
      · split
        · exact settleN n _ (h.retryBlocked _ h1)
        · split
          · exact settleN n _ (h.retryWait _ h1)
          · split
            · exact settleN n _ (h.retryWait _ h1)
            · exact h1

theorem settle (hs : P s) : P s.settle := h.settleN _ _ hs

end Stable

end Sys2Proof.Machine
end

