-- ==== Sys2Proof/Laws/Ops.lean ====
section
/-! SUPPORT. What sending reports and raising events can do, and the properties that are stable by it:
the frames of single fields and the laws of the records. -/

namespace Sys2Proof.Machine

/-! ### Sending and raising -/

/-- Sending reports changes only the outbound queue, the sent flags and the count of free values. -/
theorem sendReportsN_frame (n : Nat) (s : State) :
    ∃ l u k, State.sendReportsN n s = { s with link := l, events := u, free := k } := by
  induction n generalizing s with
  | zero => exact ⟨_, _, _, rfl⟩
  | succ n ih =>
    unfold State.sendReportsN
    split
    · exact ⟨_, _, _, rfl⟩
    · split
      · exact ⟨_, _, _, rfl⟩
      · dsimp only
        obtain ⟨l, u, k, e⟩ := ih _
        exact ⟨l, u, k, e⟩

/-- A property of the link that stands a further frame while two are free stands the sending. -/
theorem sendReportsN_link (Q : HostLink → Prop)
    (hQ : ∀ (l : HostLink) f, l.outbound.length + 2 ≤ Config.maxFrames → Q l →
      Q { l with outbound := l.outbound ++ [f] }) (n : Nat) (s : State) (h : Q s.link) :
    Q (State.sendReportsN n s).link := by
  induction n generalizing s with
  | zero => exact h
  | succ n ih =>
    unfold State.sendReportsN
    split
    · exact h
    · rename_i hf
      split
      · exact h
      · apply ih
        exact hQ _ _ (by simp only [State.freeFrames] at hf; omega) h

/-- A property of the event unit that stands marking an entry sent stands the sending. -/
theorem sendReportsN_events (Q : EventUnit → Prop)
    (hQ : ∀ (u : EventUnit) e, Q u → Q { u with entries := markSent e u.entries })
    (n : Nat) (s : State) (h : Q s.events) : Q (State.sendReportsN n s).events := by
  induction n generalizing s with
  | zero => exact h
  | succ n ih =>
    unfold State.sendReportsN
    split
    · exact h
    · split
      · exact h
      · exact ih _ (hQ _ _ h)

/-- With fewer than two frames free nothing is sent (R171). -/
theorem sendReports_full (s : State) (h : s.freeFrames < 2) : s.sendReports = s := by
  simp [State.sendReports, Config.maxFrames, State.sendReportsN, h]

/-- With no eligible entry nothing is sent (R171). -/
theorem sendReports_none (s : State)
    (h : firstInOrder (sendable s.events.gateOpen) s.events.entries = none) : s.sendReports = s := by
  simp [State.sendReports, Config.maxFrames, State.sendReportsN, h]

/-- Raising an event changes only the pending set, the outbound queue and the count of free values. -/
theorem raise_frame (s : State) (kind src d) :
    ∃ l u k, s.raise kind src d = { s with link := l, events := u, free := k } := by
  unfold State.raise
  dsimp only
  split
  · obtain ⟨l, u, k, e⟩ := sendReportsN_frame Config.maxFrames
      { s with events := (s.events.raise kind src d).1 }
    exact ⟨l, u, k, e⟩
  · exact ⟨_, _, _, rfl⟩

theorem raise_link (Q : HostLink → Prop)
    (hQ : ∀ (l : HostLink) f, l.outbound.length + 2 ≤ Config.maxFrames → Q l →
      Q { l with outbound := l.outbound ++ [f] }) (s : State) (kind src d) (h : Q s.link) :
    Q (s.raise kind src d).link := by
  unfold State.raise
  dsimp only
  split
  · exact sendReportsN_link Q hQ _ _ h
  · exact h

/-- The laws of the pending set. -/
theorem eventsOk_iff (u : EventUnit) : u.ok = true ↔
    u.entries.length ≤ Config.maxEvents ∧ (u.entries.map fun e => (e.kind, e.source)).Nodup
      ∧ (∀ e ∈ u.entries, e.repeats ≤ Config.maxSmall ∧ sourceFits e.kind e.source = true)
      ∧ u.displaced ≤ Config.maxSmall := by
  simp only [EventUnit.ok, Bool.and_eq_true, decide_eq_true_eq, List.all_eq_true, and_assoc]

theorem markSent_ok (u : EventUnit) (e : EventEntry) (h : u.ok = true) :
    ({ u with entries := markSent e u.entries } : EventUnit).ok = true := by
  rw [eventsOk_iff] at h ⊢
  obtain ⟨h1, h2, h3, h4⟩ := h
  refine ⟨by simpa [markSent] using h1, ?_, ?_, h4⟩
  · have : (markSent e u.entries).map (fun e => (e.kind, e.source))
        = u.entries.map fun e => (e.kind, e.source) := by
      simp only [markSent, List.map_map]
      refine List.map_congr_left fun x _ => ?_
      simp only [Function.comp]
      split <;> rfl
    rw [this]; exact h2
  · intro x hx
    simp only [markSent, List.mem_map] at hx
    obtain ⟨y, hy, rfl⟩ := hx
    split
    · exact h3 y hy
    · exact h3 y hy

theorem create_ok (u : EventUnit) (kind src d) (hf : sourceFits kind src = true) (h : u.ok = true)
    (hn : ∀ e ∈ u.entries, ¬(e.kind = kind ∧ e.source = src))
    (hl : u.entries.length < Config.maxEvents) : (u.create kind src d).ok = true := by
  rw [eventsOk_iff] at h ⊢
  obtain ⟨h1, h2, h3, h4⟩ := h
  have key : ∀ es : List EventEntry, es.length = u.entries.length →
      es.map (fun e => (e.kind, e.source)) = u.entries.map (fun e => (e.kind, e.source)) →
      (∀ e ∈ es, e.repeats ≤ Config.maxSmall ∧ sourceFits e.kind e.source = true) → ∀ k : Nat,
      (es ++ [(⟨kind, src, d, 0, false, k⟩ : EventEntry)]).length ≤ Config.maxEvents ∧
      ((es ++ [(⟨kind, src, d, 0, false, k⟩ : EventEntry)]).map
        fun e => (e.kind, e.source)).Nodup ∧
      ∀ e ∈ es ++ [(⟨kind, src, d, 0, false, k⟩ : EventEntry)],
        e.repeats ≤ Config.maxSmall ∧ sourceFits e.kind e.source = true := by
    intro es e1 e2 e3 k
    refine ⟨by simp; omega, ?_, ?_⟩
    · rw [List.map_append, e2]
      refine List.Nodup.append h2 (by simp) ?_
      intro x hx hy
      simp only [List.map_cons, List.map_nil, List.mem_singleton] at hy
      subst hy
      simp only [List.mem_map] at hx
      obtain ⟨e, he, heq⟩ := hx
      cases heq
      exact hn e he ⟨rfl, rfl⟩
    · intro e he
      rw [List.mem_append, List.mem_singleton] at he
      rcases he with he | rfl
      · exact e3 e he
      · exact ⟨Nat.zero_le _, hf⟩
  simp only [EventUnit.create, EventUnit.nextNumber]
  split
  · exact ⟨(key _ rfl rfl h3 _).1, (key _ rfl rfl h3 _).2.1, (key _ rfl rfl h3 _).2.2, h4⟩
  · have e3 : ∀ e ∈ u.entries.mapIdx (fun i e => ({ e with creation := i + 1 } : EventEntry)),
        e.repeats ≤ Config.maxSmall ∧ sourceFits e.kind e.source = true := by
      intro e he
      rw [List.mem_mapIdx] at he
      obtain ⟨i, hi, rfl⟩ := he
      exact h3 u.entries[i] (List.getElem_mem hi)
    have e2 : (u.entries.mapIdx (fun i e => ({ e with creation := i + 1 } : EventEntry))).map
        (fun e => (e.kind, e.source)) = u.entries.map (fun e => (e.kind, e.source)) := by
      apply List.ext_getElem <;> simp
    exact ⟨(key _ (by simp) e2 e3 _).1, (key _ (by simp) e2 e3 _).2.1, (key _ (by simp) e2 e3 _).2.2,
      h4⟩

theorem filter_ok (u : EventUnit) (p : EventEntry → Bool) (h : u.ok = true) :
    ({ u with entries := u.entries.filter p } : EventUnit).ok = true := by
  rw [eventsOk_iff] at h ⊢
  obtain ⟨h1, h2, h3, h4⟩ := h
  refine ⟨(List.length_filter_le _ _).trans h1, h2.sublist ?_, fun e he => ?_, h4⟩
  · exact (List.filter_sublist).map _
  · exact h3 e (List.mem_of_mem_filter he)

theorem displaced_ok (u : EventUnit) (h : u.ok = true) : u.countDisplaced.ok = true := by
  rw [eventsOk_iff] at h ⊢
  exact ⟨h.1, h.2.1, h.2.2.1, Nat.min_le_right _ _⟩

theorem raiseUnit_ok (u : EventUnit) (kind src d) (hf : sourceFits kind src = true)
    (h : u.ok = true) :
    (u.raise kind src d).1.ok = true := by
  unfold EventUnit.raise
  split
  · rw [eventsOk_iff] at h ⊢
    obtain ⟨h1, h2, h3, h4⟩ := h
    refine ⟨by simpa using h1, ?_, ?_, h4⟩
    · simp only [List.map_map]
      convert h2 using 1
      refine List.map_congr_left fun x _ => ?_
      simp only [Function.comp]
      split <;> rfl
    · intro x hx
      simp only [List.mem_map] at hx
      obtain ⟨y, hy, rfl⟩ := hx
      split
      · exact ⟨Nat.min_le_right _ _, (h3 y hy).2⟩
      · exact h3 y hy
  · rename_i hno
    have hn : ∀ e ∈ u.entries, ¬(e.kind = kind ∧ e.source = src) := by
      intro e he hk
      apply hno
      rw [List.any_eq_true]
      exact ⟨e, he, by simp [sameEvent, hk.1, hk.2]⟩
    split
    · exact create_ok _ _ _ _ hf h hn ‹_›
    · split
      · exact h
      · rename_i e hmem
        split
        · refine displaced_ok _ (create_ok _ _ _ _ hf (filter_ok u _ h)
            (fun x hx => hn x (List.mem_of_mem_filter hx)) ?_)
          have hin : e ∈ u.entries := by
            unfold oldestLowest at hmem
            split at hmem
            · cases hmem; exact List.mem_of_find?_eq_some ‹_›
            · split at hmem
              · cases hmem; exact List.mem_of_find?_eq_some ‹_›
              · exact List.mem_of_head? hmem
          have : (u.entries.filter fun x => !sameEvent e.kind e.source x).length
              < u.entries.length := by
            rw [← List.countP_eq_length_filter]
            rw [List.countP_lt_length_iff]
            exact ⟨e, hin, by simp [sameEvent]⟩
          exact lt_of_lt_of_le this ((eventsOk_iff u).1 h).1
        · exact displaced_ok _ h

theorem raise_eventsOk (s : State) (kind src d) (hf : sourceFits kind src = true)
    (h : s.events.ok = true) :
    (s.raise kind src d).events.ok = true := by
  have h1 := raiseUnit_ok s.events kind src d hf h
  unfold State.raise
  dsimp only
  split
  · exact sendReportsN_events (·.ok = true) markSent_ok _ _ h1
  · exact h1

/-! ### Stops, releases and claims -/

/-- A port that is stopping sends no second STOP for the fault of a referenced carriage (R130, R131). -/
theorem stopDrive_of_stopping (s : State) (c : Carriage) (h : (s.pt c).stopping = true) :
    s.stopDrive c = s := by simp [State.stopDrive, h]

theorem sendStop_stopping (s : State) (c : Carriage) : ((s.sendStop c).pt c).stopping = true := by
  cases c <;> rfl

/-- A change of a carriage's state gives it that state and leaves every port as it was (R119). -/
theorem setCarState_spec (s : State) (c : Carriage) (st : CarState) :
    ((s.setCarState c st).sq c).state = st ∧ (s.setCarState c st).port = s.port := by
  unfold State.setCarState
  split
  · rename_i h
    exact ⟨h, rfl⟩
  · unfold State.nudgeBlocked
    dsimp only
    cases c <;> (repeat' split) <;> exact ⟨rfl, rfl⟩

/-- A homing carriage that is stopped is UNREFERENCED and its port is the one STOP was sent to, whatever
the port was doing (R130, R131, R141). -/
theorem stopHoming_spec (s : State) (c : Carriage) :
    ((s.stopHoming c).sq c).state = .unreferenced
      ∧ (s.stopHoming c).port = (s.sendStop c).port :=
  setCarState_spec _ _ _

/-- A release decided while one is pending changes nothing (R151). -/
theorem decideRelease_of_pending (s : State) (w : Saw) (h : s.saws[w].releasePending = true) :
    s.decideRelease w = s := by
  simp only [State.decideRelease, if_pos h]

/-- A claim withdrawn and made anew changes the waiting list alone. -/
theorem renewClaim_frame (s : State) (c : Carriage) :
    ∃ l, s.renewClaim c = { s with arb := { s.arb with waiting := l } } := by
  unfold State.renewClaim
  split <;> exact ⟨_, rfl⟩

theorem renewClaim_of_none (s : State) (c : Carriage) (h : s.claimOf c = none) :
    s.renewClaim c = s := by
  simp only [State.renewClaim, h]

/-! ### Pending alarms -/

/-- The alarms there can be: one E-STOP, four breaches, three alarms of each carriage (Table 9-1). -/
def alarmSources : List (EventKind × EventSource) :=
  [(.eStop, .cell), (.curtainBreach, .curtain 0), (.curtainBreach, .curtain 1),
    (.curtainBreach, .curtain 2), (.curtainBreach, .curtain 3), (.zoneConflict, .carriage .A),
    (.zoneConflict, .carriage .B), (.gripLoss, .carriage .A), (.gripLoss, .carriage .B),
    (.driveFault, .carriage .A), (.driveFault, .carriage .B)]

theorem mem_alarmSources (k : EventKind) (src : EventSource) (h : sourceFits k src = true)
    (ha : eventClass k = .alarm) : (k, src) ∈ alarmSources := by
  cases k <;> simp only [eventClass, reduceCtorEq] at ha <;> cases src <;>
    simp only [sourceFits, Bool.false_eq_true] at h
  · decide
  · rename_i c; revert c; decide
  all_goals (rename_i c; cases c <;> decide)

/-- At most 11 of the pending events are alarms. -/
theorem alarms_le (u : EventUnit) (h : u.ok = true) :
    (u.entries.filter fun e => decide (eventClass e.kind = .alarm)).length ≤ 11 := by
  obtain ⟨_, h2, h3, _⟩ := (eventsOk_iff u).1 h
  have hn : ((u.entries.filter fun e => decide (eventClass e.kind = .alarm)).map
      fun e => (e.kind, e.source)).Nodup := h2.sublist ((List.filter_sublist).map _)
  have hs := (List.subperm_of_subset hn (l₂ := alarmSources) (by
    intro x hx
    simp only [List.mem_map, List.mem_filter, decide_eq_true_eq] at hx
    obtain ⟨e, ⟨he, ha⟩, rfl⟩ := hx
    exact mem_alarmSources _ _ (h3 e he).2 ha)).length_le
  simpa [alarmSources] using hs

/-- A full pending set gives way with an entry that is no alarm (R170). -/
theorem oldestLowest_class (u : EventUnit) (h : u.ok = true)
    (hl : Config.maxEvents ≤ u.entries.length) :
    ∃ e ∈ u.entries, oldestLowest u.entries = some e ∧ eventClass e.kind ≠ .alarm := by
  unfold oldestLowest
  split
  · rename_i e he
    have := List.find?_some he
    exact ⟨e, List.mem_of_find?_eq_some he, rfl, by simp_all⟩
  · rename_i hnot
    split
    · rename_i e he
      have := List.find?_some he
      exact ⟨e, List.mem_of_find?_eq_some he, rfl, by simp_all⟩
    · rename_i hwarn
      exfalso
      have hall : (u.entries.filter fun e => decide (eventClass e.kind = .alarm)) = u.entries := by
        rw [List.filter_eq_self]
        intro e he
        have h1 := List.find?_eq_none.1 hnot e he
        have h2 := List.find?_eq_none.1 hwarn e he
        cases hc : eventClass e.kind <;> simp_all
      have := alarms_le u h
      rw [hall] at this
      simp only [Config.maxEvents] at hl
      omega

/-- An event of this kind and source is pending with this detail. -/
def hasEvent (es : List EventEntry) (k : EventKind) (src : EventSource) (d : Int) : Prop :=
  ∃ e ∈ es, e.kind = k ∧ e.source = src ∧ e.detail = d

theorem hasEvent_map (es : List EventEntry) (f : EventEntry → EventEntry) (k src d)
    (hf : ∀ e ∈ es, (f e).kind = e.kind ∧ (f e).source = e.source ∧ (f e).detail = e.detail)
    (h : hasEvent es k src d) : hasEvent (es.map f) k src d := by
  obtain ⟨e, he, h1, h2, h3⟩ := h
  obtain ⟨g1, g2, g3⟩ := hf e he
  exact ⟨f e, List.mem_map_of_mem he, g1.trans h1, g2.trans h2, g3.trans h3⟩

theorem hasEvent_nextNumber (u : EventUnit) (k src d) (h : hasEvent u.entries k src d) :
    hasEvent u.nextNumber.2.entries k src d := by
  unfold EventUnit.nextNumber
  split
  · exact h
  · obtain ⟨e, he, h1, h2, h3⟩ := h
    obtain ⟨i, hi, rfl⟩ := List.getElem_of_mem he
    exact ⟨{ u.entries[i] with creation := i + 1 }, List.mem_mapIdx.2 ⟨i, hi, rfl⟩, h1, h2, h3⟩

theorem hasEvent_create (u : EventUnit) (k src d) (k' : EventKind) (src' : EventSource) (d' : Int)
    (h : (k = k' ∧ src = src' ∧ d = d') ∨ hasEvent u.entries k src d) :
    hasEvent (u.create k' src' d').entries k src d := by
  unfold EventUnit.create
  rcases h with ⟨rfl, rfl, rfl⟩ | h
  · exact ⟨_, List.mem_append_right _ (List.mem_singleton.2 rfl), rfl, rfl, rfl⟩
  · obtain ⟨e, he, hh⟩ := hasEvent_nextNumber u k src d h
    exact ⟨e, List.mem_append_left _ he, hh⟩

/-- A raised alarm is pending, and an alarm of another kind or source stays pending (R170). -/
theorem raiseUnit_hasEvent (u : EventUnit) (k' : EventKind) (src' : EventSource) (d' : Int)
    (k src d) (hok : u.ok = true) (hk' : eventClass k' = .alarm) (hk : eventClass k = .alarm)
    (h : (k = k' ∧ src = src' ∧ d = d')
      ∨ (¬(k = k' ∧ src = src') ∧ hasEvent u.entries k src d)) :
    hasEvent (u.raise k' src' d').1.entries k src d := by
  unfold EventUnit.raise
  split
  · rename_i hany
    rcases h with ⟨rfl, rfl, rfl⟩ | ⟨hne, e, he, rfl, rfl, rfl⟩
    · obtain ⟨e, he, hs⟩ := List.any_eq_true.1 hany
      simp only [sameEvent, Bool.and_eq_true, decide_eq_true_eq] at hs
      refine ⟨_, List.mem_map_of_mem he, ?_, ?_, ?_⟩ <;>
        simp [sameEvent, hs.1, hs.2]
    · refine ⟨_, List.mem_map_of_mem he, ?_, ?_, ?_⟩ <;> split <;>
        simp_all [sameEvent]
  · split
    · exact hasEvent_create u k src d k' src' d' (h.imp_right (·.2))
    · rename_i hlen
      obtain ⟨o, ho, hold, hcls⟩ := oldestLowest_class u hok (Nat.not_lt.1 hlen)
      simp only [hold, hk']
      have hle : classCode .alarm ≤ classCode (eventClass o.kind) := Nat.zero_le _
      simp only [hle, if_true, EventUnit.countDisplaced]
      apply hasEvent_create
      refine h.imp_right fun ⟨_, e, he, h1, h2, h3⟩ => ⟨e, List.mem_filter.2 ⟨he, ?_⟩, h1, h2, h3⟩
      simp only [sameEvent, Bool.not_eq_true', Bool.and_eq_false_iff, decide_eq_false_iff_not]
      left
      rintro heq
      rw [← heq, h1, hk] at hcls
      exact hcls rfl

/-- What a raised alarm leaves pending (R170, R171). -/
theorem raise_hasEvent (s : State) (k' : EventKind) (src' : EventSource) (d' : Int) (k src d)
    (hok : s.events.ok = true) (hk' : eventClass k' = .alarm) (hk : eventClass k = .alarm)
    (h : (k = k' ∧ src = src' ∧ d = d')
      ∨ (¬(k = k' ∧ src = src') ∧ hasEvent s.events.entries k src d)) :
    hasEvent (s.raise k' src' d').events.entries k src d := by
  have h1 := raiseUnit_hasEvent s.events k' src' d' k src d hok hk' hk h
  unfold State.raise
  dsimp only
  split
  · refine sendReportsN_events (fun u => hasEvent u.entries k src d) (fun u e hu => ?_) _ _ h1
    refine hasEvent_map _ _ _ _ _ (fun x _ => ?_) hu
    split <;> simp
  · exact h1

/-! ### Frames of single fields -/

namespace Stable

/-- A property of the pending commands, the Cell Map and the input lines is stable. -/
theorem outside (Q : List Instr → CellMap → Lines → Prop) :
    Stable fun s => Q s.pending s.cell s.lines where
  seq _ _ h := h
  port _ _ h := h
  arb _ _ h := h
  todo _ _ h := h
  free _ _ h := h
  saw _ _ _ _ h := h
  stack _ _ _ h := h
  orders _ _ _ _ h := h
  drop _ _ h := h
  returns _ _ h := h
  rank _ h := h
  counters _ _ _ h := h
  raise s k src d _ h := by
    obtain ⟨l, u, n, e⟩ := raise_frame s k src d
    rw [e]; exact h
  clear _ _ h := h

/-- A property of the link that stands a further frame while two are free is stable. -/
theorem ofLink (Q : HostLink → Prop)
    (hQ : ∀ (l : HostLink) f, l.outbound.length + 2 ≤ Config.maxFrames → Q l →
      Q { l with outbound := l.outbound ++ [f] }) : Stable fun s => Q s.link where
  seq _ _ h := h
  port _ _ h := h
  arb _ _ h := h
  todo _ _ h := h
  free _ _ h := h
  saw _ _ _ _ h := h
  stack _ _ _ h := h
  orders _ _ _ _ h := h
  drop _ _ h := h
  returns _ _ h := h
  rank _ h := h
  counters _ _ _ h := h
  raise s k src d _ h := raise_link Q hQ s k src d h
  clear _ _ h := h

/-- The laws of the pending set are stable. -/
theorem eventsOk : Stable fun s => s.events.ok = true where
  seq _ _ h := h
  port _ _ h := h
  arb _ _ h := h
  todo _ _ h := h
  free _ _ h := h
  saw _ _ _ _ h := h
  stack _ _ _ h := h
  orders _ _ _ _ h := h
  drop _ _ h := h
  returns _ _ h := h
  rank _ h := h
  counters _ _ _ h := h
  raise s k src d hf h := raise_eventsOk s k src d hf h
  clear s _ h := filter_ok s.events _ h

/-- The laws of the counters are stable. -/
theorem countersOk : Stable fun s => s.counters.ok = true where
  seq _ _ h := h
  port _ _ h := h
  arb _ _ h := h
  todo _ _ h := h
  free _ _ h := h
  saw _ _ _ _ h := h
  stack _ _ _ h := h
  orders _ _ _ _ h := h
  drop _ _ h := h
  returns _ _ h := h
  rank _ h := h
  counters s f hf h := hf _ h
  raise s k src d _ h := by
    obtain ⟨l, u, n, e⟩ := raise_frame s k src d
    rw [e]; exact h
  clear _ _ h := h

theorem sawsOk_iff (v : Vector SawStation 4) : sawsOk v = true ↔ ∀ w : Saw, v[w].ok = true := by
  simp [Sys2Proof.Machine.sawsOk]

/-- The laws of the saw stations are stable. -/
theorem sawsOk : Stable fun s => Sys2Proof.Machine.sawsOk s.saws = true where
  seq _ _ h := h
  port _ _ h := h
  arb _ _ h := h
  todo _ _ h := h
  free _ _ h := h
  saw s w f hf h := by
    rw [sawsOk_iff] at h ⊢
    intro v
    simp only [modSaw_saws, Fin.getElem_fin, Vector.getElem_set]
    split
    · exact hf _ (h w)
    · exact h v
  stack _ _ _ h := h
  orders _ _ _ _ h := h
  drop _ _ h := h
  returns _ _ h := h
  rank _ h := h
  counters _ _ _ h := h
  raise s k src d _ h := by
    obtain ⟨l, u, n, e⟩ := raise_frame s k src d
    rw [e]; exact h
  clear _ _ h := h

theorem recordsOk_iff (m : CellMap) (v : Vector (Option StackRec) 32) : recordsOk m v = true ↔
    ∀ p : Place, v[p].isSome = decide (m.places[p].kind ≠ .unused) := by
  simp [Sys2Proof.Machine.recordsOk]

/-- The records exist for the places that are not UNUSED: stable. -/
theorem recordsOk : Stable fun s => Sys2Proof.Machine.recordsOk s.cell s.stackRecs = true where
  seq _ _ h := h
  port _ _ h := h
  arb _ _ h := h
  todo _ _ h := h
  free _ _ h := h
  saw _ _ _ _ h := h
  stack s p f h := by
    rw [recordsOk_iff] at h ⊢
    intro q
    simp only [modStack_stackRecs, modStack_cell, Fin.getElem_fin, Vector.getElem_set]
    split
    · rename_i e
      have := Fin.ext e
      subst this
      rw [Option.isSome_map]; exact h p
    · exact h q
  orders _ _ _ _ h := h
  drop _ _ h := h
  returns _ _ h := h
  rank _ h := h
  counters _ _ _ h := h
  raise s k src d _ h := by
    obtain ⟨l, u, n, e⟩ := raise_frame s k src d
    rw [e]; exact h
  clear _ _ h := h

theorem queueOk_iff (q : OrderQueue) : q.ok = true ↔
    q.entries.length ≤ Config.maxOrders ∧ (q.entries.map (·.number)).Nodup
      ∧ ∀ e ∈ q.entries, e.ok = true := by
  simp only [OrderQueue.ok, Bool.and_eq_true, decide_eq_true_eq, List.all_eq_true, and_assoc]

/-- The laws of the order entries are stable. -/
theorem queueOk : Stable fun s => s.queue.ok = true where
  seq _ _ h := h
  port _ _ h := h
  arb _ _ h := h
  todo _ _ h := h
  free _ _ h := h
  saw _ _ _ _ h := h
  stack _ _ _ h := h
  orders s p f hf h := by
    rw [queueOk_iff] at h ⊢
    obtain ⟨h1, h2, h3⟩ := h
    refine ⟨by simpa using h1, ?_, ?_⟩
    · simp only [mapOrders_queue, List.map_map]
      convert h2 using 1
      refine List.map_congr_left fun e _ => ?_
      simp only [Function.comp]
      split
      · exact (hf e ‹_›).1
      · rfl
    · intro e he
      simp only [mapOrders_queue, List.mem_map] at he
      obtain ⟨x, hx, rfl⟩ := he
      split
      · exact (hf x ‹_›).2 (h3 x hx)
      · exact h3 x hx
  drop s n h := by
    rw [queueOk_iff] at h ⊢
    obtain ⟨h1, h2, h3⟩ := h
    exact ⟨(List.length_filter_le _ _).trans h1, h2.sublist (List.filter_sublist.map _),
      fun e he => h3 e (List.mem_of_mem_filter he)⟩
  returns _ _ h := h
  rank s h := by
    rw [queueOk_iff] at h ⊢
    obtain ⟨h1, h2, h3⟩ := h
    dsimp only [OrderQueue.takeRank]
    split
    · exact ⟨h1, h2, h3⟩
    · refine ⟨by simpa [OrderQueue.renumber] using h1, ?_, ?_⟩
      · simp only [OrderQueue.renumber, List.map_map]
        exact h2
      · intro e he
        simp only [OrderQueue.renumber, List.mem_map] at he
        obtain ⟨x, hx, rfl⟩ := he
        exact h3 x hx
  counters _ _ _ h := h
  raise s k src d _ h := by
    obtain ⟨l, u, n, e⟩ := raise_frame s k src d
    rw [e]; exact h
  clear _ _ h := h

end Stable

end Sys2Proof.Machine
end

