-- ==== Sys2Proof/Laws/Requests.lean ====
section
/-! SUPPORT. What taking a request can do to the link, and what a request does when it is taken at once;
the end of a step on which nothing waits. -/

namespace Sys2Proof.Machine

/-! ### The end of a step -/

theorem isAwaiting_range {g : GateRec} (h : g.isAwaiting = false) : g.awaitingRange = none := by
  unfold GateRec.isAwaiting at h
  unfold GateRec.awaitingRange
  split <;> simp_all

theorem noClaims_iff (s : State) : s.noClaims = true ↔
    s.arb.waiting = [] ∧ s.arb.gates[(0 : Gate)].isAwaiting = false
      ∧ s.arb.gates[(1 : Gate)].isAwaiting = false ∧ s.arb.host.awaiting = none := by
  simp [State.noClaims, and_assoc, Option.isNone_iff_eq_none]

theorem judgeGate_noClaims (s : State) (g : Gate) (h : s.arb.gates[g].isAwaiting = false) :
    s.judgeGate g = s := by
  unfold State.judgeGate
  unfold GateRec.isAwaiting at h
  split <;> simp_all

theorem closingsOver_noClaims (s : State) (c : Carriage) (h : s.noClaims = true) :
    s.closingsOver c = [] := by
  obtain ⟨-, h0, h1, hh⟩ := (noClaims_iff s).1 h
  simp only [State.closingsOver, State.awaitingRange, List.filterMap_cons, List.filterMap_nil,
    isAwaiting_range h0, isAwaiting_range h1, hh]

theorem examPass_noClaims (s : State) (h : s.noClaims = true) :
    s.examPass = { s with todo := { s.todo with exam := false } } := by
  have h' : ({ s with todo := { s.todo with exam := false } } : State).noClaims = true := h
  obtain ⟨hw, h0, h1, hh⟩ := (noClaims_iff s).1 h
  have e1 : ({ s with todo := { s.todo with exam := false } } : State).grantClaims
      = { s with todo := { s.todo with exam := false } } := by
    simp [State.grantClaims, hw]
  have e2 : ∀ u : State, u.noClaims = true → u.judgeClosings = u := by
    intro u hu
    obtain ⟨-, u0, u1, uh⟩ := (noClaims_iff u).1 hu
    unfold State.judgeClosings
    rw [judgeGate_noClaims u 0 u0, judgeGate_noClaims u 1 u1]
    simp only [State.judgeHost, uh, State.clearOut, closingsOver_noClaims _ _ hu]
  unfold State.examPass
  rw [e1, e2 _ h']
  simp [State.helpClaims, hw]

theorem examine_noClaims (s : State) (h : s.noClaims = true) :
    s.examine = { s with todo := { s.todo with exam := false } } := by
  unfold State.examine
  by_cases e : s.todo.exam = true
  · simp [State.examineN, e, examPass_noClaims s h]
  · have : s.todo.exam = false := by simpa using e
    obtain ⟨x, y, z⟩ : ∃ x y, s.todo = ⟨false, x, y⟩ :=
      ⟨s.todo.blocked, s.todo.wait, by rw [← this]⟩
    simp [State.examineN, z]
    rw [← z]

/-- With no claim, no closing and no notice to a carriage, a step ends where it stands. -/
theorem settle_noClaims (s : State) (h : s.noClaims = true) (hb : s.todo.blocked = ⟨false, false⟩)
    (hw : s.todo.wait = ⟨false, false⟩) : s.settle = { s with todo := Todo.none } := by
  unfold State.settle
  unfold State.settleN
  simp only [examine_noClaims s h, hb, hw]
  simp [Todo.none]

/-- With no notice left, a step ends where it stands. -/
theorem settle_rested (s : State) (hr : s.rested = true) : s.settle = s := by
  have e : s.todo = Todo.none := by simpa [State.rested] using hr
  simp [State.settle, State.settleN, State.examine, State.examineN, e, Todo.none]

/-! ### Requests and the link -/

/-- A property of the link that stands a further frame while two are free and the marks of a CELL RESET
stands the handling of a request. -/
theorem handle_link (Q : HostLink → Prop)
    (hQ : ∀ (l : HostLink) f, l.outbound.length + 2 ≤ Config.maxFrames → Q l →
      Q { l with outbound := l.outbound ++ [f] })
    (hd : ∀ l : HostLink, Q l → Q l.dropBehind) (s : State) (r : Request) (hs : Q s.link) :
    Q (s.handle r).1.link := by
  have h := Stable.ofLink Q hQ
  have hmay : ∀ (t : State), Q t.link → Q t.requeueStarved.link := fun t => h.requeueStarved
  cases r <;> dsimp only [State.handle]
  case partStatus => exact hs
  case setZoneMap =>
    unfold State.doSetZoneMap
    split
    · exact hs
    · split <;> exact hs
  case setCurtain =>
    unfold State.doSetCurtain
    split
    · exact hs
    · exact hs
    · split <;> exact hs
    · split <;> exact hs
  case setAccessGate =>
    unfold State.doSetAccessGate
    split
    · exact hs
    · exact hs
    · split <;> exact hs
    · split <;> exact hs
  case setGripProfile =>
    unfold State.doSetGripProfile
    split
    · exact hs
    · exact hs
    · split
      · exact hs
      · split <;> exact hs
  case setCellParameters t d r =>
    unfold State.doSetCellParameters
    split
    · exact hs
    · split
      · exact hs
      · split
        · exact hs
        · dsimp only
          refine Stable.foldl (P := fun t => Q t.link) _ (fun t w ht => h.judge w ht) _ _ ?_
          split
          · exact h.requeueWhere _ hs
          · exact hs
  case definePlace p k x y b n ht w =>
    unfold State.doDefinePlace
    split
    · exact hs
    · exact hs
    · split
      · exact hs
      · extract_lets ww
        split
        · exact hs
        · split
          · exact hs
          · unfold State.redefine
            extract_lets old s1 s2 s3
            have h1 : ∀ (t : State) (o n : PlaceDef), Q t.link → Q (t.loseTable o n).link := by
              intro t o n ht
              unfold State.loseTable
              split
              · split
                · exact ht
                · exact h.infeedUndefined _ ht
              · split
                · exact ht
                · exact h.putReturn _ _ (h.saw _ _ _ (fun x k => by simpa [SawStation.ok] using k) ht)
              · exact ht
            have h2 : ∀ (t : State) (p : Place) (o n : PlaceDef), Q t.link →
                Q (t.gainTable p o n).link := by
              intro t p o n ht
              unfold State.gainTable
              split
              · split
                · exact ht
                · exact h.infeedDefined _ ht
              · split
                · exact ht
                · exact h.putReturn _ _ (h.saw _ _ _ (fun x k => by simpa [SawStation.ok] using k) ht)
              · exact ht
            have h3 : Q s3.link := h2 _ _ _ _ (h1 s _ _ hs)
            split
            · exact h3
            · exact h.contentChange _ h3
  case sawConfig w m n t l k =>
    unfold State.doSawConfig
    split
    · exact hs
    · exact hs
    · rename_i w x _ hx
      split
      · exact hs
      · split
        · exact hs
        · have h0 : ∀ (f : SawStation → SawStation) (t : State), Q t.link → Q (t.modSaw w f).link :=
            fun _ _ ht => ht
          have h1 : ∀ t : State, Q t.link → Q (t.leaveFallback w).link := by
            intro t ht
            unfold State.leaveFallback
            split
            · exact h.followReady _ ht
            · exact h.followReady _ ht
            · exact ht
          unfold State.applySettings
          dsimp only
          split
          · exact h.decideRelease _ (h.reloadBookTimer _ (h1 _ (h0 _ _ hs)))
          · exact h.reloadBookTimer _ (h1 _ (h0 _ _ hs))
  case loadStack =>
    unfold State.doLoadStack
    split
    · exact hs
    · exact hs
    · exact hs
    · dsimp only
      split
      · exact hs
      · split
        · exact hs
        · split
          · exact hs
          · exact h.setStack _ _ _ hs
  case addRuns =>
    unfold State.doAddRuns
    split
    · exact hs
    · exact hs
    · dsimp only
      split
      · exact hs
      · split
        · exact hs
        · split
          · exact hs
          · split
            · exact hs
            · exact h.setStack _ _ _ hs
  case unloadPlace =>
    have h1 : ∀ (t : State) p b, Q t.link → Q (t.tellUnloaded p b).link := by
      intro t p b ht
      unfold State.tellUnloaded
      split
      · split
        · exact h.bookRemoved _ ht
        · exact ht
      · exact h.recoverReturn _ ht
      · exact ht
    unfold State.doUnloadPlace
    split
    · exact hs
    · split
      · exact hs
      · split
        · exact hs
        · split
          · exact hs
          · unfold State.unload
            split
            · exact h1 _ _ _ hs
            · exact h1 _ _ _ (h.emptyStack _ hs)
  case unlockPlace =>
    unfold State.doUnlockPlace
    split
    · exact hs
    · split
      · exact hs
      · split
        · exact hs
        · split
          · exact hs
          · exact h.setStack _ _ _ hs
  case order =>
    unfold State.doOrder
    split
    · exact hs
    · split
      · exact hs
      · split
        · exact hs
        · split
          · exact hs
          · exact h.requeueWhere _ hs
  case cancelOrder =>
    unfold State.doCancelOrder
    split
    · exact hs
    · split
      · exact hs
      · unfold State.cancelEntry
        dsimp only
        split
        · exact h.orderEnd _ (h.modSeq _ _ (h.drop _ _ hs))
        · have h1 := h.orderEnd (‹OrderEntry›.saw)
            (h.modSeq ‹Carriage› (fun q => { q with cancelPending := true })
              (h.drop _ (‹OrderEntry›.number) hs))
          unfold State.cancelNow
          split
          · exact h.actOnCancel _ (h.withdrawClaim _ h1)
          · exact h.actOnCancel _ h1
          · exact h.actOnCancel _ h1
          · exact h1
        · exact h.orderEnd _ (h.drop _ _ hs)
  case flushOrders =>
    unfold State.doFlushOrders
    dsimp only
    exact Stable.foldl (P := fun t => Q t.link) _
      (fun t e ht => h.orderEnd _ (h.drop _ _ ht)) _ _ hs
  case home =>
    unfold State.doHome
    split
    · exact hs
    · split
      · exact hs
      · split
        · exact hs
        · split
          · exact hs
          · split
            · exact hs
            · dsimp only
              unfold State.giveUpZones
              exact h.sendClear _ (h.modSeq _ _ (h.setCarState _ _ (h.dueExam
                (h.modRec _ _ (h.releaseZones _ _ hs)))))
  case hold =>
    unfold State.doHold
    split
    · exact hs
    · split
      · exact hs
      · split
        · exact hs
        · unfold State.holdNow
          dsimp only
          split
          · exact hs
          · split
            · exact hs
            · exact h.withdrawNext _ (h.modSeq _ _ hs)
          · exact h.enterHeld _ (h.withdrawClaim _ hs)
          · exact h.enterHeld _ hs
  case release =>
    unfold State.doRelease
    split
    · exact hs
    · split
      · exact hs
      · split
        · unfold State.takeUp
          dsimp only
          split
          · exact h.dueExam (h.actOnCancel _ (h.modSeq _ _ hs))
          · exact h.dueExam (h.proceed _ (h.modSeq _ _ hs))
        · split <;> exact hs
  case resume =>
    unfold State.doResume
    split
    · exact hs
    · exact hs
    · split
      · exact hs
      · dsimp only
        refine h.sendClear _ (h.modSeq _ _ (h.clear _ _ ?_))
        unfold State.dispose
        split
        · exact hs
        · split <;> exact hs
  case setDown =>
    unfold State.doSetDown
    split
    · exact hs
    · exact hs
    · split
      · exact hs
      · split
        · exact hs
        · split
          · exact hs
          · split
            · exact hs
            · split
              · exact hs
              · split
                · split
                  · unfold State.startSetDown
                    dsimp only
                    split
                    · exact h.act _ (h.beginWork _ _ (h.setUser _ _ hs))
                    · exact h.beginWork _ _ (h.setUser _ _ hs)
                  · exact hs
                · exact hs
  case zoneClose =>
    unfold State.doZoneClose
    split
    · exact hs
    · exact hs
    · split
      · exact hs
      · split
        · exact h.closeHost _ hs
        · exact hs
  case zoneOpen =>
    unfold State.doZoneOpen
    split
    · exact hs
    · exact hs
    · dsimp only
      refine h.dueExam ?_
      unfold State.withdrawHost
      split
      · split
        · exact h.arb _ _ (h.removeSource _ _ hs)
        · exact h.removeSource _ _ hs
      · exact h.removeSource _ _ hs
  case reportsOff => exact hs
  case reportsOn =>
    unfold State.doReportsOn
    split
    · exact hs
    · exact sendReportsN_link Q hQ _ _ hs
  case queryCarriage => unfold State.doQueryCarriage; split <;> exact hs
  case queryPlace => unfold State.doQueryPlace; split <;> exact hs
  case querySaw => unfold State.doQuerySaw; split <;> exact hs
  case queryOrder =>
    unfold State.doQueryOrder
    split
    · exact hs
    · split <;> exact hs
  case queryZones => exact hs
  case queryEventsSummary => exact hs
  case queryEventsList =>
    unfold State.doEventsList
    dsimp only
    split <;> exact hs
  case cellReset =>
    have h1 : ∀ (t : State) c, Q t.link → Q (t.resetCarriage c).link := by
      intro t c ht
      unfold State.resetCarriage
      dsimp only
      refine h.releaseUnlessStopping _ (h.modSeq _ _ ?_)
      split
      · exact h.stopHoming _ ht
      · exact h.sendStop _ ht
      · exact ht
      · exact ht
      · exact ht
      · exact h.setCarState _ _ ht
    have h2 : ∀ (t : State), Q t.link → Q t.resetQueue.link := by
      intro t ht
      unfold State.resetQueue State.judgeByPlace
      refine Stable.foldl (P := fun t => Q t.link) _ (fun u p hu => ?_) _ _ ht
      split
      · exact h.judge _ hu
      · exact hu
    have h3 : ∀ (t : State) c, Q t.link → Q (t.resetArbiter c).link := by
      intro t c ht
      unfold State.resetArbiter
      split <;> exact ht
    have h4 : ∀ (t : State) c, Q t.link → Q (t.askIfIdle c).link := by
      intro t c ht
      unfold State.askIfIdle
      split <;> exact ht
    have h5 : ∀ (t : State), Q t.link → Q t.resetClaims.link := by
      intro t ht
      unfold State.resetClaims
      exact h.dueExam (h3 _ _ (h3 _ _ (h.arb _ _ ht)))
    have h6 : ∀ (t : State), Q t.link → Q t.resetEvents.link := fun _ ht => ht
    unfold State.doCellReset
    extract_lets s1 s2
    have e2 : Q s2.link := h6 _ (h5 _ (h2 _ (h1 _ _ (h1 _ _ hs))))
    clear_value s2
    exact hd _ (h4 _ _ (h4 _ _ e2))

/-- A request taken at once: handled, the step ended, answered, and the list empty again (R182). -/
theorem requestArrives_takesAtOnce (s : State) (r : Request) (h : s.takesAtOnce = true)
    (hp : parseRequest (Request.kind r) (Request.body r) = .request r) :
    s.requestArrives r
      = ((((s.withRequest r).handle r).1.settle).answered (Request.kind r)
          ((s.withRequest r).handle r).2).modLink fun l => { l with waiting := [] } := by
  simp only [State.takesAtOnce, Bool.and_eq_true, decide_eq_true_eq, List.isEmpty_iff] at h
  obtain ⟨⟨⟨⟨-, hw⟩, hb⟩, hy⟩, ho⟩ := h
  have hwait : ((((s.withRequest r).handle r).1.settle).link.waiting).length = 1 :=
    (Stable.ofLink (fun l => l.waiting.length = 1) (fun _ _ _ h => h)).settle
      (handle_link (fun l => l.waiting.length = 1) (fun _ _ _ h => h)
        (fun l hl => by
          obtain ⟨a, ha⟩ := List.length_eq_one_iff.1 hl
          simp [HostLink.dropBehind, ha]) _ _ rfl)
  obtain ⟨a, ha⟩ := List.length_eq_one_iff.1 hwait
  have e0 : s.requestArrives r = (s.withRequest r).takeRequests := by
    simp only [State.requestArrives, State.goodFrame, State.withRequest, hw, State.modLink]
    simp [Config.maxWaiting]
  have e1 : (s.withRequest r).takeRequests
      = State.takeRequestsN 1 ((s.withRequest r).takeHead
          ⟨Request.kind r, Request.body r, false⟩) := by
    have hf : ¬((s.withRequest r).freeFrames = 0 ∨ (s.withRequest r).link.owes = true) := by
      simp only [State.withRequest, State.freeFrames, modLink_link, HostLink.owes, hb, hy]
      simp; omega
    unfold State.takeRequests Config.maxWaiting
    rw [State.takeRequestsN, if_neg hf]
    simp [State.withRequest]
  have e2 : (s.withRequest r).takeHead ⟨Request.kind r, Request.body r, false⟩
      = ((((s.withRequest r).handle r).1.settle).answered (Request.kind r)
          ((s.withRequest r).handle r).2).modLink fun l => { l with waiting := [] } := by
    simp only [State.takeHead, State.serve, hp, State.answered, State.modLink,
      HostLink.popWaiting, State.queueFrame, ha]
    simp [ha]
  rw [e0, e1, e2]
  unfold State.takeRequestsN
  split
  · rfl
  · simp

/-- A request whose handling leaves `t`, the step ended in `u`, the link as it was. -/
theorem requestArrives_done (s t u : State) (r : Request) (k : Reply) (h : s.takesAtOnce = true)
    (hp : parseRequest (Request.kind r) (Request.body r) = .request r)
    (hr : (s.withRequest r).handle r = (t, k)) (hu : t.settle = u.withRequest r)
    (hw : u.link.waiting = []) :
    s.requestArrives r = u.answered (Request.kind r) k := by
  rw [requestArrives_takesAtOnce s r h hp, hr]
  simp only [hu]
  simp only [State.answered, State.withRequest, State.queueFrame, State.modLink]
  rw [← hw]

/-- A request that is refused with the state as it was. -/
theorem requestArrives_refused (s : State) (r : Request) (k : Reply) (h : s.takesAtOnce = true)
    (hp : parseRequest (Request.kind r) (Request.body r) = .request r)
    (hr : (s.withRequest r).handle r = (s.withRequest r, k)) :
    s.requestArrives r = s.answered (Request.kind r) k := by
  have h' := h
  simp only [State.takesAtOnce, Bool.and_eq_true, decide_eq_true_eq, List.isEmpty_iff] at h'
  exact requestArrives_done s _ s r k h hp hr (settle_rested _ h'.1.1.1.1) h'.1.1.1.2

end Sys2Proof.Machine
end

