-- ==== Sys2Proof/Laws/Commands.lean ====
section
/-! SUPPORT. A stable property stands every drive report, saw event, timer expiry and line event. -/

namespace Sys2Proof.Machine

namespace Stable

variable {P : State → Prop} (h : Stable P) {s : State}
include h

/-! ### Drive reports -/

theorem follow (c : Carriage) (k) (hs : P s) : P (s.follow c k) := by
  unfold State.follow; split
  · exact hs
  · exact h.sendStep _ _ _ hs
  · exact h.goOn _ hs

theorem orderedMoveOver (c : Carriage) (hs : P s) : P (s.orderedMoveOver c) := by
  unfold State.orderedMoveOver; split
  · exact h.goOn _ hs
  · split
    · exact h.enterHeld _ hs
    · exact h.setCarState _ _ hs

theorem noteArrival (c : Carriage) (hs : P s) : P (s.noteArrival c) := by
  unfold State.noteArrival; split
  · exact h.modSeq _ _ hs
  · exact hs

theorem afterTravel (c : Carriage) (k b) (hs : P s) : P (s.afterTravel c k b) := by
  unfold State.afterTravel; split
  · split
    · exact h.orderedMoveOver _ hs
    · exact h.goOn _ (h.noteArrival _ hs)
  · exact h.follow _ _ hs

theorem clearAnswered (c : Carriage) (hs : P s) : P (s.clearAnswered c) := by
  have h1 : P (s.modPort c fun d => { d with link := .ready, clearPending := false }) :=
    h.modPort _ _ hs
  unfold State.clearAnswered; dsimp only; split
  · exact h.setCurrent _ _ (h.send _ _ h1)
  · split
    · exact h.enterIdle _ (h.modSeq _ _ h1)
    · exact h1
  · exact h1

theorem takeReady (c : Carriage) (hs : P s) : P (s.takeReady c) := by
  unfold State.takeReady; split
  · exact hs
  · split
    · exact h.clearAnswered _ hs
    · exact h.unexpected _ hs

theorem contactVerdict (c : Carriage) (p a b g n) (hs : P s) : P (s.contactVerdict c p a b g n) := by
  have h1 := h.judgeContact p n hs
  unfold State.contactVerdict; dsimp only; split
  · exact h.setCurrent _ _ (h.send _ _ h1)
  · exact h.setCurrent _ _ (h.send _ _ h1)

theorem takeContact (c : Carriage) (n) (hs : P s) : P (s.takeContact c n) := by
  unfold State.takeContact; split
  · exact hs
  · split
    · exact h.contactVerdict _ _ _ _ _ _ hs
    · exact h.unexpected _ hs

theorem takeGrip (c : Carriage) (n) (hs : P s) : P (s.takeGrip c n) := by
  unfold State.takeGrip; split
  · exact hs
  · split
    · split
      · exact h.setCurrent _ _ (h.send _ _ hs)
      · exact h.setCurrent _ _ (h.send _ _ hs)
    · split
      · exact h.setCurrent _ _ (h.send _ _ hs)
      · exact h.setCurrent _ _ (h.send _ _ (h.gripFail _ _ hs))
    · exact h.unexpected _ hs

theorem liftStopped (c : Carriage) (hs : P s) : P (s.liftStopped c) := by
  unfold State.liftStopped; split
  · exact h.setCurrent _ _ (h.pickDone _ _ _ _ hs)
  · exact hs

theorem takeLift (c : Carriage) (k) (hs : P s) : P (s.takeLift c k) := by
  unfold State.takeLift; split
  · exact h.liftStopped _ hs
  · dsimp only; split
    · exact h.follow _ _ (h.pickDone _ _ _ _ (h.completeStep _ _ hs))
    · exact h.follow _ _ (h.placeDone _ (h.completeStep _ _ hs))
    · exact h.unexpected _ hs

theorem pieceReleased (c : Carriage) (p) (hs : P s) : P (s.pieceReleased c p) := by
  unfold State.pieceReleased; split
  · exact h.fed _ _ _ (h.letGo _ _ _ hs)
  · exact hs

theorem releaseStopped (c : Carriage) (hs : P s) : P (s.releaseStopped c) := by
  unfold State.releaseStopped; split
  · exact h.setCurrent _ _ (h.pieceReleased _ _ hs)
  · exact h.modPort _ _ (h.pieceReleased _ _ hs)
  · exact hs

theorem takeRelease (c : Carriage) (hs : P s) : P (s.takeRelease c) := by
  unfold State.takeRelease; split
  · exact h.releaseStopped _ hs
  · split
    · exact h.setCurrent _ _ (h.pieceReleased _ _ hs)
    · exact h.unexpected _ hs

theorem travelStepDone (c : Carriage) (p k) (hs : P s) : P (s.travelStepDone c p k) := by
  unfold State.travelStepDone; dsimp only; split
  · exact h.afterTravel _ _ _ (h.examine (h.travelDone _ _ (h.completeStep _ _ hs)))
  · exact h.positionConflict _ _ _ (h.completeStep _ _ hs)

theorem takeStepDone (c : Carriage) (p k) (hs : P s) : P (s.takeStepDone c p k) := by
  unfold State.takeStepDone; split
  · exact hs
  · split
    · exact h.travelStepDone _ _ _ hs
    · exact h.follow _ _ (h.pickAbandoned _ (h.completeStep _ _ hs))
    · exact h.unexpected _ hs

theorem homeHolding (c : Carriage) (p) (hs : P s) : P (s.homeHolding c p) := by
  unfold State.homeHolding; dsimp only
  exact h.modRec _ _ (h.holdAlone _ _ hs)

theorem homed (c : Carriage) (p) (hs : P s) : P (s.homed c p) := by
  unfold State.homed
  extract_lets astray s1 s2 s3 s4
  have h1 : P s1 := h.homeHolding _ _ (h.modPort _ _ hs)
  have h2 : P s2 := by
    show P (if _ then _ else _)
    split
    · exact h.raise _ _ _ _ rfl h1
    · exact h1
  have h3 : P s3 := h.raise _ _ _ _ rfl h2
  have h4 : P s4 := by
    show P (if _ then _ else _)
    split
    · exact h.enterFaulted _ h3
    · exact h.enterIdle _ (h.clear _ _ h3)
  exact h.requeueStarved h4

theorem takeHomeDone (c : Carriage) (p) (hs : P s) : P (s.takeHomeDone c p) := by
  unfold State.takeHomeDone; split
  · exact h.homed _ _ hs
  · exact hs

theorem stoppedCheck (c : Carriage) (p) (hs : P s) : P (s.stoppedCheck c p) := by
  unfold State.stoppedCheck; split
  · exact hs
  · split
    · exact h.modRec _ _ (h.holdAlone _ _ hs)
    · exact h.positionConflict _ _ _ hs

theorem driveStopped (c : Carriage) (p) (hs : P s) : P (s.driveStopped c p) := by
  unfold State.driveStopped
  extract_lets s1 s2 s3
  have h3 : P s3 := h.releasePlaces _ (h.modRec _ _ (h.stoppedCheck _ _ (h.modPort _ _ hs)))
  split
  · exact h.act _ h3
  · exact h3

theorem takeStopped (c : Carriage) (p) (hs : P s) : P (s.takeStopped c p) := by
  unfold State.takeStopped; split
  · exact h.driveStopped _ _ hs
  · exact h.unexpected _ hs

theorem gripLoss (c : Carriage) (n) (hs : P s) : P (s.gripLoss c n) := by
  unfold State.gripLoss
  extract_lets s1 s2 s3
  have h3 : P s3 := h.raise _ _ _ _ rfl (h.modPort _ _ (h.modSeq _ _ hs))
  split
  · exact h3
  · exact h.stopHoming _ h3
  · exact h3
  · exact h3
  · exact h.stopAndFault _ h3

theorem takeVacuumLow (c : Carriage) (n) (hs : P s) : P (s.takeVacuumLow c n) := by
  unfold State.takeVacuumLow; split
  · exact h.gripLoss _ _ hs
  · exact h.unexpected _ hs

/-! ### Saw events and timers -/

theorem linkHeard (w : Saw) (hs : P s) : P (s.linkHeard w) :=
  h.saw _ _ _ (fun x k => by simpa [SawStation.ok] using k) hs

theorem takeStatus (w : Saw) (r) (hs : P s) : P (s.takeStatus w r) := by
  have h1 : P ((s.linkHeard w).modSaw w fun x => { x with status := reportedStatus r }) :=
    h.saw _ _ _ (fun x k => by simpa [SawStation.ok] using k) (h.linkHeard _ hs)
  unfold State.takeStatus; dsimp only; split
  · exact h.takeFallback _ h1
  · exact h1

theorem linkSilent (w : Saw) (hs : P s) : P (s.linkSilent w) := by
  have h1 : P (s.modSaw w fun x => { x with silence := Timer.stopped, silent := true }) :=
    h.saw _ _ _ (fun x k => by simpa [SawStation.ok] using k) hs
  unfold State.linkSilent; split
  · dsimp only; split
    · exact h.takeFallback _ h1
    · exact h1
  · exact hs

theorem bookTimerExpired (w : Saw) (hs : P s) : P (s.bookTimerExpired w) := by
  unfold State.bookTimerExpired; split
  · exact h.decideRelease _ (h.saw _ _ _ (fun x k => by simpa [SawStation.ok] using k) hs)
  · exact hs

theorem waitOver (c : Carriage) (hs : P s) : P (s.waitOver c) := by
  unfold State.waitOver; split
  · exact h.actOnExpiry _ hs
  · exact h.actOnExpiry _ (h.withdrawClaim _ hs)
  · exact h.modSeq _ _ hs
  · exact hs

theorem waitTimerExpired (c : Carriage) (hs : P s) : P (s.waitTimerExpired c) := by
  unfold State.waitTimerExpired; split
  · exact h.waitOver _ (h.modSeq _ _ hs)
  · exact hs

theorem resumeBookTimer (w : Saw) (hs : P s) : P (s.resumeBookTimer w) := by
  unfold State.resumeBookTimer; split
  · exact h.saw _ _ _ (fun x k => by simpa [SawStation.ok] using k) hs
  · exact hs

theorem readyUp (w : Saw) (hs : P s) : P (s.readyUp w) := by
  have h1 : P (s.modSaw w fun x => { x with ready := true }) :=
    h.saw _ _ _ (fun x k => by simpa [SawStation.ok] using k) hs
  unfold State.readyUp; dsimp only; split
  · exact h.resumeBookTimer _ (h.enterOpen _ h1)
  · exact h1

theorem basicRelease (w : Saw) (hs : P s) : P (s.basicRelease w) :=
  h.saw _ _ _ (fun x k => by simpa [SawStation.ok] using k) (h.cutInfeed _ hs)

theorem closeInfeed (w : Saw) (hs : P s) : P (s.closeInfeed w) := by
  unfold State.closeInfeed
  refine h.saw _ _ _ (fun x k => by simp_all [SawStation.ok, SawStation.enter]) ?_
  split
  · exact h.basicRelease _ hs
  · exact hs

theorem readyDown (w : Saw) (hs : P s) : P (s.readyDown w) := by
  have h1 : P (s.modSaw w fun x => { x with ready := false }) :=
    h.saw _ _ _ (fun x k => by simpa [SawStation.ok] using k) hs
  unfold State.readyDown; dsimp only; split
  · exact h.closeInfeed _ h1
  · exact h1

theorem afterCut (w : Saw) (hs : P s) : P (s.afterCut w) := by
  unfold State.afterCut; split
  · exact h.enterInfeedBlocked _ _ hs
  · split
    · exact h.fallbackEmpty _ (h.saw _ _ _ (fun x k => by simpa [SawStation.ok] using k) hs)
    · exact h.followReady _ hs

theorem bookCut (w : Saw) (hs : P s) : P (s.bookCut w) :=
  h.afterCut _ (h.raise _ _ _ _ rfl (h.saw _ _ _ (fun x k => by simp_all [SawStation.ok])
    (h.cutInfeed _ hs)))

theorem cutDoneUp (w : Saw) (hs : P s) : P (s.cutDoneUp w) := by
  have h1 : P (s.modSaw w fun x => { x with cutDone := true }) :=
    h.saw _ _ _ (fun x k => by simpa [SawStation.ok] using k) hs
  unfold State.cutDoneUp; dsimp only; split
  · exact h.bookCut _ h1
  · exact h1

/-! ### Lines -/

theorem breachStop (r) (c : Carriage) (hs : P s) : P (s.breachStop r c) := by
  unfold State.breachStop; split
  · split
    · exact h.stopHoming _ hs
    · exact h.raise _ _ _ _ rfl (h.enterFaulted _ (h.sendStop _ hs))
  · exact hs

theorem breach (k : Curtain) (hs : P s) : P (s.breach k) := by
  unfold State.breach; dsimp only
  exact h.breachStop _ _ (h.breachStop _ _ (h.raise _ _ _ _ rfl (h.addSource _ _ hs)))

theorem requestAccess (g : Gate) (hs : P s) : P (s.requestAccess g) := h.dueExam (h.modGate _ _ hs)

theorem disable (c : Carriage) (hs : P s) : P (s.disable c) := by
  unfold State.disable; dsimp only
  refine h.modPort _ _ ?_
  split
  · exact hs
  · exact h.sendStop _ hs

theorem giveUpZones (c : Carriage) (hs : P s) : P (s.giveUpZones c) :=
  h.dueExam (h.modRec _ _ (h.releaseZones _ _ hs))

theorem eStopCarriage (c : Carriage) (hs : P s) : P (s.eStopCarriage c) := by
  unfold State.eStopCarriage; dsimp only
  exact h.giveUpZones _ (h.setCarState _ _ (h.modRec _ _ (h.withdrawClaim _
    (h.releaseUnlessStopping _ (h.modSeq _ _ (h.handBack _ (h.disable _ hs)))))))

theorem dropAsk (c : Carriage) (hs : P s) : P (s.dropAsk c) := h.modSeq _ _ hs

theorem eStopOn (hs : P s) : P s.eStopOn := by
  unfold State.eStopOn; dsimp only
  exact h.raise _ _ _ _ rfl (h.dropAsk _ (h.dropAsk _ (h.eStopCarriage _ (h.eStopCarriage _ hs))))

theorem enable (c : Carriage) (hs : P s) : P (s.enable c) := h.setCarState _ _ (h.modPort _ _ hs)

theorem askForWork (c : Carriage) (hs : P s) : P (s.askForWork c) := by
  unfold State.askForWork; dsimp only; split
  · exact h.proceed _ (h.takeOffer _ _ (h.request _ _ (h.dropAsk _ hs)))
  · exact h.request _ _ (h.dropAsk _ hs)

end Stable

end Sys2Proof.Machine
end

