-- ==== Sys2Proof/Tests/Slice0.lean ====
section
/-! SUPPORT. Tests: the ill-formed terms the well-formedness check refuses, one or two small checks of
each command, and for every statement with hypotheses a state and operands that meet them. -/

namespace Sys2Proof.Tests

set_option Elab.async false

open Sys2Proof Sys2Proof.Machine

/-! ### Well-formedness -/

theorem test_wf_framingError : (Instr.framingError 240).wellFormed = false
    ∧ (Instr.framingError 241).wellFormed = true := by decide

theorem test_wf_unknownKind_code : (Instr.unknownKind 1 []).wellFormed = false
    ∧ (Instr.unknownKind 0x1F []).wellFormed = false ∧ (Instr.unknownKind 0x20 []).wellFormed = true
    ∧ (Instr.unknownKind 0 []).wellFormed = true := by decide

theorem test_wf_unknownKind_body : (Instr.unknownKind 0 (List.replicate 241 0)).wellFormed = false
    ∧ (Instr.unknownKind 0 (List.replicate 240 0)).wellFormed = true := by decide +kernel

theorem test_wf_zoneMap : (Instr.setZoneMap [0, 4000]).wellFormed = false
    ∧ (Instr.setZoneMap (List.replicate 16 0)).wellFormed = true := by decide

/-- A run as it stands in a request. -/
def oakRun : WireRun := ⟨120, 160, 0, 0, 1⟩

theorem test_wf_runs : (Instr.loadStack 4 0 (List.replicate 34 oakRun)).wellFormed = false
    ∧ (Instr.loadStack 4 0 (List.replicate 33 oakRun)).wellFormed = true
    ∧ (Instr.addRuns 4 (List.replicate 35 oakRun)).wellFormed = false
    ∧ (Instr.addRuns 4 (List.replicate 34 oakRun)).wellFormed = true := by decide +kernel

/-- A position outside the coordinate fields. -/
def offX : Pos := ⟨65536, 0⟩

theorem test_wf_positions : (Instr.readyReport .A offX).wellFormed = false
    ∧ (Instr.contact .A offX 0).wellFormed = false
    ∧ (Instr.gripReading .A offX 0).wellFormed = false
    ∧ (Instr.liftDone .A offX .next).wellFormed = false
    ∧ (Instr.releaseDone .A offX).wellFormed = false
    ∧ (Instr.stepDone .A offX .next).wellFormed = false
    ∧ (Instr.homeDone .A offX).wellFormed = false ∧ (Instr.stopped .A offX).wellFormed = false
    ∧ (Instr.vacuumLow .A offX 0).wellFormed = false
    ∧ (Instr.driveFault .A offX 1).wellFormed = false
    ∧ (Instr.stopped .B ⟨0, 65536⟩).wellFormed = false
    ∧ (Instr.stopped .B ⟨65535, 65535⟩).wellFormed = true := by decide

theorem test_wf_faultCode : (Instr.driveFault .A ⟨0, 0⟩ 0).wellFormed = false
    ∧ (Instr.driveFault .A ⟨0, 0⟩ 256).wellFormed = false
    ∧ (Instr.driveFault .A ⟨0, 0⟩ 255).wellFormed = true := by decide

theorem test_wf_remnant : (Instr.remnantRecord 0 0 160 (some .S)).wellFormed = false
    ∧ (Instr.remnantRecord 0 4096 160 (some .S)).wellFormed = false
    ∧ (Instr.remnantRecord 0 120 29 (some .S)).wellFormed = false
    ∧ (Instr.remnantRecord 0 120 601 (some .S)).wellFormed = false
    ∧ (Instr.remnantRecord 0 120 160 none).wellFormed = false
    ∧ (Instr.remnantRecord 0 4095 600 (some .L)).wellFormed = true := by decide

/-- No row of the table gives bits. -/
theorem test_decodeTableWord : decodeTableWord 8 0xC3 = none := by decide

/-! ### States -/

def oak : Piece := ⟨120, 160, 0, none⟩

def birch : Piece := ⟨310, 180, 1, none⟩

def birchOrder : OrderEntry := ⟨31, 0, 310, 180, .normal, 2, 2, 0, none, .queued, 1⟩

def oakOrder : OrderEntry := ⟨32, 0, 120, 160, .rush, 1, 1, 0, some 12, .queued, 2⟩

def standing : Sequencer := { Sequencer.reset with state := .idle }

def setPlace (s : State) (p : Place) (d : PlaceDef) (r : Option StackRec) : State := { s with
  cell := { s.cell with places := s.cell.places.set p.val d }
  stackRecs := s.stackRecs.set p.val r }

def setRec (s : State) (p : Place) (r : Option StackRec) : State := { s with
  stackRecs := s.stackRecs.set p.val r }

def setRet (s : State) (r : Option ReturnEntry) : State := { s with
  queue := { s.queue with returns := s.queue.returns.set 0 r } }

def withOrders (s : State) (es : List OrderEntry) : State := { s with
  queue := { s.queue with entries := es } }

def a (s : State) (f : Sequencer → Sequencer) : State := s.modSeq .A f

def pa (s : State) (f : DrivePort → DrivePort) : State := s.modPort .A f

def w0 (s : State) (f : SawStation → SawStation) : State := s.modSaw 0 f

def lk (f : HostLink → HostLink) (s : State) : State := s.modLink f

def arb (s : State) (f : Arbiter → Arbiter) : State := { s with arb := f s.arb }

/-- The zones in a list held by a carriage, beside those already held. -/
def hold (s : State) (c : Carriage) (zs : List Nat) : State := s.holdZones c fun z => zs.contains z

/-- Both carriages homed and IDLE; a stack of one oak piece on five of birch on place 4, an unmeasured
stack on 7, the infeed of saw 0 on 5, its return table on 6, a buffer on 12; saw 0 OPEN in BOOK mode; one
order of each material. -/
def base : State :=
  let s := setPlace (setPlace (setPlace (setPlace (setPlace State.reset
    4 ⟨.stock, 21000, 100, 1200, 120, 12000, none⟩
      (some ⟨.ready, none, [⟨oak, some 1⟩, ⟨birch, some 5⟩]⟩))
    5 ⟨.infeed, 29000, 100, 1000, 8, 12000, some 0⟩ (some ⟨.empty, none, []⟩))
    6 ⟨.return_, 41000, 100, 800, 4, 3000, some 0⟩ (some ⟨.empty, none, []⟩))
    7 ⟨.stock, 9000, 100, 1200, 120, 12000, none⟩ (some ⟨.measure, none, [⟨birch, none⟩]⟩))
    12 ⟨.buffer, 37000, 100, 800, 60, 3000, none⟩ (some ⟨.empty, none, []⟩)
  let s := { s with
    queue := ⟨[birchOrder, oakOrder],
      (Vector.replicate 4 none).set 0 (some ⟨6, 0, false, false, .notDue⟩), 3⟩
    seq := ⟨standing, standing⟩
    port := ⟨{ DrivePort.reset with link := .ready, position := some ⟨0, 0⟩ },
      { DrivePort.reset with link := .ready, position := some ⟨65000, 0⟩ }⟩
    arb := { s.arb with
      records := ⟨⟨some ⟨0, 0⟩, some 0, none⟩, ⟨some ⟨65000, 0⟩, some 15, none⟩⟩ } }
  w0 (hold (hold s .A [0]) .B [15]) fun x => { x with
    mode := .book, state := .opened, threshold := 3, timeout := 30, status := .auto
    silent := false, silence := ⟨true, 2000⟩, ready := true }

/-- The state a command leaves. -/
def after (i : Instr) (s : State) : State :=
  match exec i s with
  | .next t => t
  | _ => s

/-- The last frame queued. -/
def reply (i : Instr) (s : State) : Option Frame := (after i s).link.outbound.getLast?

def events (s : State) : List (EventKind × EventSource) :=
  s.events.entries.map fun e => (e.kind, e.source)

def yes (l : List Bool) : Bool := l.all id

/-- A work record of the oak order for its infeed. -/
def oakWork (ph : Phase) (src dst : Option Place) : Work :=
  ⟨.order 32 0 120 160 5 (some 12), .rush, ph, src, dst⟩

def oakLoad : Load := ⟨oak, 4, true, ⟨40, 90, 30⟩⟩

/-- Carriage A moving with a step in flight. -/
def moving (s : State) (w : Work) (st : Step) (nx : Option Step) : State :=
  pa (a s fun q => { q with state := .moving, work := some w }) fun d => { d with
    current := some st, next := nx }

/-- A pick from place 4 that has come to a phase. -/
def pick (ph : PickPhase) : Step := .pick 4 2260 100 ⟨40, 90, 30⟩ ph false

def picking (ph : PickPhase) : State :=
  moving (setRec base 4 (some ⟨.ready, some .A, [⟨oak, some 1⟩, ⟨birch, some 5⟩]⟩))
    (oakWork .source (some 4) none) (pick ph) (some (.travel 29000 100 none))

/-- A place on the infeed about to be released. -/
def placing : State :=
  a (moving (withOrders (setRec base 5 (some ⟨.empty, some .A, []⟩))
    [birchOrder, { oakOrder with state := .active .A }])
    (oakWork .deliver none (some 5)) (.place 5 1160 1000 false) none) fun q =>
      { q with load := some oakLoad }

/-! ### One or two checks of each command -/

theorem test_powerOn : after .powerOn base = State.reset
    ∧ ((after .powerOn (after .eStopAsserted base)).sq .A).state = .stopped := by decide +kernel

/-- The frame of HOME for carriage A, byte by byte. -/
def homeFrame : List Byte := [0xC3, 1, 0x10, 0, 17, 0]

theorem test_byteReceived :
    ((homeFrame.foldl (fun s b => after (.byteReceived b) s) State.reset).sq .A).state = .homing
    ∧ (homeFrame.foldl (fun s b => after (.byteReceived b) s) State.reset).link.outbound
        = [⟨0x80, [0x10]⟩] := by decide +kernel

theorem test_frameComplete : (after (.frameComplete 1)
      (lk (fun l => { l with rx := .check 0 1 [] (some 1) }) base)).link.outbound
    = [⟨0x81, [1, 0, 1]⟩] := by decide +kernel

theorem test_framingError : (after (.framingError 241)
      (lk (fun l => { l with rx := .length }) base)).link.framingErrors = 1 := by decide +kernel

theorem test_frameTimeout : (after .frameTimeout
      (lk (fun l => { l with rx := .kind 3, frameTimeouts := 65535 }) base)).link.frameTimeouts
    = 65535 := by decide +kernel

theorem test_frameFreed : (after .frameFreed (lk (fun l => { l with
      outbound := List.replicate 8 ⟨0x80, [1]⟩, owedBad := 2, owedBadKind := 9
      owedBusy := 1, owedBusyKind := 3, waiting := [⟨0x10, [0], false⟩] }) base)).link.outbound
    = List.replicate 7 ⟨0x80, [1]⟩ ++ [⟨0x81, [9, 0, 2]⟩] := by decide +kernel

theorem test_frameFreed_takesRequest : ((after .frameFreed (lk (fun l => { l with
      outbound := List.replicate 8 ⟨0x80, [1]⟩, waiting := [⟨0x10, [0], false⟩] })
        base)).sq .A).state = .homing := by decide +kernel

theorem test_unknownKind : reply (.unknownKind 0x20 [1]) base = some ⟨0x81, [0x20, 1, 0]⟩ := by
  decide +kernel

theorem test_droppedRequest : reply .droppedRequest
      (lk (fun l => { l with waiting := [⟨0x10, [0], true⟩] }) base)
    = some ⟨0x81, [0x10, 5, 0]⟩ := by decide +kernel

theorem test_partStatus : (reply .partStatus base).map (·.body.length) = some 53 := by
  decide +kernel

/-- Zone starts 3 m apart. -/
def starts3 : List Half := (List.range 16).map fun k => BitVec.ofNat 16 (k * 3000)

theorem test_setZoneMap : reply (.setZoneMap starts3) base = some ⟨0x81, [2, 5, 0]⟩
    ∧ (after (.setZoneMap starts3) State.reset).cell.starts[15] = 45000 := by decide +kernel

theorem test_setCurtain : reply (.setCurtain 3 9 5) base = some ⟨0x81, [3, 3, 3]⟩
    ∧ (after (.setCurtain 3 5 9) base).cell.curtains[3] = some ⟨5, 9⟩ := by decide +kernel

theorem test_setAccessGate : reply (.setAccessGate 2 0 0) base = some ⟨0x81, [4, 3, 1]⟩
    ∧ (after (.setAccessGate 1 0xFF 0xFF) base).cell.gates[1] = none := by decide +kernel

theorem test_setGripProfile : reply (.setGripProfile 7 20 60 30) base = some ⟨0x81, [5, 3, 2]⟩
    ∧ (after (.setGripProfile 7 60 60 60) base).cell.profiles[7] = ⟨60, 60, 60⟩ := by decide +kernel

theorem test_setCellParameters : reply (.setCellParameters 51 0 1) base = some ⟨0x81, [6, 3, 1]⟩
    ∧ (after (.setCellParameters 50 120 4) base).cell.trigger = 4 := by decide +kernel

theorem test_definePlace : reply (.definePlace 13 4 0 0 0 0 30 0) base = some ⟨0x81, [7, 8, 0]⟩
    ∧ (after (.definePlace 13 4 33000 0 1000 0 12000 1) base).cell.places[13]
        = ⟨.infeed, 33000, 0, 1000, 8, 12000, some 1⟩ := by decide +kernel

theorem test_sawConfig : reply (.sawConfig 0 0 9 30 20 0) base = some ⟨0x81, [8, 3, 3]⟩
    ∧ (after (.sawConfig 0 0 8 300 600 1) base).saws[0].waitLimit = 600 := by decide +kernel

theorem test_loadStack :
    reply (.loadStack 12 0 [⟨0, 160, 0, 0, 1⟩]) base = some ⟨0x81, [9, 3, 4]⟩
    ∧ (after (.loadStack 12 0 [oakRun, oakRun, ⟨310, 180, 1, 0, 5⟩]) base).stackRecs[12]
        = some ⟨.ready, none, [⟨oak, some 2⟩, ⟨birch, some 5⟩]⟩ := by decide +kernel

theorem test_addRuns : reply (.addRuns 7 [oakRun]) base = some ⟨0x81, [10, 5, 0]⟩
    ∧ (after (.addRuns 4 [oakRun]) base).runsAt 4 = [⟨oak, some 2⟩, ⟨birch, some 5⟩] := by
  decide +kernel

theorem test_unloadPlace : reply (.unloadPlace 32) base = some ⟨0x81, [11, 3, 1]⟩
    ∧ (after (.unloadPlace 4) base).counters.unloaded = 6 := by decide +kernel

theorem test_unlockPlace : reply (.unlockPlace 4) base = some ⟨0x81, [12, 5, 0]⟩
    ∧ (after (.unlockPlace 7) (setRec base 7
        (some ⟨.locked .overflow, none, [⟨birch, none⟩]⟩))).stackState 7 = some .measure := by
  decide +kernel

theorem test_order : reply (.order 31 0 310 180 0 2 0xFF) base = some ⟨0x81, [13, 8, 0]⟩
    ∧ reply (.order 33 0 310 180 0 2 0xFF) base
        = some ⟨0x80, [13, 33, 0, 3, 0, 0, 0]⟩ := by decide +kernel

theorem test_cancelOrder : reply (.cancelOrder 33) base = some ⟨0x81, [14, 9, 0]⟩
    ∧ reply (.cancelOrder 31) base = some ⟨0x80, [14, 31, 0, 0, 0, 0, 2, 0]⟩ := by decide +kernel

theorem test_flushOrders : reply .flushOrders base = some ⟨0x80, [15, 2]⟩
    ∧ (after .flushOrders base).queue.entries = [] := by decide +kernel

theorem test_home : reply (.home 0) (a base fun q => { q with load := some oakLoad })
      = some ⟨0x81, [16, 13, 0]⟩
    ∧ ((after (.home 1) base).pt .B).sent = [.clear] := by decide +kernel

theorem test_hold : reply (.hold 0) State.reset = some ⟨0x81, [17, 12, 0]⟩
    ∧ ((after (.hold 0) base).sq .A).state = .held := by decide +kernel

theorem test_release : reply (.release 0) base = some ⟨0x81, [18, 5, 0]⟩
    ∧ ((after (.release 0) (after (.hold 0) base)).sq .A).state = .idle := by decide +kernel

theorem test_resume : reply (.resume 0 0) base = some ⟨0x81, [19, 5, 0]⟩
    ∧ (after (.resume 0 1) (a base fun q => { q with
        state := .faulted, load := some oakLoad })).counters.lost = 1 := by decide +kernel

theorem test_resume_held : ((after (.resume 0 0) (a base fun q => { q with
    state := .faulted, load := some { oakLoad with sure := false } })).sq .A).load
      = some oakLoad := by decide +kernel

theorem test_setDown : reply (.setDown 0 12) base = some ⟨0x81, [20, 5, 0]⟩
    ∧ ((after (.setDown 0 12) (a base fun q => { q with load := some oakLoad })).sq .A).state
        = .moving := by decide +kernel

theorem test_zoneClose : reply (.zoneClose 3 9) base = some ⟨0x80, [21, 0]⟩
    ∧ (after (.zoneClose 3 9) base).zoneClosed 9 = true := by decide +kernel

theorem test_zoneOpen : reply (.zoneOpen 0 15) base = some ⟨0x80, [22, 0]⟩
    ∧ reply (.zoneOpen 9 15) (after (.zoneClose 3 9) base) = some ⟨0x80, [22, 1]⟩ := by
  decide +kernel

theorem test_reportsOff : (after .reportsOff base).events.gateOpen = false := by decide +kernel

theorem test_reportsOn : (after .reportsOn (after .reportsOff base)).events.gateOpen = true := by
  decide +kernel

theorem test_queryCarriage : reply (.queryCarriage 2) base = some ⟨0x81, [25, 3, 1]⟩
    ∧ (reply (.queryCarriage 0) base).map (·.body.length) = some 44 := by decide +kernel

theorem test_queryPlace : reply (.queryPlace 32) base = some ⟨0x81, [26, 3, 1]⟩
    ∧ (reply (.queryPlace 4) base).map (·.body.length) = some 35 := by decide +kernel

theorem test_querySaw : reply (.querySaw 4) base = some ⟨0x81, [27, 3, 1]⟩
    ∧ (reply (.querySaw 0) base).map (·.body.length) = some 30 := by decide +kernel

theorem test_queryOrder : reply (.queryOrder 33) base = some ⟨0x81, [28, 9, 0]⟩
    ∧ reply (.queryOrder 32) base = some ⟨0x80, [28, 32, 0, 0, 120, 0, 160, 0, 2, 1, 0, 1, 0, 0, 0,
        12, 0, 0xFF, 0xFF, 0xFF, 2, 0, 0, 0]⟩ := by decide +kernel

theorem test_queryZones : (reply .queryZones base).map (·.body.length) = some 98 := by
  decide +kernel

theorem test_queryEvents :
    reply .queryEventsSummary base = some ⟨0x80, [30, 0, 0, 0, 0, 1, 0, 0xFF]⟩
    ∧ reply (.queryEventsList 0) base = some ⟨0x80, [30, 0, 0, 0]⟩ := by decide +kernel

theorem test_cellReset : (after .cellReset base).queue.entries = []
    ∧ ((after .cellReset base).stackState 4) = some .ready := by decide +kernel

theorem test_readyReport : ((after (.readyReport .A ⟨5, 6⟩)
      (after (.home 0) State.reset)).pt .A).sent = [.clear, .home] := by decide +kernel

theorem test_contact :
    ((after (.contact .A ⟨21000, 100⟩ 2280) (picking .descending)).pt .A).sent = [.grip]
    ∧ (after (.contact .A ⟨21000, 100⟩ 2281) (picking .descending)).stackState 4
        = some (.locked .mismatch) := by decide +kernel

theorem test_gripReading :
    ((after (.gripReading .A ⟨21000, 100⟩ 40) (picking .firstGrip)).pt .A).sent = [.lift]
    ∧ events (after (.gripReading .A ⟨21000, 100⟩ 39) (picking .secondGrip))
        = [(.gripFail, .place 4)] := by decide +kernel

theorem test_liftDone :
    ((after (.liftDone .A ⟨21000, 100⟩ .next) (picking .lifting)).sq .A).load = some oakLoad
    ∧ (after (.liftDone .A ⟨21000, 100⟩ .next) (picking .lifting)).stackRecs[4]
        = some ⟨.ready, none, [⟨birch, some 5⟩]⟩ := by decide +kernel

theorem test_releaseDone :
    (after (.releaseDone .A ⟨29000, 100⟩) placing).runsAt 5 = [⟨oak, some 1⟩]
    ∧ events (after (.releaseDone .A ⟨29000, 100⟩) placing)
        = [(.orderDone, .order 32)] := by decide +kernel

theorem test_stepDone : ((after (.stepDone .A ⟨21000, 100⟩ .next)
      (moving (hold base .A [1, 2, 3, 4, 5]) (oakWork .source (some 4) none)
        (.travel 21000 100 none) (some (pick .descending)))).heldZones .A) = [5] := by
  decide +kernel

theorem test_homeDone : events (after (.homeDone .A ⟨17, 0⟩)
      (after (.readyReport .A ⟨5, 6⟩) (after (.home 0) State.reset)))
    = [(.homeDone, .carriage .A)] := by decide +kernel

theorem test_stopped : ((after (.stopped .A ⟨0, 0⟩) (pa (a base fun q => { q with
      state := .faulted }) fun d => { d with current := some .home, stopping := true })).pt
        .A).current = none := by decide +kernel

theorem test_vacuumLow : ((after (.vacuumLow .A ⟨0, 0⟩ 12) (a base fun q => { q with
      load := some oakLoad })).sq .A).load = some { oakLoad with sure := false } := by
  decide +kernel

theorem test_driveFault : events (after (.driveFault .B ⟨65000, 0⟩ 7) base)
      = [(.driveFault, .carriage .B)]
    ∧ ((after (.driveFault .B ⟨65000, 0⟩ 7) base).sq .B).state = .faulted := by decide +kernel

/-- Carriage A HOMING, its port still stopping. -/
def homingStopping : State := pa (a base fun q => { q with state := .homing }) fun d =>
  { d with stopping := true, sent := [] }

theorem test_stopHoming : ((after (.driveFault .A ⟨0, 0⟩ 7) homingStopping).pt .A).sent = [.stop]
    ∧ ((after .cellReset homingStopping).pt .A).sent = [.stop]
    ∧ ((after .cellReset (a homingStopping fun q => { q with state := .moving })).pt .A).sent
        = [.stop] := by
  decide +kernel

theorem test_suspendedBytes :
    State.reset.suspendedBytes 29 (some ⟨.order 258, .dig, some 4⟩) = [0, 2, 1, 1, 4]
    ∧ State.reset.suspendedBytes 34 (some ⟨.returnJob 6, .deliver, none⟩) = [1, 6, 0, 2, 255] := by
  decide +kernel

theorem test_sawStatusRecord : events (after (.sawStatusRecord 0 .manual) base)
      = [(.sawFallback, .saw 0)]
    ∧ (after (.sawStatusRecord 0 .manual) base).saws[0].mode = .basic := by decide +kernel

theorem test_remnantRecord : (after (.remnantRecord 0 120 160 (some .M)) base).counters.returned = 1
    ∧ (after (.remnantRecord 1 120 160 (some .M)) base).saws[1].overrunCount = 1 := by
  decide +kernel

theorem test_sawLinkSilence : (after (.sawLinkSilence 0) base).saws[0].silent = true := by
  decide +kernel

theorem test_bookTimerExpiry : (after (.bookTimerExpiry 0) (w0 (setRec base 5
      (some ⟨.ready, none, [⟨oak, some 2⟩]⟩)) fun x => { x with
        bookTimer := ⟨true, 0⟩ })).saws[0].cutGo = true := by decide +kernel

theorem test_waitTimerExpiry : ((after (.waitTimerExpiry .A) (a base fun q => { q with
      state := .moving, wait := ⟨true, 0⟩ })).sq .A).expired = true := by decide +kernel

theorem test_readyAsserted : (after (.readyAsserted 0) (w0 base fun x => { x with
      state := .closed, ready := false })).saws[0].state = .opened := by decide +kernel

theorem test_readyDeasserted : (after (.readyDeasserted 0) base).saws[0].state = .closed := by
  decide +kernel

theorem test_cutDone : (after (.cutDone 0) (w0 (setRec base 5
      (some ⟨.ready, none, [⟨oak, some 3⟩]⟩)) fun x => { x with
        state := .cutting, cutGo := true })).counters.cut = 3 := by decide +kernel

theorem test_cutDoneDeasserted : (after (.cutDoneDeasserted 0)
      (w0 base fun x => { x with cutDone := true })).saws[0].cutDone = false := by decide +kernel

/-- Curtain 0 over zones 0 to 3, gate 0 over zones 8 to 9. -/
def ranged : State := { base with
  cell := { base.cell with
    curtains := base.cell.curtains.set 0 (some ⟨0, 3⟩), gates := base.cell.gates.set 0 (some ⟨8, 9⟩) } }

theorem test_curtainAsserted : (after (.curtainAsserted 0) ranged).zoneClosed 3 = true
    ∧ events (after (.curtainAsserted 0) ranged) = [(.curtainBreach, .curtain 0)] := by
  decide +kernel

theorem test_curtainDeasserted :
    (after (.curtainDeasserted 0) (after (.curtainAsserted 0) ranged)).zoneClosed 3 = false := by
  decide +kernel

theorem test_accessRequestAsserted :
    (after (.accessRequestAsserted 0) ranged).arb.gates[0] = ⟨.granted (some ⟨8, 9⟩), false, true⟩ := by
  decide +kernel

theorem test_accessRequestDeasserted : (after (.accessRequestDeasserted 0)
      (after (.accessRequestAsserted 0) ranged)).zoneClosed 8 = false := by decide +kernel

theorem test_eStopAsserted : ((after .eStopAsserted base).pt .A).link = .disabled
    ∧ events (after .eStopAsserted base) = [(.eStop, .cell)] := by decide +kernel

theorem test_eStopReleased :
    ((after .eStopReleased (after .eStopAsserted base)).sq .B).state = .unreferenced := by
  decide +kernel

theorem test_workRequest : ((after (.workRequest .A) base).sq .A).work
      = some (oakWork .source (some 4) none)
    ∧ (after (.workRequest .A) base).heldZones .A = [0, 1, 2, 3, 4, 5] := by decide +kernel

/-- On an empty queue a step passes a millisecond. -/
theorem test_idleStep : (match step (w0 base fun x => { x with bookTimer := ⟨true, 5⟩ }) with
    | .next t => t.saws[0].bookTimer.ms
    | _ => 0) = 4 := by decide +kernel

/-! ### The hypotheses of the statements are met, clause by clause -/

theorem witness_StepRunsFrontCommand : base.pending = [] := by decide +kernel

def rx (r : Receiver) : State := lk (fun l => { l with rx := r }) base

theorem witness_ReceiverTakesByte :
    yes [(rx .hunt).link.rx = .hunt, (0xC2 : Byte) ≠ 0xC3, (rx .length).link.rx = .length,
      (240 : Byte).toNat ≤ 240, 240 < (241 : Byte).toNat, (rx (.kind 1)).link.rx = .kind 1,
      0 < (1 : Byte).toNat, (rx (.kind 0)).link.rx = .kind 0,
      (rx (.body 2 5 [])).link.rx = .body 2 5 [], ([] : List Byte).length + 1 < (2 : Byte).toNat,
      (rx (.body 2 5 [7])).link.rx = .body 2 5 [7], [(7 : Byte)].length + 1 = (2 : Byte).toNat,
      (rx (.check 0 1 [] none)).link.rx = .check 0 1 [] none,
      (rx (.check 0 1 [] (some 1))).link.rx = .check 0 1 [] (some 1)] = true := by decide +kernel

theorem witness_BrokenFramesCounted :
    yes [(rx .length).link.rx = .length, 240 < (241 : Byte).toNat, (rx (.kind 1)).link.rx ≠ .hunt,
      (rx .hunt).link.rx = .hunt] = true := by decide +kernel

/-- A PART STATUS frame one byte short, with so many requests waiting and refusals owed. -/
def short (waiting owed frames : Nat) : State := lk (fun l => { l with
  rx := .check 0 1 [] (some 1), waiting := List.replicate waiting ⟨1, [], false⟩, owedBad := owed
  outbound := List.replicate frames ⟨0x80, [1]⟩ }) base

theorem witness_FrameCompleteJudged :
    yes [(short 2 0 7).link.rx = .check 0 1 [] (some 1),
      (1 : Byte).toNat + 256 * (0 : Byte).toNat = frameSum 0 1 [],
      (1 : Byte).toNat + 256 * (1 : Byte).toNat ≠ frameSum 0 1 [],
      (short 0 0 7).link.owedBad = 0 ∧ (short 0 0 7).link.owedBusy = 0
        ∧ (short 0 0 7).link.outbound.length < 8,
      ¬((short 0 0 8).link.owedBad = 0 ∧ (short 0 0 8).link.owedBusy = 0
        ∧ (short 0 0 8).link.outbound.length < 8),
      ¬((short 1 1 0).link.owedBad = 0 ∧ (short 1 1 0).link.owedBusy = 0
        ∧ (short 1 1 0).link.outbound.length < 8),
      (short 1 1 0).link.waiting.length < 2, 2 ≤ (short 2 0 7).link.waiting.length,
      2 ≤ (short 2 1 0).link.waiting.length] = true := by decide +kernel

theorem witness_FrameCompleteIsRequest :
    yes [(rx (.check 1 0x10 [0] (some 17))).link.rx
        = .check 1 (Request.kind (.home 0)) (Request.body (.home 0)) (some 17),
      (17 : Byte).toNat + 256 * (0 : Byte).toNat
        = frameSum 1 (Request.kind (.home 0)) (Request.body (.home 0))] = true := by decide +kernel

theorem witness_FrameBytesAreRequest :
    yes [(Request.setZoneMap starts3).sendable, (rx .hunt).link.rx = .hunt] = true := by
  decide +kernel

theorem witness_BodyReadsBack :
    yes [(Request.loadStack 4 0 (List.replicate 8 oakRun)).sendable,
      (Request.addRuns 4 [oakRun]).sendable] = true := by decide +kernel

/-- So many frames queued, refusals owed and nothing waiting. -/
def owing (frames bad busy : Nat) : State := lk (fun l => { l with
  outbound := List.replicate frames ⟨0x80, [1]⟩, owedBad := bad, owedBusy := busy }) base

theorem witness_FrameFreedServes :
    yes [(owing 1 0 0).link.outbound = ⟨0x80, [1]⟩ :: [], (owing 1 0 0).link.waiting = [],
      (owing 8 255 255).link.outbound = ⟨0x80, [1]⟩ :: List.replicate 7 ⟨0x80, [1]⟩,
      (owing 8 255 255).link.owedBad ≤ 255, 0 < (owing 8 255 255).link.owedBusy,
      (owing 7 1 1).link.outbound = ⟨0x80, [1]⟩ :: List.replicate 6 ⟨0x80, [1]⟩,
      0 < (owing 7 1 1).link.owedBad, 0 < (owing 7 1 1).link.owedBusy,
      0 < (owing 1 1 0).link.owedBad, (owing 1 1 0).link.owedBusy = 0,
      (owing 1 0 1).link.owedBad = 0, 0 < (owing 1 0 1).link.owedBusy] = true := by decide +kernel

/-- Requests to home both carriages wait, one or two of them. -/
def homesWait (n frames : Nat) : State := lk (fun l => { l with
  outbound := List.replicate frames ⟨0x80, [1]⟩
  waiting := [⟨Request.kind (.home 0), Request.body (.home 0), false⟩,
    ⟨Request.kind (.home 1), Request.body (.home 1), false⟩].take n }) base

theorem witness_FrameFreedServes_takes :
    yes [(homesWait 1 1).link.outbound = ⟨0x80, [1]⟩ :: [],
      (homesWait 1 8).link.outbound = ⟨0x80, [1]⟩ :: List.replicate 7 ⟨0x80, [1]⟩,
      (homesWait 1 1).link.owedBad = 0, (homesWait 1 1).link.owedBusy = 0,
      (homesWait 1 1).link.waiting = [⟨Request.kind (.home 0), Request.body (.home 0), false⟩],
      (homesWait 2 8).link.waiting.length = 2, ((homesWait 2 8).link.outbound.drop 1).length = 7,
      (after .frameFreed (homesWait 2 8)).link.outbound.getLast? = some ⟨0x80, [0x10]⟩,
      (after .frameFreed (homesWait 2 8)).link.waiting.map (·.body) = [[1]]] = true := by
  decide +kernel

/-- A request marked dropped waits. -/
def dropped : State := lk (fun l => { l with waiting := [⟨0x10, [0], true⟩] }) base

theorem witness_UnknownAndDroppedRefused :
    yes [base.takesAtOnce, (0 : Byte).toNat < 1, 0x1F < (0x20 : Byte).toNat,
      dropped.link.waiting = [⟨0x10, [0], true⟩], dropped.link.owedBad = 0,
      dropped.link.owedBusy = 0, dropped.link.outbound.length < 8] = true := by decide +kernel

theorem witness_UnknownAndDroppedRefused_length : wrongLength 0x10 [] ∧ wrongLength 0x1F [0]
    ∧ wrongLength 9 [4, 0] ∧ wrongLength 9 [4, 0, 8] ∧ wrongLength 0x0A [4]
    ∧ wrongLength 0x0A [4, 1] ∧ wrongLength 0x1E [] ∧ wrongLength 0x1E [1] :=
  ⟨.inl ⟨1, by decide, rfl, by decide⟩, .inl ⟨0, by decide, rfl, by decide⟩,
    .inr (.inl ⟨rfl, .inl (by decide)⟩), .inr (.inl ⟨rfl, .inr ⟨8, rfl, by decide⟩⟩),
    .inr (.inr (.inl ⟨rfl, .inl (by decide)⟩)), .inr (.inr (.inl ⟨rfl, .inr ⟨1, rfl, by decide⟩⟩)),
    .inr (.inr (.inr ⟨rfl, .inl rfl⟩)), .inr (.inr (.inr ⟨rfl, .inr (.inr ⟨rfl, by decide⟩)⟩))⟩

theorem witness_UnknownAndDroppedRefused_count : badCount 9 [4, 0, 0] 3 ∧ badCount 9 [4, 0, 9] 3
    ∧ badCount 0x0A [4, 9] 2 ∧ badCount 0x1E [2] 1 :=
  ⟨.inl ⟨rfl, rfl, 0, rfl, .inl rfl⟩, .inl ⟨rfl, rfl, 9, rfl, .inr (by decide)⟩,
    .inr (.inl ⟨rfl, rfl, 9, rfl, .inr (by decide)⟩), .inr (.inr ⟨rfl, rfl, 2, rfl, by decide⟩)⟩

theorem witness_UnknownAndDroppedRefused_frames :
    yes [(rx (.check 0 0x10 [] (some 16))).takesAtOnce,
      (16 : Byte).toNat + 256 * (0 : Byte).toNat = frameSum 0 0x10 [],
      reply (.frameComplete 0) (rx (.check 0 0x10 [] (some 16))) = some ⟨0x81, [0x10, 2, 0]⟩,
      (rx (.check 1 0x1E [2] (some 33))).takesAtOnce,
      (33 : Byte).toNat + 256 * (0 : Byte).toNat = frameSum 1 0x1E [2],
      reply (.frameComplete 0) (rx (.check 1 0x1E [2] (some 33))) = some ⟨0x81, [0x1E, 3, 1]⟩]
        = true := by decide +kernel

theorem witness_ThirdRequestBusy :
    yes [2 ≤ (short 2 0 7).link.waiting.length, (short 2 0 7).link.outbound.length < 8,
      (short 2 0 7).link.owedBad = 0, (short 2 0 7).link.owedBusy = 0,
      2 ≤ (short 2 1 8).link.waiting.length, (short 2 1 8).link.owedBad ≠ 0] = true := by
  decide +kernel

/-- So many WARNINGs of different orders are pending. -/
def warned (n : Nat) (sent : Bool) : State := { base with
  events := ⟨(List.range n).map fun i => ⟨.noStock, .order (i + 1), 0, 0, sent, i + 1⟩,
    true, n + 1, 0⟩ }

theorem witness_RaiseKeepsPendingSet :
    yes [(warned 96 true).events.ok, (warned 96 true).events.nextCreation ≤ 4294967295,
      (warned 1 true).events.entries.any fun e => e.kind = .noStock && e.source = .order 1,
      (warned 95 true).events.ok, (warned 95 true).events.entries.length < 96,
      (warned 96 true).events.entries.all fun e => !(e.kind = .eStop && e.source = .cell),
      (warned 96 true).events.entries.length = 96,
      (warned 96 true).events.entries = [] ++ ⟨.noStock, .order 1, 0, 0, true, 1⟩
        :: (warned 96 true).events.entries.tail,
      (warned 96 true).events.entries.tail.all fun e =>
        classCode (eventClass e.kind) ≤ classCode (eventClass .noStock),
      classCode (eventClass .eStop) ≤ classCode (eventClass .noStock),
      classCode (eventClass .noStock) < classCode (eventClass .orderDone)] = true := by
  decide +kernel

theorem witness_SendingKeepsLastFrame :
    yes [(owing 7 0 0).link.outbound.length ≤ 7, 7 ≤ (owing 7 0 0).link.outbound.length,
      (warned 3 true).events.entries.all (·.sent), (warned 2 false).events.ok,
      (warned 2 false).events.entries = [] ++ ⟨.noStock, .order 1, 0, 0, false, 1⟩
        :: [⟨.noStock, .order 2, 0, 0, false, 2⟩],
      (warned 2 false).link.outbound.length ≤ 6, (warned 2 false).events.gateOpen = true,
      (owing 6 0 0).link.outbound.length ≤ 6] = true := by decide +kernel

/-- The infeed of saw 0 in a state. -/
def infeed (st : InfeedState) : State := w0 base fun x => { x with state := st }

theorem witness_RequeueByInfeed :
    yes [base.queue.entries.any fun e => backState base e = .queued,
      (infeed (.blocked .overrun)).queue.entries.all fun e =>
        backState (infeed (.blocked .overrun)) e ≠ .queued] = true := by decide +kernel

theorem witness_ContentChangeNotices :
    yes [base.cell.places[4].kind ≠ .return_, base.cell.places[6].kind = .return_,
      base.cell.places[6].saw = some 0, base.stackRecs[6] ≠ none] = true := by decide +kernel

/-- A return entry due, or not, by its count and its permit. -/
def ret (count : Nat) (withdrawn : Bool) (st : ReturnState) : State :=
  setRet base (some ⟨6, count, true, withdrawn, st⟩)

theorem witness_ReturnEntryJudged :
    yes [(ret 2 false .notDue).queue.returns[0] = some ⟨6, 2, true, false, .notDue⟩,
      (ret 2 false .notDue).queue.nextRank ≤ 4294967295, base.cell.trigger ≤ 2,
      (ret 1 true .notDue).queue.returns[0] = some ⟨6, 1, true, true, .notDue⟩,
      (ret 1 false .notDue).queue.returns[0] = some ⟨6, 1, true, false, .notDue⟩,
      ¬base.cell.trigger ≤ 1,
      (ret 2 false (.due 1)).queue.returns[0] = some ⟨6, 2, true, false, .due 1⟩,
      (ret 1 false (.due 1)).queue.returns[0] = some ⟨6, 1, true, false, .due 1⟩,
      (ret 2 false (.taken .A 1)).queue.returns[0] = some ⟨6, 2, true, false, .taken .A 1⟩] = true := by
  decide +kernel

theorem witness_RunsMerge :
    yes [([⟨oak, some 1⟩, ⟨oak, some 2⟩] ++ [⟨oak, some 3⟩, ⟨birch, some 5⟩] : List Run).all
      fun r => r.count ≠ none] = true
    ∧ noEqualNeighbours [⟨oak, some 3⟩, ⟨birch, some 5⟩] := by
  refine ⟨by decide +kernel, ?_⟩
  simp [noEqualNeighbours, oak, birch]

theorem witness_ClaimGrantedOrWaits :
    yes [(base.arec .A).zone = some 0, (base.pt .A).position = some ⟨0, 0⟩,
      base.posZone ⟨0, 0⟩ = 0, (List.range 15).all (base.claimable .A false),
      !base.claimable .A false 15] = true := by decide +kernel

/-- Carriage B in zone 10 in a state, with its claim or without one. -/
def bAt10 (st : CarState) (s : State) : State :=
  let s1 := (arb s fun x => { x with
    zones := (x.zones.set 15 { x.zones[15] with holder := none }).set 10
      { x.zones[10] with holder := some .B }
    records := { x.records with b := ⟨some ⟨41000, 7⟩, some 10, none⟩ } }).modSeq .B fun q =>
      { q with state := st }
  s1.modPort .B fun d => { d with position := some ⟨41000, 7⟩ }

/-- Claims wait, the first of them of a CLAIMING carriage A in zone 0. -/
def claims (l : List WaitingClaim) (s : State) : State :=
  arb (a s fun q => { q with state := .claiming }) fun x => { x with waiting := l }

def toZone (c : Carriage) (z : Nat) (k : WorkClass) : WaitingClaim := ⟨c, z, k, false⟩

/-- Carriage A waits for zone 12, behind carriage B. -/
def behindB (st : CarState) : State := claims [toZone .A 12 .normal] (bAt10 st base)

/-- The carriages block each other. -/
def crossed (ka kb : WorkClass) : State :=
  claims [toZone .A 12 ka, toZone .B 0 kb] (bAt10 .claiming base)

theorem witness_ClaimGrantedOrWaits_examined :
    yes [(crossed .normal .normal).arb.waiting.all fun w =>
        !(crossed .normal .normal).spanClaimable w.carriage false
          ((crossed .normal .normal).claimSpan w),
      (claims [toZone .A 9 .normal] (bAt10 .idle base)).spanClaimable .A false ⟨0, 9⟩,
      (claims [toZone .A 9 .normal, toZone .B 8 .rush] (bAt10 .claiming base)).spanClaimable .B
        false ⟨8, 10⟩,
      (claims [toZone .A 7 .normal, toZone .B 8 .rush] (bAt10 .claiming base)).arb.waiting
        = [toZone .A 7 .normal, toZone .B 8 .rush],
      (claims [toZone .A 12 .normal, toZone .B 8 .rush] (bAt10 .claiming base)).claimOf .B
        = some (toZone .B 8 .rush)] = true := by decide +kernel

theorem witness_ClaimGrantedOrWaits_helped :
    yes [(behindB .idle).claimOf .A = some (toZone .A 12 .normal),
      inRange ((behindB .idle).claimSpan (toZone .A 12 .normal)) 10,
      (behindB .idle).holder 10 = some .B,
      (List.range 16).all fun k => !inRange ⟨0, 12⟩ k || !(behindB .idle).blockedHard .A false k,
      asideZone .B ⟨0, 12⟩ = some 13, (behindB .idle).spanClaimable .B false (spanOf 10 13),
      ((behindB .idle).helpClaim (toZone .A 12 .normal)).arec .B
        = ⟨some ⟨41000, 7⟩, some 10, some ⟨.makeWay, 13⟩⟩,
      (behindB .held).holder 10 = some .B,
      (List.range 10).all fun k => (behindB .held).claimable .A false k,
      !(behindB .held).claimable .A false 10,
      events ((behindB .held).helpClaim (toZone .A 12 .normal)) = [(.claimStall, .carriage .A)],
      events ((behindB .faulted).helpClaim (toZone .A 12 .normal)) = [(.claimStall, .carriage .A)],
      (behindB .moving).helpClaim (toZone .A 12 .normal) = behindB .moving] = true := by
  decide +kernel

theorem witness_ClaimGrantedOrWaits_yields :
    yes [(crossed .normal .rush).claimOf .B = some (toZone .B 0 .rush),
      ((crossed .normal .rush).helpClaim (toZone .A 12 .normal)).heldZones .A = [0],
      asideZone .A ⟨0, 10⟩ = none, (crossed .rush .normal).arb.waiting.length = 2,
      (((crossed .rush .normal).helpClaim (toZone .A 12 .rush)).arec .B).ordered
        = some ⟨.makeWay, 13⟩,
      (((crossed .normal .normal).helpClaim (toZone .A 12 .normal)).arec .B).ordered
        = some ⟨.makeWay, 13⟩] = true := by decide +kernel

/-- Carriage B must leave zone 11, which a gate waits for. -/
def leaving : State :=
  let s := hold (bAt10 .idle base) .B [11]
  claims [toZone .A 10 .normal] (arb s fun x => { x with
    gates := x.gates.set 0 ⟨.awaiting (some ⟨11, 11⟩), false, false⟩ })

theorem witness_ClaimGrantedOrWaits_leaves :
    yes [leaving.claimOf .A = some (toZone .A 10 .normal), leaving.holder 11 = some .B,
      leaving.awaited 11,
      (List.range 16).all fun k => !inRange ⟨0, 10⟩ k || !leaving.blockedHard .A false k,
      leaving.helpClaim (toZone .A 10 .normal) = leaving] = true := by decide +kernel

theorem witness_GrantKeepsZoneLaw : zoneLaw base
    ∧ yes [base.arb.zones[0].holder = some .A,
      base.spanClaimable .A false (spanOf 0 14)] = true := by
  refine ⟨?_, by decide +kernel⟩
  unfold zoneLaw
  decide +kernel

/-- A work request offered a piece of return work. -/
def returning : State :=
  setPlace (setRet (setRec (withOrders base []) 6 (some ⟨.ready, none, [⟨oak, some 2⟩]⟩))
    (some ⟨6, 2, true, false, .due 5⟩)) 20 ⟨.remnant, 25000, 100, 800, 60, 3000, none⟩
      (some ⟨.empty, none, []⟩)

theorem witness_OfferIsBest :
    yes [base.queue.ok, (base.request .A none).2 = some (.order 32),
      (base.request .A (some .rush)).2 = none, returning.queue.ok,
      (returning.request .A none).2 = some (.return_ 0)] = true := by decide +kernel

/-- The infeed in use, with a book release waiting for its user. -/
def waitingRelease (st : InfeedState) : State := w0 (setRec base 5
  (some ⟨.ready, some .A, [⟨oak, some 3⟩]⟩)) fun x => { x with
    releasePending := true, state := st }

theorem witness_PlaceClaimReleased :
    yes [base.stackRecs[4] = some ⟨.ready, none, [⟨oak, some 1⟩, ⟨birch, some 5⟩]⟩,
      (picking .lifting).stackRecs[4]
        = some ⟨.ready, some .A, [⟨oak, some 1⟩, ⟨birch, some 5⟩]⟩,
      ((picking .lifting).sq .B).state.unmoved, (picking .lifting).cell.places[4].kind ≠ .infeed,
      (waitingRelease .opened).stackRecs[5] = some ⟨.ready, some .A, [⟨oak, some 3⟩]⟩,
      ((waitingRelease .opened).sq .B).state.unmoved, base.cell.places[5].kind = .infeed,
      base.cell.places[5].saw = some 0, (waitingRelease .closed).saws[0].releasePending,
      (waitingRelease .closed).saws[0].state = .closed] = true := by decide +kernel

theorem witness_PlaceClaimReleased_told :
    yes [(((picking .lifting).modSeq .B fun q =>
        { q with state := .held }).releasePlace .A 4).seq.b.latched.release,
      (((picking .lifting).modSeq .B fun q =>
        { q with state := .blocked }).releasePlace .A 4).todo.blocked.b,
      (waitingRelease .opened).userAt 5 = some .A, (waitingRelease .undefined).saws[0].state ≠ .opened]
        = true := by decide +kernel

/-- 16 starts that fail first at the last one, and 16 that begin above 0. -/
def startsFail : List Half := starts3.take 15 ++ [42000]

theorem witness_RailSettingsReplace :
    yes [base.takesAtOnce, State.reset.takesAtOnce, starts3.length = 16, startsFail.length = 16,
      (starts3.tail ++ [65535]).length = 16, ((starts3.tail ++ [65535]).getD 0 0).toNat ≠ 0,
      (startsFail.getD 15 0).toNat ≤ (startsFail.getD 14 0).toNat,
      (List.range 14).all fun j => (startsFail.getD j 0).toNat < (startsFail.getD (j + 1) 0).toNat,
      (starts3.getD 0 0).toNat = 0,
      (List.range 15).all fun j => (starts3.getD j 0).toNat < (starts3.getD (j + 1) 0).toNat,
      (base.sq .A).state ≠ .unreferenced, (State.reset.sq .A).state = .unreferenced,
      (State.reset.sq .B).state = .unreferenced, 3 < (4 : Byte).toNat, 1 < (2 : Byte).toNat,
      15 < (16 : Byte).toNat, (0 : Byte).toNat ≤ (15 : Byte).toNat,
      (14 : Byte).toNat < (15 : Byte).toNat, base.lines.curtain[3] = false,
      (after (.curtainAsserted 3) base).lines.curtain[3],
      { base with lines := ⟨Vector.replicate 4 true, Vector.replicate 2 true, false⟩ }.takesAtOnce,
      base.lines.access[1] = false] = true := by decide +kernel

theorem witness_ParametersReplace :
    yes [base.takesAtOnce, 7 < (8 : Byte).toNat, 95 < (96 : Byte).toNat,
      (29 : Byte).toNat < (30 : Byte).toNat, (60 : Byte).toNat < (61 : Byte).toNat,
      (95 : Byte).toNat ≤ 95, ¬(5 ≤ (4 : Byte).toNat ∧ (4 : Byte).toNat ≤ 50),
      5 ≤ (5 : Byte).toNat ∧ (50 : Byte).toNat ≤ 50, 120 < (121 : Byte).toNat,
      ¬(1 ≤ (0 : Byte).toNat ∧ (0 : Byte).toNat ≤ 4), (40 : Byte).toNat ≤ base.cell.digLimit,
      base.cell.digLimit < (41 : Byte).toNat, 1 ≤ (1 : Byte).toNat ∧ (4 : Byte).toNat ≤ 4] = true := by
  decide +kernel

/-- Every order of base gone: nothing counts on the infeed. -/
def idleSaw : State := withOrders base []

theorem witness_DefinePlaceRefused :
    yes [base.takesAtOnce, 31 < (32 : Byte).toNat, 5 < (6 : Byte).toNat,
      8000 < (8001 : Half).toNat, 20000 < (20001 : Half).toNat,
      ¬(1 ≤ (251 : Byte).toNat ∧ (251 : Byte).toNat ≤ 250),
      ¬((0 : Half).toNat + 30 ≤ (29 : Half).toNat ∧ (29 : Half).toNat ≤ 30000),
      ¬(0 : Half).toNat + 30 ≤ (29 : Half).toNat, 3 < (4 : Byte).toNat,
      base.cell.places[5].kind = .infeed ∧ base.cell.places[5].saw = sawOf 0, servesSaw .infeed,
      base.stackState 4 = some .ready, base.stackState 12 = some .empty,
      (setRec base 12 (some ⟨.empty, some .A, []⟩)).userAt 12 = some .A,
      base.queue.entries.any fun e => e.saw = 0,
      (infeed .cutting).saws[0].state = .cutting,
      (w0 base fun x => { x with overrun := true }).saws[0].overrun,
      base.queue.entries.any fun e => e.divert = some 12, base.cell.places[12].kind = .buffer,
      (30 : Half).toNat = (0 : Half).toNat + 30, (30000 : Half).toNat ≤ 30000] = true := by
  decide +kernel

theorem witness_DefinePlaceDefines :
    yes [idleSaw.atEase, idleSaw.stackRecs[5] = some ⟨.empty, none, []⟩,
      idleSaw.cell.places[5].saw = some 0, idleSaw.cell.places[5].kind = .infeed,
      idleSaw.queue.entries.all fun e => e.saw ≠ 0, idleSaw.saws[0].state = .opened,
      (w0 idleSaw fun x => { x with state := .closed }).saws[0].state = .closed,
      base.atEase, base.stackRecs[6] = some ⟨.empty, none, []⟩, base.cell.places[6].saw = some 0,
      base.cell.places[6].kind = .return_, base.saws[0].overrun = false,
      (8000 : Half).toNat ≤ 8000, (20000 : Half).toNat ≤ 20000, (250 : Byte).toNat ≤ 250,
      (20000 : Half).toNat + 30 ≤ (20030 : Half).toNat, (30000 : Half).toNat ≤ 30000,
      (List.finRange 32).all fun q => !(base.cell.places[q].saw = some 1),
      base.stackRecs[20] = none, base.cell.places[20].kind = .unused,
      holdsStock idleSaw.cell.places[12].kind, idleSaw.stackRecs[12] = some ⟨.empty, none, []⟩,
      idleSaw.queue.entries.all fun e => e.divert ≠ some 12,
      idleSaw.cell.places[12].kind ≠ .unused, base.saws[1].overrun = false,
      base.saws[1].state = .undefined, base.saws[1].mode = .basic, base.saws[1].ready = false,
      (base.modSaw 1 fun x => { x with ready := true }).saws[1].ready,
      (base.modSaw 1 fun x => { x with ready := true }).atEase] = true := by decide +kernel

/-- A book of so many pieces under saw 0, and a user of its infeed. -/
def book (n : Nat) (u : Option Carriage) (st : InfeedState) : State :=
  w0 (setRec base 5 (some ⟨if n = 0 then .empty else .ready, u,
    if n = 0 then [] else [⟨oak, some n⟩]⟩)) fun x => { x with state := st }

theorem witness_SawConfigApplies :
    yes [base.takesAtOnce, 3 < (4 : Byte).toNat, 1 < (2 : Byte).toNat, 8 < (9 : Byte).toNat,
      300 < (301 : Half).toNat, 600 < (601 : Half).toNat, (4 : Half).toNat < 5,
      (8 : Byte).toNat ≤ 8 ∧ (300 : Half).toNat ≤ 300 ∧ (600 : Half).toNat ≤ 600,
      (w0 base fun x => { x with status := .manual }).saws[0].status ≠ .auto,
      base.saws[0].status = .auto ∧ base.saws[0].silent = false,
      (book 3 none .cutting).saws[0].state = .cutting, (book 3 none .cutting).saws[0].mode = .book,
      (2 : Byte).toNat < (book 3 none .opened).bookCount 0,
      (book 2 (some .A) .opened).infeedUser 0 ≠ none, (book 2 (some .A) .opened).bookCount 0 = 2,
      base.atEase, (book 0 none .opened).bookCount 0 = 0, (book 2 none .opened).atEase,
      (book 2 none .opened).bookCount 0 = (2 : Byte).toNat, (book 2 none .opened).infeedUser 0 = none,
      (book 1 none (.blocked .strandedBook)).bookCount 0 = 1] = true := by decide +kernel

/-- Runs that go wrong first in field 5 of the second run. -/
def badRuns : List WireRun := [⟨4095, 600, 7, 3, 250⟩, ⟨1, 30, 0, 0, 251⟩]

theorem witness_StockFieldsRefused :
    yes [base.takesAtOnce, 1 ≤ badRuns.length ∧ badRuns.length ≤ 8, 31 < (32 : Byte).toNat,
      1 < (2 : Byte).toNat, [(⟨1, 30, 0, 0, 0⟩ : WireRun)].any fun r => r.count = 0,
      badRuns.all fun r => r.count ≠ 0,
      badRuns[1]?.map (fun r => (fieldsBad false r)[4]?) = some (some true),
      ((badRuns.take 1).flatMap (fieldsBad false)).all (! ·),
      badRuns[1]?.map (fun r => ((fieldsBad false r).take 4).all (! ·)) = some true,
      [(⟨1, 30, 0, 4, 0⟩ : WireRun)][0]?.map (fun r => (fieldsBad true r)[3]?) = some (some true),
      [(⟨1, 30, 0, 4, 0⟩ : WireRun)][0]?.map (fun r => ((fieldsBad true r).take 3).all (! ·))
        = some true] = true := by decide +kernel

/-- Runs in range at both ends of their fields. -/
def goodRuns : List Run := [⟨⟨1, 30, 0, none⟩, some 1⟩, ⟨⟨4095, 600, 7, some .L⟩, some 1⟩]

theorem witness_StockDeclared : (∀ r ∈ goodRuns, knownRun r)
    ∧ yes [base.takesAtOnce, 1 ≤ goodRuns.length ∧ goodRuns.length ≤ 8,
      !holdsStock base.cell.places[5].kind, holdsStock base.cell.places[4].kind,
      base.stackState 4 ≠ some .empty, holdsStock base.cell.places[12].kind,
      base.stackRecs[12].map (·.user) = some none, base.stackState 12 = some .empty,
      pieceCount [⟨oak, some 61⟩] = some 61, base.cell.places[12].pieceLimit < 61,
      runsHeight (layRuns goodRuns []) = some 630, 800 + 630 ≤ base.cell.places[12].heightLimit,
      pieceCount (layRuns goodRuns []) = some 2, base.noChoosers, base.counters.ok,
      (setRec base 4 (some ⟨.ready, some .A, []⟩)).stackRecs[4] = some ⟨.ready, some .A, []⟩,
      base.stackRecs[7] = some ⟨.measure, none, [⟨birch, none⟩]⟩,
      base.stackRecs[4] = some ⟨.ready, none, [⟨oak, some 1⟩, ⟨birch, some 5⟩]⟩,
      base.cell.places[4].pieceLimit < 1 + 5 + 115,
      (layRuns goodRuns [⟨oak, some 1⟩, ⟨birch, some 5⟩]).length = 4,
      runsHeight (layRuns goodRuns [⟨oak, some 1⟩, ⟨birch, some 5⟩]) = some 1690] = true := by
  refine ⟨?_, by decide +kernel⟩
  intro r hr
  simp only [goodRuns, List.mem_cons, List.not_mem_nil, or_false] at hr
  rcases hr with rfl | rfl <;> simp [knownRun]

/-- A place locked with its runs. -/
def locked (runs : List Run) : State := setRec base 4 (some ⟨.locked .host, none, runs⟩)

theorem witness_PlacesUnloadAndUnlock :
    yes [base.takesAtOnce, 31 < (32 : Byte).toNat, (31 : Byte).toNat = (31 : Place).val,
      base.cell.places[31].kind = .unused, base.cell.places[4].kind ≠ .unused,
      base.stackRecs[4] = some ⟨.ready, none, [⟨oak, some 1⟩, ⟨birch, some 5⟩]⟩,
      (setRec base 4 (some ⟨.ready, some .A, []⟩)).stackRecs[4] = some ⟨.ready, some .A, []⟩,
      (book 2 none .cutting).saws[0].state = .cutting,
      (book 2 none .cutting).stackRecs[5] = some ⟨.ready, none, [⟨oak, some 2⟩]⟩,
      base.cell.places[5].kind = .infeed ∧ base.cell.places[5].saw = some 0,
      holdsStock base.cell.places[12].kind, base.stackRecs[12] = some ⟨.empty, none, []⟩,
      holdsStock base.cell.places[4].kind, base.noChoosers, (book 2 none .opened).noChoosers,
      (book 2 none .opened).saws[0].state = .opened,
      base.cell.places[6].kind = .return_ ∧ base.cell.places[6].saw = some 0,
      returning.stackRecs[6] = some ⟨.ready, none, [⟨oak, some 2⟩]⟩, returning.noChoosers,
      returning.saws[0].state ≠ .blocked .overrun,
      (locked []).stackRecs[4] = some ⟨.locked .host, none, []⟩, pieceCount [] = some 0,
      pieceCount [⟨birch, none⟩] = none, pieceCount [⟨oak, some 1⟩] = some 1,
      (locked [⟨birch, none⟩]).noChoosers] = true := by decide +kernel

/-- A stranded book on the infeed, and the return table of a saw whose infeed has an OVERRUN block. -/
def stranded (lock : Bool) : State := w0 (book 2 none (.blocked .strandedBook)) fun x => { x with
  lock := lock, silent := true }

def overrun (n : Nat) (st : SawStatus) (lock : Bool) : State :=
  w0 (setRec (book n none (.blocked .overrun)) 6 (some ⟨.ready, none, [⟨oak, some 4⟩]⟩)) fun x =>
    { x with overrun := true, permitHold := true, status := st, lock := lock }

/-- The state of the infeed of saw 0 after an UNLOAD PLACE. -/
def unloaded (p : Byte) (s : State) : InfeedState := (after (.unloadPlace p) s).saws[0].state

theorem witness_PlacesUnloadAndUnlock_saws :
    yes [base.stackRecs[5] = some ⟨.empty, none, []⟩, base.saws[0].state ≠ .cutting,
      (stranded true).takesAtOnce, (stranded true).noChoosers,
      unloaded 5 (stranded true) = .blocked .fallback, unloaded 5 (stranded false) = .opened,
      base.stackRecs[6] = some ⟨.empty, none, []⟩, (overrun 0 .auto true).takesAtOnce,
      (overrun 0 .auto true).noChoosers, (overrun 0 .auto true).saws[0].state = .blocked .overrun,
      unloaded 6 (overrun 0 .auto true) = .opened,
      unloaded 6 (overrun 2 .manual true) = .blocked .strandedBook,
      unloaded 6 (overrun 0 .manual true) = .blocked .fallback,
      unloaded 6 (overrun 0 .manual false) = .opened] = true := by decide +kernel

/-- 32 orders in the queue. -/
def crowded : State := withOrders base ((List.range 32).map fun i => { birchOrder with
  number := i + 100 })

theorem witness_OrderAdmits :
    yes [base.takesAtOnce, (0 : Half) = 0, 3 < (4 : Byte).toNat, 4095 < (4096 : Half).toNat,
      600 < (601 : Half).toNat, 2 < (3 : Byte).toNat, 999 < (1000 : Half).toNat,
      31 < (32 : Byte).toNat, (32 : Byte) ≠ 0xFF, (3 : Byte).toNat = (3 : Saw).val,
      (List.finRange 32).all fun p => !(base.cell.places[p].saw = some 3),
      base.cell.places[4].kind ≠ .buffer, base.cell.places[12].kind = .buffer,
      base.cell.places[5].kind = .infeed ∧ base.cell.places[5].saw = some 0,
      base.queue.entries.any fun e => e.number = 31, base.queue.entries.all fun e => e.number ≠ 33,
      32 ≤ crowded.queue.entries.length, crowded.queue.entries.all fun e => e.number ≠ 33,
      crowded.takesAtOnce, base.queue.entries.length < 32, (999 : Half).toNat ≤ 999] = true := by
  decide +kernel

/-- The oak order in a state. -/
def oakIn (st : OrderState) : State := withOrders base [birchOrder, { oakOrder with state := st }]

theorem witness_OrdersLeave :
    yes [base.takesAtOnce, base.queue.ok, base.queue.entries.all fun e => e.number ≠ 33,
      oakOrder ∈ base.queue.entries, oakOrder.number = (32 : Half).toNat, oakOrder.state = .queued,
      (oakIn (.starved .noStock)).queue.ok, (oakIn (.blocked .sawBlocked)).queue.ok,
      { oakOrder with state := .suspended .A } ∈ (oakIn (.suspended .A)).queue.entries,
      { oakOrder with state := .active .A } ∈ (oakIn (.active .A)).queue.entries,
      ((a (oakIn (.active .A)) fun q => { q with state := .moving }).sq .A).state = .moving,
      ((a (oakIn (.active .A)) fun q => { q with state := .held }).sq .A).state = .held,
      (a (oakIn (.active .A)) fun q => { q with state := .held }).takesAtOnce] = true := by
  decide +kernel

theorem witness_WorkRequestOffers :
    yes [base.quiet, (a base fun q => { q with load := some oakLoad }).quiet,
      ((a base fun q => { q with load := some oakLoad }).sq .A).load ≠ none,
      (base.sq .A).state = .idle ∧ (base.sq .A).load = none ∧ (base.sq .A).work = none,
      idleSaw.quiet, idleSaw.queue.entries.all fun e => e.state ≠ .queued,
      idleSaw.queue.returns[0] = some ⟨6, 0, false, false, .notDue⟩, base.queue.ok,
      (base.modSeq .A fun q => { q with ask := false }).request .A none
        = (base.modSeq .A fun q => { q with ask := false }, some (.order 32)),
      oakOrder ∈ base.queue.entries, base.infeedPlace 0 = some 5,
      base.resolveSource .A 120 160 5 = some 4, base.matching 120 160 4 = some 0,
      base.useCount .A = 0, (base.sq .A).holdPending = false, (base.arec .A).zone = some 0,
      (base.pt .A).position = some ⟨0, 0⟩, base.posZone ⟨0, 0⟩ = 0,
      base.spanClaimable .A false (spanOf 0 (base.placeZone 4))] = true := by decide +kernel

/-- Carriage A in a state. -/
def inState (st : CarState) : State := a base fun q => { q with state := st }

/-- Zone 5 closed by the host. -/
def shut (s : State) : State := s.addSource .host fun z => z = 5

theorem witness_HomeStarts :
    yes [base.takesAtOnce, 1 < (2 : Byte).toNat, (0 : Byte).toNat = carriageCode .A,
      (1 : Byte).toNat = carriageCode .B, ((inState .stopped).sq .A).state = .stopped,
      (inState .stopped).takesAtOnce, (shut base).arb.zones[5].sources[6], (shut base).takesAtOnce,
      ((inState .held).sq .A).state = .held, (inState .held).takesAtOnce,
      (List.finRange 16).all fun z => (List.finRange 7).all fun k => !base.arb.zones[z].sources[k],
      !base.arb.gates[0].isAwaiting ∧ !base.arb.gates[1].isAwaiting,
      base.arb.host.awaiting = none,
      ((a base fun q => { q with load := some oakLoad }).sq .A).load ≠ none,
      State.reset.atEase, (State.reset.sq .A).state = .unreferenced, base.atEase,
      (base.sq .A).state = .idle ∧ (base.sq .A).load = none] = true := by decide +kernel

theorem witness_HoldAndRelease :
    yes [base.takesAtOnce, 1 < (2 : Byte).toNat, (1 : Byte).toNat = carriageCode .B,
      (State.reset.sq .A).state = .unreferenced, State.reset.takesAtOnce,
      ((inState .faulted).sq .A).state = .faulted, ((inState .held).sq .A).state = .held,
      ((inState .moving).sq .A).holdPending = false, ((inState .moving).pt .A).next = none,
      ((picking .lifting).sq .A).state = .moving, ((picking .lifting).pt .A).next ≠ none,
      ((picking .lifting).pt .A).withdrawing = false,
      ((picking .lifting).pt .A).stopping = false, (picking .lifting).takesAtOnce,
      ((a (inState .moving) fun q => { q with holdPending := true }).sq .A).holdPending,
      (base.sq .A).state = .idle, (base.sq .B).state.unmoved, base.arb.waiting = [],
      ((inState .sawWait).sq .A).state = .sawWait, (inState .sawWait).takesAtOnce,
      ((inState .held).sq .A).work = none ∧ ((inState .held).sq .A).cancelPending = false,
      ((inState .held).sq .A).suspended = [],
      (inState .held).noClaims, (inState .held).takesAtOnce] = true := by decide +kernel

/-- Carriage A HELD with the source of its order claimed. -/
def heldAtWork : State := a (setRec base 4
  (some ⟨.ready, some .A, [⟨oak, some 1⟩, ⟨birch, some 5⟩]⟩)) fun q => { q with
    state := .held, work := some (oakWork .source (some 4) none) }

theorem witness_HoldAndRelease_goesOn :
    yes [heldAtWork.takesAtOnce, (heldAtWork.sq .A).state = .held,
      (heldAtWork.sq .A).work = some (oakWork .source (some 4) none),
      (heldAtWork.sq .A).cancelPending = false, (heldAtWork.sq .A).holdPending = false,
      (heldAtWork.sq .B).state.unmoved, heldAtWork.noClaims, (heldAtWork.arec .A).zone = some 0,
      (heldAtWork.pt .A).position = some ⟨0, 0⟩, heldAtWork.posZone ⟨0, 0⟩ = 0,
      heldAtWork.spanClaimable .A false (spanOf 0 (heldAtWork.placeZone 4)),
      ((after (.release 0) heldAtWork).sq .A).state = .moving] = true := by decide +kernel

/-- Carriage A FAULTED, with or without a load. -/
def faultedA (l : Option Load) : State := a (inState .faulted) fun q => { q with load := l }

theorem witness_ResumeSendsClear :
    yes [base.takesAtOnce, 1 < (2 : Byte).toNat, (1 : Byte).toNat ≤ 1,
      (0 : Byte).toNat = carriageCode .A, (base.sq .A).state ≠ .faulted,
      ((pa (faultedA none) fun d => { d with stopping := true }).pt .A).stopping,
      ((faultedA none).sq .A).state = .faulted, ((faultedA none).pt .A).stopping = false,
      ((faultedA none).sq .A).resumePending = false, ((faultedA none).sq .A).load = none,
      ((faultedA (some oakLoad)).sq .A).load = some oakLoad,
      (faultedA (some oakLoad)).takesAtOnce] = true := by decide +kernel

/-- Carriage A with a load and no work, IDLE or HELD. -/
def loaded (st : CarState) : State := a (inState st) fun q => { q with load := some oakLoad }

theorem witness_SetDownStarts :
    yes [base.takesAtOnce, 1 < (2 : Byte).toNat, 31 < (32 : Byte).toNat,
      (State.reset.sq .A).state = .unreferenced, (base.sq .A).load = none,
      (base.sq .A).state = .idle, ((loaded .idle).sq .A).load = some oakLoad, oakLoad.sure,
      ((loaded .idle).sq .A).work = none, !holdsStock base.cell.places[5].kind,
      holdsStock base.cell.places[12].kind,
      (setRec (loaded .idle) 12 (some ⟨.empty, some .B, []⟩)).userAt 12 ≠ none,
      (loaded .idle).userAt 12 = none, (loaded .idle).stackState 7 = some .measure,
      (loaded .idle).stackState 12 = some .empty, (loaded .idle).reachable .A 12,
      (loaded .idle).accepts 12 oak,
      !(setPlace (loaded .idle) 12 ⟨.buffer, 37000, 100, 800, 0, 3000, none⟩
        (some ⟨.empty, none, []⟩)).accepts 12 oak,
      ((loaded .held).sq .A).state = .held, (loaded .held).accepts 12 oak,
      (loaded .held).userAt 12 = none, (loaded .held).reachable .A 12,
      (loaded .held).takesAtOnce, (loaded .idle).takesAtOnce, (loaded .idle).noClaims,
      (loaded .idle).noChoosers, ((loaded .idle).sq .A).holdPending = false,
      ((loaded .idle).arec .A).zone = some 0, ((loaded .idle).pt .A).position = some ⟨0, 0⟩,
      (loaded .idle).posZone ⟨0, 0⟩ = 0,
      (loaded .idle).spanClaimable .A false (spanOf 0 ((loaded .idle).placeZone 12))] = true := by
  decide +kernel

/-- The host closing of zones 3 to 5 waits; both carriages move. -/
def closing : State := arb (a (base.modSeq .B fun q => { q with state := .moving }) fun q =>
  { q with state := .moving }) fun x => { x with host := ⟨some ⟨3, 5⟩, false⟩ }

theorem witness_HostClosesAndOpens :
    yes [base.takesAtOnce, 15 < (16 : Byte).toNat, (8 : Byte).toNat < (9 : Byte).toNat,
      (0 : Byte).toNat ≤ (15 : Byte).toNat, closing.arb.host.awaiting ≠ none, closing.takesAtOnce,
      base.arb.host.awaiting = none,
      (List.finRange 16).all fun z => !(1 ≤ z.val ∧ z.val ≤ 14) ∨ base.arb.zones[z].holder = none,
      (base.sq .A).state ≠ .homing ∧ (base.sq .B).state ≠ .homing,
      base.arb.zones[0].holder ≠ none, (arb closing fun x => { x with host := ⟨none, false⟩ }).takesAtOnce,
      closing.arb.waiting = [], !closing.arb.gates[0].isAwaiting ∧ !closing.arb.gates[1].isAwaiting,
      (closing.sq .A).state = .moving ∧ (closing.sq .B).state = .moving,
      3 ≤ (15 : Byte).toNat ∧ (5 : Byte).toNat ≤ 5] = true := by decide +kernel

/-- Carriage B moves; carriage A stands in zone 5. -/
def aAt5 (st : CarState) : State :=
  pa (arb (a (base.modSeq .B fun q => { q with state := .moving }) fun q =>
    { q with state := st }) fun x => { x with
      zones := (x.zones.set 0 { x.zones[0] with holder := none }).set 5
        { x.zones[5] with holder := some .A }
      records := { x.records with a := ⟨some ⟨21000, 9⟩, some 5, none⟩ } }) fun d =>
        { d with position := some ⟨21000, 9⟩ }

theorem witness_HostClosesAndOpens_clearOut :
    yes [(aAt5 .idle).takesAtOnce, (aAt5 .idle).arb.host.awaiting = none,
      (aAt5 .idle).heldZones .A = [5], (aAt5 .idle).heldZones .B = [15],
      ((aAt5 .idle).sq .B).state = .moving, ((aAt5 .idle).arec .A).zone = some 5,
      (aAt5 .idle).posZone ⟨21000, 9⟩ = 5, ((aAt5 .idle).pt .A).current = none,
      ((aAt5 .idle).pt .A).link = .ready,
      ((after (.zoneClose 5 6) (aAt5 .idle)).arec .A).ordered = some ⟨.clearOut, 4⟩,
      ((after (.zoneClose 5 6) (claims [toZone .A 9 .normal] (aAt5 .idle))).arec .A).ordered
        = some ⟨.clearOut, 4⟩,
      events (after (.zoneClose 0 6) (aAt5 .idle)) = [(.claimStall, .carriage .A)],
      events (after (.zoneClose 0 6) (claims [toZone .A 9 .normal] (aAt5 .idle)))
        = [(.claimStall, .carriage .A)],
      events (after (.zoneClose 5 6) (aAt5 .held)) = [(.claimStall, .carriage .A)],
      events (after (.zoneClose 5 6) (aAt5 .faulted)) = [(.claimStall, .carriage .A)]] = true := by
  decide +kernel

theorem witness_ListQueriesAnswer :
    yes [base.takesAtOnce, base.queue.ok, (33 : Half) ≠ 0,
      base.queue.entries.all fun e => e.number ≠ 33, oakOrder ∈ base.queue.entries,
      oakOrder.number = (32 : Half).toNat, 3 < (4 : Byte).toNat,
      (3 : Byte).toNat = (3 : Saw).val, base.arb.waiting.length ≤ 2] = true := by decide +kernel

theorem witness_LaidOutQueriesAnswer :
    yes [base.takesAtOnce, 1 < (2 : Byte).toNat, (1 : Byte).toNat = carriageCode .B,
      31 < (32 : Byte).toNat, (31 : Byte).toNat = (31 : Place).val,
      (base.pt .A).position = some ⟨0, 0⟩, (base.sq .A).load = none,
      ((loaded .idle).sq .A).load = some oakLoad, (base.sq .A).work = none,
      ((picking .lifting).sq .A).work = some (oakWork .source (some 4) none),
      ((a base fun q => { q with work := some (oakWork (.dig 3 4) none none) }).sq .A).work
        = some (oakWork (.dig 3 4) none none),
      ((a base fun q => { q with suspended := [⟨.returnJob 6, .deliver, none⟩,
        ⟨.order 31, .dig, some 4⟩] }).sq .A).suspended[1]? = some ⟨.order 31, .dig, some 4⟩,
      ((a base fun q => { q with wait := ⟨true, 5⟩ }).sq .A).wait.running,
      base.stackRecs[31] = none,
      base.stackRecs[4] = some ⟨.ready, none, [⟨oak, some 1⟩, ⟨birch, some 5⟩]⟩] = true := by
  decide +kernel

theorem witness_ReportsAndEventQueries :
    yes [base.takesAtOnce, base.events.gateOpen,
      !{ base with events := { base.events with gateOpen := false } }.events.gateOpen,
      { base with events := { base.events with gateOpen := false } }.takesAtOnce,
      base.events.entries = [], (warned 2 true).takesAtOnce,
      (warned 2 true).events.entries = [] ++ ⟨.noStock, .order 1, 0, 0, true, 1⟩
        :: [⟨.noStock, .order 2, 0, 0, true, 2⟩]] = true := by decide +kernel

theorem witness_CellResetClears :
    yes [base.takesAtOnce, base.arb.host.awaiting = none,
      !base.arb.gates[0].isAwaiting ∧ !base.arb.gates[1].isAwaiting,
      (base.sq .A).state = .idle ∧ (base.sq .B).state = .idle,
      (base.pt .A).stopping = false ∧ (base.pt .B).stopping = false,
      (List.finRange 4).all fun w => !base.saws[w].releasePending,
      base.queue.returns[0] ≠ none, base.queue.returns[1] = none] = true := by decide +kernel

theorem witness_CellResetClears_judges :
    yes [(List.finRange 4).all fun w =>
        returning.returnPlace w = returning.queue.returns[w].map (·.place),
      returning.queue.nextRank ≤ 4294967292, returning.takesAtOnce, isDue returning 0,
      !isDue base 0,
      ((after .cellReset returning).queue.returns[0]).map (·.state) = some (.due 3)] = true := by
  decide +kernel

/-- A port that waits for the answer to a CLEAR. -/
def cleared (st : CarState) : State := pa (inState st) fun d => { d with clearPending := true }

theorem witness_ReadyAnswersClear :
    yes [base.rested, ((pa base fun d => { d with stopping := true }).pt .A).stopping,
      (base.pt .A).stopping = false ∧ (base.pt .A).clearPending = false,
      ((inState .faulted).sq .A).state = .faulted, (inState .faulted).rested,
      ((cleared .homing).pt .A).clearPending, ((cleared .homing).sq .A).state = .homing,
      (cleared .homing).rested,
      ((a (cleared .faulted) fun q => { q with resumePending := true }).sq .A).resumePending,
      (a (cleared .faulted) fun q => { q with resumePending := true }).noClaims,
      ((cleared .faulted).sq .B).state.unmoved, ((cleared .faulted).sq .A).resumePending = false,
      (cleared .faulted).rested] = true := by decide +kernel

/-- Carriage A descending on an unmeasured stack of birch, based at 1200. -/
def measuring : State := setRec (picking .descending) 4
  (some ⟨.measure, some .A, [⟨birch, none⟩]⟩)

theorem witness_PickChecked :
    yes [(picking .descending).rested, (picking .descending).noChoosers,
      ((picking .descending).pt .A).stopping = false,
      ((picking .descending).pt .A).current = some (pick .descending),
      (picking .descending).stackRecs[4]
        = some ⟨.ready, some .A, [⟨oak, some 1⟩, ⟨birch, some 5⟩]⟩,
      runsHeight [⟨oak, some 1⟩, ⟨birch, some 5⟩] = some 1060,
      ((2280 : Int) - ((1200 + 1060 : Nat) : Int)).natAbs ≤ base.cell.tolerance,
      base.cell.tolerance < ((2281 : Int) - ((1200 + 1060 : Nat) : Int)).natAbs,
      measuring.stackRecs[4] = some ⟨.measure, some .A, [⟨birch, none⟩]⟩,
      2 * ((1289 : Int) - 1200) < 180,
      ((2 * 1 * 180 : Nat) : Int) ≤ 2 * ((1290 : Int) - 1200) + 180,
      2 * ((1290 : Int) - 1200) + 180 < ((2 * (1 + 1) * 180 : Nat) : Int),
      base.cell.tolerance < ((1290 : Int) - 1200 - ((1 * 180 : Nat) : Int)).natAbs,
      ((2 * 2 * 180 : Nat) : Int) ≤ 2 * ((1580 : Int) - 1200) + 180,
      2 * ((1580 : Int) - 1200) + 180 < ((2 * (2 + 1) * 180 : Nat) : Int),
      ((1580 : Int) - 1200 - ((2 * 180 : Nat) : Int)).natAbs ≤ base.cell.tolerance,
      base.cell.places[4].heightLimit < 1200 + 61 * 180, base.cell.places[4].pieceLimit < 121,
      ¬(250 < 2 ∨ base.cell.places[4].pieceLimit < 2
        ∨ base.cell.places[4].heightLimit < 1200 + 2 * 180),
      ((picking .firstGrip).pt .A).current = some (pick .firstGrip),
      ((picking .secondGrip).pt .A).current = some (pick .secondGrip),
      (40 ≤ 40 ∧ 40 ≤ 90) ∧ (40 ≤ 90 ∧ 90 ≤ 90), ¬(40 ≤ 91 ∧ 91 ≤ 90)] = true := by
  decide +kernel

/-- Carriage A at the last stroke of a SET DOWN on place 12. -/
def settingDown : State := moving (setRec base 12 (some ⟨.ready, some .A, [⟨oak, some 1⟩]⟩))
  ⟨.setDown (some 12) none, .rush, .carry, none, some 12⟩ (.place 12 960 800 true) none

/-- Carriage A, held back, lifts with no next step; or lifts a piece it digs away. -/
def lastLift : State := pa (a (picking .lifting) fun q => { q with holdPending := true }) fun d =>
  { d with next := none }

def digLift : State := a (picking .lifting) fun q => { q with
  work := some (oakWork (.dig 2 4) (some 4) none) }

theorem witness_LiftDoneCompletes :
    yes [(picking .lifting).rested, (picking .lifting).noChoosers,
      ((picking .lifting).pt .A).stopping = false,
      ((picking .lifting).pt .A).current = some (pick .lifting),
      (picking .lifting).stackRecs[4]
        = some ⟨.ready, some .A, ⟨oak, some 1⟩ :: [⟨birch, some 5⟩]⟩,
      ((picking .lifting).sq .A).work = some (oakWork .source (some 4) none),
      ((picking .lifting).pt .A).next ≠ none,
      (digLift.sq .A).work = some (oakWork (.dig 2 4) (some 4) none), (digLift.pt .A).next ≠ none,
      digLift.rested, digLift.noChoosers, (digLift.pt .A).current = some (pick .lifting),
      (lastLift.pt .A).next = none, (lastLift.sq .A).holdPending,
      (lastLift.sq .A).cancelPending = false, (lastLift.sq .A).expired = false,
      (lastLift.sq .A).state = .moving, lastLift.noClaims, lastLift.rested,
      (lastLift.pt .A).current = some (pick .lifting),
      settingDown.quiet, (settingDown.pt .A).stopping = false,
      (settingDown.pt .A).current = some (.place 12 960 800 true), (settingDown.pt .A).next = none,
      (settingDown.sq .A).work = some ⟨.setDown (some 12) none, .rush, .carry, none, some 12⟩,
      (settingDown.sq .A).state = .moving, (settingDown.sq .A).suspended = [],
      (settingDown.sq .A).load = none, (settingDown.sq .A).holdPending = false,
      (settingDown.sq .A).cancelPending = false, (settingDown.sq .A).expired = false,
      (List.finRange 32).all fun q => q = 12 ∨ settingDown.userAt q ≠ some .A] = true := by
  decide +kernel

/-- Carriage A standing in zone 5 at place 4, its step the last one. -/
def at4 (s : State) : State := pa (arb s fun x => { x with
  zones := (x.zones.set 0 { x.zones[0] with holder := none }).set 5
    { x.zones[5] with holder := some .A }
  records := { x.records with a := ⟨some ⟨21000, 100⟩, some 5, none⟩ } }) fun d =>
    { d with position := some ⟨21000, 100⟩, next := none }

/-- Lifting the wanted piece; lifting a piece to dig away; the last stroke of the PLACE of a dig, with
carriage A user of the dug stack and of the buffer. -/
def lift4 : State := at4 (picking .lifting)

def dig4 : State := at4 (a (picking .lifting) fun q => { q with
  work := some (oakWork (.dig 2 4) (some 4) (some 12)) })

def dug4 : State := at4 (moving (setRec (setRec (withOrders base []) 4
    (some ⟨.ready, some .A, [⟨birch, some 4⟩, ⟨oak, some 1⟩]⟩)) 12
      (some ⟨.ready, some .A, [⟨birch, some 1⟩]⟩))
  (oakWork (.dig 5 4) (some 4) (some 12)) (.place 12 980 800 true) none)

theorem witness_LiftDoneCompletes_movesOn :
    yes [lift4.rested, lift4.noChoosers, lift4.noClaims, (lift4.sq .A).state = .moving,
      (lift4.sq .A).holdPending = false, (lift4.sq .A).cancelPending = false,
      (lift4.sq .A).expired = false, (lift4.arec .A).ordered = none, (lift4.pt .A).next = none,
      (lift4.arec .A).zone = some 5, lift4.posZone ⟨21000, 100⟩ = 5,
      lift4.spanClaimable .A false (spanOf 5 (lift4.placeZone 5)),
      ((after (.liftDone .A ⟨21000, 100⟩ .standing) lift4).pt .A).current
        = some (.travel 29000 100 (some 30)),
      (dig4.sq .A).work = some (oakWork (.dig 2 4) (some 4) (some 12)),
      (after (.liftDone .A ⟨21000, 100⟩ .standing) dig4).heldZones .A = [5, 6, 7, 8, 9],
      ((after (.liftDone .A ⟨21000, 100⟩ .standing) dig4).pt .A).current
        = some (.travel 37000 100 (some 30))] = true := by decide +kernel

theorem witness_LiftDoneCompletes_digs :
    yes [dug4.quiet, (dug4.pt .A).stopping = false,
      (dug4.pt .A).current = some (.place 12 980 800 true), (dug4.sq .A).load = none,
      (dug4.sq .A).work = some (oakWork (.dig 5 4) (some 4) (some 12)),
      (dug4.arec .A).zone = some 5, dug4.topPiece 4 = some birch,
      ((after (.liftDone .A ⟨21000, 100⟩ .standing) dug4).sq .A).work
        = some (oakWork (.dig 4 4) (some 4) (some 12)),
      ((after (.liftDone .A ⟨21000, 100⟩ .standing) dug4).sq .A).state = .moving] = true := by
  decide +kernel

/-- The dig goes on only when no better work is offered and the buffer takes the next piece. -/
theorem witness_LiftDoneCompletes_placed :
    let w1 : Work := oakWork (.dig 4 4) (some 4) none
    let placed := (wentOn ((reportedAt dug4 .A ⟨21000, 100⟩).releasePlace .A 12) .A).modSeq .A
      fun q => { q with work := some w1 }
    yes [placed.request .A (some .rush) = (placed, none), placed.digBuffer .A 4 birch = some 12,
      placed.mayClaimDest .A 12 birch] = true := by decide +kernel

/-- A piece about to be released on the buffer, and one of an order with two to go on the infeed. -/
def releasing : State := a (moving (setRec base 12 (some ⟨.empty, some .A, []⟩))
  ⟨.setDown (some 12) none, .rush, .carry, none, some 12⟩ (.place 12 960 800 false) none) fun q =>
    { q with load := some oakLoad }

def placingTwo : State := withOrders placing
  [birchOrder, { oakOrder with quantity := 2, remaining := 2, state := .active .A }]

theorem witness_ReleaseDoneSetsDown :
    yes [releasing.rested, releasing.noChoosers, (releasing.pt .A).stopping = false,
      (releasing.pt .A).current = some (.place 12 960 800 false),
      (releasing.sq .A).load = some oakLoad,
      releasing.stackRecs[12] = some ⟨.empty, some .A, []⟩,
      releasing.cell.places[12].kind ≠ .infeed, placing.rested, placing.noChoosers,
      (placing.pt .A).stopping = false,
      (placing.pt .A).current = some (.place 5 1160 1000 false),
      (placing.sq .A).load = some oakLoad, placing.stackRecs[5] = some ⟨.empty, some .A, []⟩,
      placing.cell.places[5].kind = .infeed ∧ placing.cell.places[5].saw = some 0,
      placing.infeedPlace 0 = some 5, placing.saws[0].mode = .book ∧ placing.saws[0].state = .opened,
      (placing.sq .A).work = some (oakWork .deliver none (some 5)), placing.queue.ok,
      { oakOrder with state := .active .A } ∈ placing.queue.entries,
      pieceCount (layRuns [⟨oak, some 1⟩] []) = some 1, 1 < placing.saws[0].threshold,
      runsHeight (layRuns [⟨oak, some 1⟩] []) = some 160,
      placing.cell.places[5].base + 160 + 160 ≤ placing.cell.places[5].heightLimit,
      oakOrder.remaining = 1, placingTwo.queue.ok, placingTwo.rested, placingTwo.noChoosers,
      { oakOrder with quantity := 2, remaining := 2, state := .active .A }
        ∈ placingTwo.queue.entries] = true := by decide +kernel

/-- Carriage A on its way to place 4, and after an ABANDON there. -/
def travelling : State := moving (hold base .A [1, 2, 3, 4, 5]) (oakWork .source (some 4) none)
  (.travel 21000 100 none) (some (pick .descending))

theorem witness_StepDoneArrives :
    yes [travelling.quiet, (travelling.pt .A).stopping = false,
      (travelling.pt .A).current = some (.travel 21000 100 none), (travelling.pt .A).next ≠ none,
      travelling.holder (travelling.posZone ⟨23999, 100⟩) = some .A,
      travelling.holder (travelling.posZone ⟨24000, 100⟩) ≠ some .A,
      (travelling.sq .A).state = .moving,
      travelling.keepable .A (travelling.posZone ⟨24000, 100⟩), (picking .abandoning).quiet,
      ((picking .abandoning).pt .A).current = some (pick .abandoning),
      ((picking .abandoning).pt .A).next ≠ none,
      ((picking .abandoning).sq .A).work = some (oakWork .source (some 4) none)] = true := by
  decide +kernel

/-- Carriage A arrives at its infeed, where saw 0 is in a state; and has abandoned its pick, with the
oak order active and another stack of oak or none. -/
def arriving (st : InfeedState) : State :=
  a (moving (hold (w0 base fun x => { x with state := st }) .A [7]) (oakWork .deliver none none)
    (.travel 29000 100 (some 30)) none) fun q => { q with load := some oakLoad }

def abandoned (oakThere : Bool) : State :=
  let s := at4 (moving (setRec (oakIn (.active .A)) 4
    (some ⟨.locked .mismatch, some .A, [⟨oak, some 1⟩]⟩)) (oakWork .source (some 4) none)
      (pick .abandoning) none)
  if oakThere then setRec s 7 (some ⟨.ready, none, [⟨oak, some 3⟩]⟩) else s

theorem witness_StepDoneArrives_asks :
    yes [(arriving .opened).quiet, (arriving .opened).holder ((arriving .opened).posZone ⟨29000, 100⟩)
        = some .A, ((arriving .opened).sq .A).work = some (oakWork .deliver none none),
      ((arriving .opened).sq .A).load = some oakLoad, ((arriving .opened).arec .A).ordered = none,
      ((arriving .opened).sq .A).holdPending = false, (arriving .opened).infeedTakes 0,
      (arriving .opened).mayClaimDest .A 5 oak,
      (arriving .opened).spanClaimable .A false (spanOf 7 7),
      (after (.stepDone .A ⟨29000, 100⟩ .standing) (arriving .opened)).userAt 5 = some .A,
      ((after (.stepDone .A ⟨29000, 100⟩ .standing) (arriving .opened)).pt .A).current
        = some ((arriving .opened).placeAt .A 5),
      (arriving .closed).quiet, (arriving .closed).infeedTakes 0 = false,
      ((after (.stepDone .A ⟨29000, 100⟩ .standing) (arriving .closed)).sq .A).state = .sawWait,
      ((after (.stepDone .A ⟨29000, 100⟩ .standing) (arriving .closed)).sq .A).wait
        = ⟨true, 60000⟩] = true := by decide +kernel

theorem witness_StepDoneArrives_resolves :
    let freed (s : State) : State := wentOn (((reportedAt s .A ⟨21000, 100⟩).releasePlace .A
      4).modSeq .A fun q => { q with work := some (oakWork .source none none) }) .A
    yes [(abandoned true).quiet, ((abandoned true).sq .A).load = none,
      ((abandoned true).arec .A).zone = some 5, ((abandoned true).arec .A).ordered = none,
      (freed (abandoned true)).resolveSource .A 120 160 5 = some 7,
      (freed (abandoned true)).mayClaimSource .A 7,
      (freed (abandoned true)).matching 120 160 7 = some 0,
      ((after (.stepDone .A ⟨21000, 100⟩ .standing) (abandoned true)).sq .A).work
        = some (oakWork .source (some 7) none),
      (abandoned false).queue.ok, { oakOrder with state := .active .A } ∈ (abandoned false).queue.entries,
      (freed (abandoned false)).resolveSource .A 120 160 5 = none,
      ((abandoned false).sq .A).suspended = [],
      (List.finRange 32).all fun q => q = 4 ∨ (abandoned false).userAt q ≠ some .A,
      ((after (.stepDone .A ⟨21000, 100⟩ .standing) (abandoned false)).sq .A).state = .idle,
      ((after (.stepDone .A ⟨21000, 100⟩ .standing) (abandoned false)).queue.entries.map
        fun e => e.isStarved) = [false, true]] = true := by decide +kernel

/-- Carriage A on its way home, with its HOME in flight. -/
def goingHome (l : Option Load) : State :=
  pa (a (inState .homing) fun q => { q with load := l }) fun d => { d with current := some .home }

theorem witness_HomeDoneReferences :
    yes [base.quiet, (base.sq .A).state ≠ .homing, (goingHome none).quiet,
      ((goingHome none).sq .A).state = .homing, ((goingHome none).pt .A).current = some .home,
      ((goingHome none).pt .A).stopping = false, (goingHome none).posZone ⟨3999, 0⟩ = 0,
      (goingHome none).posZone ⟨4000, 0⟩ = 1, (goingHome (some oakLoad)).quiet, oakLoad.sure,
      ((goingHome (some { oakLoad with sure := false })).sq .A).load
        = some { oakLoad with sure := false }] = true := by decide +kernel

/-- A port that waits for STOPPED. -/
def stopping (st : CarState) : State := pa (inState st) fun d => { d with
  stopping := true, current := some (.travel 100 100 none) }

theorem witness_StoppedEmptiesSlots :
    yes [(stopping .moving).quiet, (List.finRange 4).all fun w => !base.saws[w].releasePending,
      (State.reset.pt .A).stopping = false, (State.reset.sq .A).state = .unreferenced,
      State.reset.quiet, (pa State.reset fun d => { d with stopping := true }).quiet,
      (pa State.reset fun d => { d with stopping := true }).heldZones .A = [],
      (stopping .faulted).quiet, ((stopping .faulted).sq .A).state = .faulted,
      ((stopping .faulted).pt .A).stopping,
      (stopping .faulted).holder ((stopping .faulted).posZone ⟨3999, 0⟩) = some .A,
      ((stopping .moving).sq .A).state = .moving, ((stopping .moving).sq .A).work = none,
      ((stopping .moving).sq .A).holdPending = false] = true := by decide +kernel

theorem witness_DriveAlarmsFault :
    yes [State.reset.quiet, (State.reset.sq .A).state = .unreferenced,
      (inState .stopped).quiet, (inState .faulted).quiet, (inState .homing).quiet, base.quiet,
      (base.sq .A).state = .idle, ((inState .moving).sq .A).state = .moving,
      (loaded .idle).quiet, ((loaded .idle).sq .A).load ≠ none, (picking .lifting).quiet,
      ((picking .lifting).pt .A).current = some (.pick 4 2260 100 ⟨40, 90, 30⟩ .lifting false),
      (loaded .homing).quiet, ((loaded .homing).sq .A).state = .homing,
      ((loaded .homing).sq .A).load ≠ none,
      (base.sq .A).load = none ∧ (base.pt .A).current = none] = true := by decide +kernel

theorem witness_SawLinkHeard :
    yes [base.quiet, base.saws[0].status = .auto, base.saws[0].mode = .book,
      base.saws[0].state = .opened, base.saws[0].silence.running, base.saws[1].status ≠ .auto,
      base.saws[1].silence.running = false,
      (w0 base fun x => { x with status := .manual }).saws[0].silence.running,
      (w0 base fun x => { x with status := .manual }).quiet] = true := by decide +kernel

/-- The return table of saw 0 with so many pieces, and its overrun flag. -/
def table (n : Nat) (ovr : Bool) (st : InfeedState) : State :=
  w0 (setRec base 6 (some ⟨.ready, none, [⟨oak, some n⟩]⟩)) fun x => { x with
    overrun := ovr, state := st }

theorem witness_RemnantTaken :
    yes [base.quiet, ¬(1 ≤ 0 ∧ 0 ≤ 4095), (some SizeClass.S) ≠ none, 4096 > 4095,
      base.returnPlace 1 = none, base.returnPlace 0 = some 6, (table 4 true .opened).saws[0].overrun,
      (table 4 true .opened).quiet, (table 4 false .cutting).saws[0].overrun = false,
      4 ≤ knownCount ((table 4 false .cutting).runsAt 6),
      (table 4 false .cutting).saws[0].state = .cutting, (table 4 false .cutting).quiet,
      (table 4 false .opened).saws[0].state = .opened, (table 4 false .opened).quiet,
      (table 3 false .opened).stackRecs[6] = some ⟨.ready, none, [⟨oak, some 3⟩]⟩,
      knownCount [⟨oak, some 3⟩] < 4, (table 3 false .opened).quiet] = true := by decide +kernel

theorem witness_RemnantTaken_blocked :
    yes [(table 4 false (.blocked .fallback)).quiet,
      4 ≤ knownCount ((table 4 false (.blocked .fallback)).runsAt 6),
      (after (.remnantRecord 0 120 160 (some .S)) (table 4 false (.blocked .fallback))).saws[0].state
        = .blocked .overrun] = true := by decide +kernel

/-- Carriage A in SAW WAIT with the oak piece and no place to divert it to. -/
def timingOut : State :=
  a (setPlace base 12 ⟨.unused, 0, 0, 0, 0, 0, none⟩ none) fun q => { q with
    state := .sawWait, load := some oakLoad, wait := ⟨true, 0⟩
    work := some ⟨.order 32 0 120 160 5 none, .rush, .deliver, none, none⟩ }

/-- The book timer of saw 0 runs. -/
def timed (u : Option Carriage) : State := w0 (book 2 u .opened) fun x => { x with
  bookTimer := ⟨true, 0⟩ }

theorem witness_TimersExpire :
    yes [base.rested, base.saws[0].bookTimer.running = false, (timed none).rested,
      (timed none).saws[0].bookTimer.running, (timed none).infeedUser 0 = none,
      (timed (some .A)).saws[0].bookTimer.running, (timed (some .A)).infeedUser 0 ≠ none,
      (base.sq .A).wait.running = false,
      ((a (inState .moving) fun q => { q with wait := ⟨true, 0⟩ }).sq .A).wait.running,
      ((inState .moving).sq .A).state = .moving, timingOut.rested,
      (timingOut.sq .A).wait.running, (timingOut.sq .A).state = .sawWait,
      (timingOut.sq .A).holdPending = false, timingOut.noClaims,
      (timingOut.sq .B).state.unmoved,
      (timingOut.sq .A).work
        = some ⟨.order 32 0 120 160 5 none, .rush, .deliver, none, none⟩,
      (timingOut.sq .A).load = some oakLoad, timingOut.divertPlace .A none oak = none] = true := by
  decide +kernel

theorem witness_TimersExpire_pending :
    yes [(w0 (timed (some .A)) fun x => { x with releasePending := true }).saws[0].releasePending,
      (w0 (timed (some .A)) fun x => { x with releasePending := true }).saws[0].bookTimer.running,
      (timed none).saws[0].releasePending = false, (timed (some .A)).saws[0].releasePending = false]
        = true := by decide +kernel

/-- Saw 0 in BASIC mode with a panel taken. -/
def basicTaken : State := w0 (setRec base 5 (some ⟨.ready, none, [⟨oak, some 1⟩]⟩)) fun x =>
  { x with mode := .basic, basicTaken := true }

/-- A book under the saw. -/
def cutting (ovr fb ready : Bool) : State := w0 (book 3 none .cutting) fun x => { x with
  cutGo := true, overrun := ovr, fallbackPending := fb, ready := ready }

theorem witness_SawLinesFollow :
    yes [base.quiet, base.saws[0].state ≠ .closed, (book 0 none .closed).saws[0].state = .closed,
      (book 0 none .closed).bookCount 0 = 0, (book 1 none .closed).quiet,
      (book 1 none .closed).saws[0].mode = .book, 1 ≤ (book 1 none .closed).bookCount 0,
      0 < (book 1 none .closed).saws[0].timeout, (book 0 none .closed).saws[0].state ≠ .opened,
      base.saws[0].state = .opened, base.saws[0].mode ≠ .basic, basicTaken.quiet,
      basicTaken.saws[0].state = .opened, basicTaken.saws[0].mode = .basic,
      basicTaken.saws[0].basicTaken, basicTaken.infeedPlace 0 = some 5,
      (cutting true false true).quiet, (cutting true false true).saws[0].overrun,
      (cutting false false true).saws[0].state = .cutting,
      (cutting false false true).saws[0].mode = .book,
      (cutting false false true).infeedPlace 0 = some 5,
      (cutting false false true).saws[0].fallbackPending = false,
      (cutting false false true).saws[0].ready, (cutting false false false).quiet,
      (cutting false false false).saws[0].ready = false] = true := by decide +kernel

theorem witness_SawLinesFollow_fallback :
    yes [(cutting false true true).quiet, (cutting false true true).saws[0].overrun = false,
      (cutting false true true).saws[0].fallbackPending,
      (cutting false true true).saws[0].state = .cutting,
      (cutting false true true).saws[0].mode = .book,
      (after (.cutDone 0) (cutting false true true)).saws[0].mode = .basic,
      events (after (.cutDone 0) (cutting false true true))
        = [(.cutReleased, .saw 0), (.sawFallback, .saw 0)]] = true := by decide +kernel

/-- Curtain 0 over zones 0 to 3 with carriage A in a state there. -/
def under (st : CarState) : State := a ranged fun q => { q with state := st }

theorem witness_CurtainCloses :
    yes [ranged.quiet, ranged.events.ok, (under .moving).events.ok,
      { ranged with lines := ⟨Vector.replicate 4 true, Vector.replicate 2 true,
        false⟩ }.lines.curtain[0], ranged.lines.curtain[0] = false,
      (ranged.sq .A).state = .idle ∧ (ranged.sq .B).state = .idle,
      ((under .moving).sq .A).state = .moving, 0 ∈ (under .moving).heldZones .A,
      inOptRange (some ⟨0, 3⟩) 0, ranged.cell.curtains[0] = some ⟨0, 3⟩, (under .moving).quiet,
      ((under .homing).sq .A).state = .homing, (under .homing).quiet] = true := by decide +kernel

/-- Gate 0 over the zone of carriage A, with both carriages moving. -/
def overA : State := a ({ ranged with
  cell := { ranged.cell with gates := ranged.cell.gates.set 0 (some ⟨0, 3⟩) } }.modSeq .B fun q =>
    { q with state := .moving }) fun q => { q with state := .moving }

theorem witness_AccessGrants :
    yes [ranged.rested, ranged.noChoosers, ranged.arb.waiting = [],
      !ranged.arb.gates[1].isAwaiting, ranged.arb.host.awaiting = none,
      { ranged with lines := ⟨Vector.replicate 4 true, Vector.replicate 2 true, false⟩ }.rested,
      ranged.lines.access[0] = false, ranged.cell.gates[0] = some ⟨8, 9⟩,
      (List.finRange 16).all fun z => !inRange ⟨8, 9⟩ z.val ∨ ranged.arb.zones[z].holder = none,
      (ranged.sq .A).state ≠ .homing ∧ (ranged.sq .B).state ≠ .homing,
      ranged.cell.gates[1] = none, overA.rested, overA.noChoosers, overA.arb.waiting = [],
      overA.cell.gates[0] = some ⟨0, 3⟩, overA.arb.zones[0].holder = some .A,
      (overA.sq .A).state = .moving ∧ (overA.sq .B).state = .moving] = true := by decide +kernel

theorem witness_EStopStops :
    yes [base.quiet, base.lines.eStop = false,
      { base with lines := { base.lines with eStop := true } }.quiet] = true := by decide +kernel

theorem witness_PowerOnResets :
    yes [base.lines = ⟨Vector.replicate 4 false, Vector.replicate 2 false, false⟩,
      { base with lines := { base.lines with eStop := true } }.lines.eStop] = true := by
  decide +kernel

theorem witness_StepKeepsInvariant : Machine.Inv { base with pending := [.home 0] }
    ∧ step { base with pending := [.home 0] } = .next (after (.home 0) base) := by
  refine ⟨?_, rfl⟩
  unfold Machine.Inv
  decide +kernel

end Sys2Proof.Tests
end

section
/-! The zone map, curtain and gate settings (R3, R10, R11): which check of each fails first, and the
Cell Map each writes when none does. -/

namespace Sys2Proof.Machine

/-! ### A setting taken at once -/

/-- The row of a request has the effect of the request's arrival (R180). -/
theorem exec_command (r : Request) (s : State) : exec r.command s = .next (s.requestArrives r) := by
  cases r <;> rfl

theorem takesAtOnce_rested {s : State} (h : s.takesAtOnce = true) : s.rested = true := by
  simp only [State.takesAtOnce, Bool.and_eq_true] at h
  exact h.1.1.1.1

theorem takesAtOnce_waiting {s : State} (h : s.takesAtOnce = true) : s.link.waiting = [] := by
  simp only [State.takesAtOnce, Bool.and_eq_true, List.isEmpty_iff] at h
  exact h.1.1.1.2

section
variable {s : State} {q : Request} (h : s.takesAtOnce = true)
  (hp : parseRequest (Request.kind q) (Request.body q) = .request q)
include h hp

/-- An owner that refuses and changes nothing: the refusal is queued and nothing else changes. -/
theorem refuses_of_handle {why : Reason} {i : Nat}
    (hr : (s.withRequest q).handle q = (s.withRequest q, .refuse why i)) :
    refuses q.command s (Request.kind q) (reasonCode why) (byte i) := by
  unfold refuses
  rw [exec_command, requestArrives_refused s q _ h hp hr]
  rfl

/-- An owner that changes the Cell Map alone and accepts: the step ends there. -/
theorem accepts_of_handle_modCell {f : CellMap → CellMap}
    (hr : (s.withRequest q).handle q = ((s.withRequest q).modCell f, .ok)) :
    accepts q.command s (s.modCell f) (Request.kind q) [] := by
  have hrest : s.rested = true := takesAtOnce_rested h
  have hsettle : ((s.withRequest q).modCell f).settle = (s.modCell f).withRequest q :=
    settle_rested _ hrest
  unfold accepts
  rw [exec_command, requestArrives_done s _ _ q _ h hp hr hsettle (takesAtOnce_waiting h)]
  rfl

end

/-! ### Zone ranges of a body -/

/-- A zone range or NONE as a body's two bytes spell it. -/
def RangeField.ofOption : Option ZoneRange → RangeField
  | .some r => .range r
  | .none => .none

/-- Two bytes that are not both FFh are read as a range (R186). -/
theorem readOptRange_of_not_absent {f l : Byte} (hn : ¬(f = 0xFF ∧ l = 0xFF)) :
    readOptRange f l = readRange 2 f l :=
  if_neg hn

theorem readOptRange_bad_first {f l : Byte} (hn : ¬(f = 0xFF ∧ l = 0xFF)) (hf : 15 < f.toNat) :
    readOptRange f l = .bad 2 := by
  rw [readOptRange_of_not_absent hn, readRange, if_pos hf]

theorem readOptRange_bad_last {f l : Byte} (hn : ¬(f = 0xFF ∧ l = 0xFF)) (hf : f.toNat ≤ 15)
    (hl : 15 < l.toNat) : readOptRange f l = .bad 3 := by
  rw [readOptRange_of_not_absent hn, readRange, if_neg hf.not_gt, if_pos hl]

/-- A range that runs backwards is refused at its last zone, whether or not that zone exists. -/
theorem readOptRange_descending {f l : Byte} (hf : f.toNat ≤ 15) (hlf : l.toNat < f.toNat) :
    readOptRange f l = .bad 3 := by
  have hn : ¬(f = 0xFF ∧ l = 0xFF) := by
    rintro ⟨rfl, -⟩
    simp at hf
  simp [readOptRange_of_not_absent hn, readRange, hf.not_gt, hlf]

theorem readOptRange_good {f l : Byte}
    (hg : (f = 0xFF ∧ l = 0xFF) ∨ (f.toNat ≤ l.toNat ∧ l.toNat ≤ 15)) :
    readOptRange f l
      = .ofOption (if f = 0xFF ∧ l = 0xFF then none else some ⟨f.toNat, l.toNat⟩) := by
  by_cases hn : f = 0xFF ∧ l = 0xFF
  · obtain ⟨rfl, rfl⟩ := hn
    rfl
  · obtain ⟨hfl, hl⟩ := hg.resolve_left hn
    rw [readOptRange_of_not_absent hn, if_neg hn, readRange, if_neg (hfl.trans hl).not_gt,
      if_neg hl.not_gt, if_neg hfl.not_gt, RangeField.ofOption]

/-! ### SET CURTAIN and SET ACCESS GATE -/

/-- A one-byte field that numbers one of `n` records. -/
def fieldOf (n : Nat) (b : Byte) : Option (Fin n) :=
  if h : b.toNat < n then some ⟨b.toNat, h⟩ else none

theorem curtainOf_eq : curtainOf = fieldOf 4 := rfl

theorem gateOf_eq : gateOf = fieldOf 2 := rfl

theorem fieldOf_above {n : Nat} {b : Byte} (hb : n ≤ b.toNat) : fieldOf n b = none :=
  dif_neg hb.not_gt

theorem fieldOf_val {n : Nat} {b : Byte} {k : Fin n} (hb : b.toNat = k.val) :
    fieldOf n b = some k := by
  simp [fieldOf, hb]

/-- What SET CURTAIN and SET ACCESS GATE share (R10, R11): the number, then the range, then the line
are checked, and the range of the numbered record is written. -/
def State.setRanged {n : Nat} (s : State) (line : Fin n → Bool)
    (write : Fin n → Option ZoneRange → CellMap → CellMap) :
    Option (Fin n) → RangeField → State × Reply
  | none, _ => (s, .badValue 1)
  | some _, .bad i => (s, .badValue i)
  | some k, .range r => if line k then (s, .refuse .notNow 0) else (s.modCell (write k (some r)), .ok)
  | some k, .none => if line k then (s, .refuse .notNow 0) else (s.modCell (write k none), .ok)

theorem setRanged_ofOption {n : Nat} (s : State) (line : Fin n → Bool)
    (write : Fin n → Option ZoneRange → CellMap → CellMap) (k : Fin n) (r : Option ZoneRange) :
    s.setRanged line write (some k) (.ofOption r)
      = if line k then (s, .refuse .notNow 0) else (s.modCell (write k r), .ok) := by
  cases r <;> rfl

/-- The range of curtain `k` becomes `r`. -/
def CellMap.putCurtain (k : Curtain) (r : Option ZoneRange) (m : CellMap) : CellMap :=
  { m with curtains := m.curtains.set k.val r }

/-- The range of gate `g` becomes `r`. -/
def CellMap.putGate (g : Gate) (r : Option ZoneRange) (m : CellMap) : CellMap :=
  { m with gates := m.gates.set g.val r }

theorem doSetCurtain_eq (s : State) (b f l : Byte) :
    s.doSetCurtain b f l = s.setRanged (fun k => s.lines.curtain[k]) CellMap.putCurtain
      (fieldOf 4 b) (readOptRange f l) := by
  rw [← curtainOf_eq]
  unfold State.doSetCurtain
  cases curtainOf b <;> cases readOptRange f l <;> rfl

theorem doSetAccessGate_eq (s : State) (b f l : Byte) :
    s.doSetAccessGate b f l = s.setRanged (fun g => s.lines.access[g]) CellMap.putGate
      (fieldOf 2 b) (readOptRange f l) := by
  rw [← gateOf_eq]
  unfold State.doSetAccessGate
  cases gateOf b <;> cases readOptRange f l <;> rfl

section
variable {n : Nat} {s : State} {q : Request} {b f l : Byte} {line : Fin n → Bool}
  {write : Fin n → Option ZoneRange → CellMap → CellMap}
  (h : s.takesAtOnce = true)
  (hp : parseRequest (Request.kind q) (Request.body q) = .request q)
  (hq : (s.withRequest q).handle q
    = (s.withRequest q).setRanged line write (fieldOf n b) (readOptRange f l))
include h hp hq

theorem setRanged_refuses_number (hb : n ≤ b.toNat) :
    refuses q.command s (Request.kind q) 3 1 :=
  refuses_of_handle (why := .badValue) (i := 1) h hp (by rw [hq, fieldOf_above hb]; rfl)

theorem setRanged_refuses_range (hb : b.toNat < n) {i : Nat} (hr : readOptRange f l = .bad i) :
    refuses q.command s (Request.kind q) 3 (byte i) :=
  refuses_of_handle (why := .badValue) h hp (by
    rw [hq, fieldOf_val (k := ⟨b.toNat, hb⟩) rfl, hr]; rfl)

/-- The ways a range field is bad, in the order of their checks. -/
theorem setRanged_refuses_badRange (hb : b.toNat < n) :
    (¬(f = 0xFF ∧ l = 0xFF) → 15 < f.toNat → refuses q.command s (Request.kind q) 3 2)
      ∧ (¬(f = 0xFF ∧ l = 0xFF) → f.toNat ≤ 15 → 15 < l.toNat →
          refuses q.command s (Request.kind q) 3 3)
      ∧ (f.toNat ≤ 15 → l.toNat < f.toNat → refuses q.command s (Request.kind q) 3 3) :=
  have bad {i : Nat} := setRanged_refuses_range h hp hq hb (i := i)
  ⟨fun hn hf => bad (readOptRange_bad_first hn hf),
    fun hn hf hl => bad (readOptRange_bad_last hn hf hl),
    fun hf hlf => bad (readOptRange_descending hf hlf)⟩

variable {k : Fin n} (hb : b.toNat = k.val)
  (hg : (f = 0xFF ∧ l = 0xFF) ∨ (f.toNat ≤ l.toNat ∧ l.toNat ≤ 15))
include hb hg

theorem setRanged_refuses_line (hk : line k = true) :
    refuses q.command s (Request.kind q) 5 0 :=
  refuses_of_handle (why := .notNow) (i := 0) h hp (by
    rw [hq, fieldOf_val hb, readOptRange_good hg, setRanged_ofOption, if_pos hk])

theorem setRanged_accepts (hk : line k = false) :
    accepts q.command s (s.modCell (write k
      (if f = 0xFF ∧ l = 0xFF then none else some ⟨f.toNat, l.toNat⟩))) (Request.kind q) [] :=
  accepts_of_handle_modCell h hp (by
    rw [hq, fieldOf_val hb, readOptRange_good hg, setRanged_ofOption, if_neg (by simp [hk])])

end

/-! ### SET ZONE MAP -/

theorem half_halfBytes (h : Half) : half (h.setWidth 8) ((h >>> 8).setWidth 8) = h := by
  refine BitVec.eq_of_getLsbD_eq fun i hi => ?_
  refine BitVec.getLsbD_append.trans ?_
  by_cases hlow : i < 8
  · simp [hlow]
  · have hsum : 8 + (i - 8) = i := by omega
    have hhigh : i - 8 < 8 := by omega
    simp [hlow, hsum, hhigh]

theorem readHalves_flatMap (starts : List Half) :
    readHalves (starts.flatMap halfBytes) = starts := by
  induction starts with
  | nil => rfl
  | cons h rest ih => exact congrArg₂ List.cons (half_halfBytes h) ih

theorem parseRequest_setZoneMap {starts : List Half} (hlen : starts.length = 16) :
    parseRequest (Request.kind (.setZoneMap starts)) (Request.body (.setZoneMap starts))
      = .request (.setZoneMap starts) := by
  have hbytes : (starts.flatMap halfBytes).length = 32 := by
    simp [List.length_flatMap, halfBytes, hlen]
  change parseZoneMap (starts.flatMap halfBytes) = _
  rw [parseZoneMap, if_pos hbytes, readHalves_flatMap]

/-- Start `k` of a list of zone starts; 0 past its end. -/
def startAt (starts : List Half) (k : Nat) : Nat := (starts.getD k 0).toNat

@[simp] theorem startAt_zero (h : Half) (rest : List Half) : startAt (h :: rest) 0 = h.toNat := rfl

@[simp] theorem startAt_succ (h : Half) (rest : List Half) (k : Nat) :
    startAt (h :: rest) (k + 1) = startAt rest k := rfl

/-- The start after the first `k` rising steps that does not rise is the one named. -/
theorem badStart_first {i k : Nat} {prev : Half} {rest : List Half} (hk : k < rest.length)
    (hup : ∀ j < k, startAt (prev :: rest) j < startAt (prev :: rest) (j + 1))
    (hdown : startAt (prev :: rest) (k + 1) ≤ startAt (prev :: rest) k) :
    badStart i prev rest = some (i + k) := by
  induction rest generalizing i k prev with
  | nil => simp at hk
  | cons h rest ih =>
    cases k with
    | zero => exact if_pos hdown
    | succ k =>
      have hrise : prev.toNat < h.toNat := hup 0 k.succ_pos
      have hrec : badStart (i + 1) h rest = some (i + 1 + k) :=
        ih (by simpa using hk) (fun j hj => hup (j + 1) (by omega)) hdown
      rw [badStart, if_neg hrise.not_ge, hrec, Nat.add_right_comm, Nat.add_assoc]

theorem badStart_rising {i : Nat} {prev : Half} {rest : List Half}
    (hup : ∀ j < rest.length, startAt (prev :: rest) j < startAt (prev :: rest) (j + 1)) :
    badStart i prev rest = none := by
  induction rest generalizing i prev with
  | nil => rfl
  | cons h rest ih =>
    have hrise : prev.toNat < h.toNat := hup 0 (by simp)
    rw [badStart, if_neg hrise.not_ge]
    exact ih fun j hj => hup (j + 1) (by simpa using hj)

section
variable {starts : List Half} (hlen : starts.length = 16)
include hlen

theorem badZoneMap_nonzero (h0 : startAt starts 0 ≠ 0) : badZoneMap starts = some 1 := by
  cases starts with
  | nil => simp at hlen
  | cons h rest =>
    have hne : h ≠ 0 := by rintro rfl; exact h0 rfl
    exact if_pos hne

/-- From a first start of 0 on, the other starts are judged one by one. -/
theorem badZoneMap_zero (h0 : startAt starts 0 = 0) :
    badZoneMap starts = badStart 2 0 starts.tail ∧ starts = 0 :: starts.tail
      ∧ starts.tail.length = 15 := by
  cases starts with
  | nil => simp at hlen
  | cons h rest =>
    obtain rfl : h = 0 := BitVec.eq_of_toNat_eq h0
    exact ⟨rfl, rfl, by simpa using hlen⟩

theorem badZoneMap_first (h0 : startAt starts 0 = 0) {k : Nat} (hk : k < 15)
    (hup : ∀ j < k, startAt starts j < startAt starts (j + 1))
    (hdown : startAt starts (k + 1) ≤ startAt starts k) :
    badZoneMap starts = some (k + 2) := by
  obtain ⟨hbad, hcons, htail⟩ := badZoneMap_zero hlen h0
  rw [hcons] at hup hdown
  rw [hbad, badStart_first (htail ▸ hk) hup hdown, Nat.add_comm]

theorem badZoneMap_rising (h0 : startAt starts 0 = 0)
    (hup : ∀ j < 15, startAt starts j < startAt starts (j + 1)) : badZoneMap starts = none := by
  obtain ⟨hbad, hcons, htail⟩ := badZoneMap_zero hlen h0
  rw [hcons] at hup
  rw [hbad, badStart_rising (htail.symm ▸ hup)]

end

theorem doSetZoneMap_bad {s : State} {starts : List Half} {i : Nat}
    (hbad : badZoneMap starts = some i) : s.doSetZoneMap starts = (s, .badValue i) := by
  simp [State.doSetZoneMap, hbad]

/-- With the starts in order, only the carriages are left to check. -/
theorem doSetZoneMap_rising {s : State} {starts : List Half} (hgood : badZoneMap starts = none) :
    s.doSetZoneMap starts =
      if (s.sq .A).state = .unreferenced ∧ (s.sq .B).state = .unreferenced then
        (s.modCell fun m => { m with starts := Vector.ofFn fun k => startAt starts k.val }, .ok)
      else (s, .refuse .notNow 0) := by
  simp only [State.doSetZoneMap, hgood, startAt]

section
variable {s : State} {starts : List Half} (h : s.takesAtOnce = true) (hlen : starts.length = 16)
include h hlen

theorem setZoneMap_refuses_start {i : Nat} (hbad : badZoneMap starts = some i) :
    refuses (.setZoneMap starts) s 2 3 (byte i) :=
  refuses_of_handle (q := .setZoneMap starts) (why := .badValue) h (parseRequest_setZoneMap hlen)
    (doSetZoneMap_bad hbad)

variable (hgood : badZoneMap starts = none)
include hgood

theorem setZoneMap_refuses_referenced
    (hfree : ¬((s.sq .A).state = .unreferenced ∧ (s.sq .B).state = .unreferenced)) :
    refuses (.setZoneMap starts) s 2 5 0 :=
  refuses_of_handle (q := .setZoneMap starts) (why := .notNow) (i := 0) h
    (parseRequest_setZoneMap hlen) ((doSetZoneMap_rising hgood).trans (if_neg hfree))

theorem setZoneMap_accepts
    (hfree : (s.sq .A).state = .unreferenced ∧ (s.sq .B).state = .unreferenced) :
    accepts (.setZoneMap starts) s
      (s.modCell fun m => { m with starts := Vector.ofFn fun k => startAt starts k.val }) 2 [] :=
  accepts_of_handle_modCell (q := .setZoneMap starts) h (parseRequest_setZoneMap hlen)
    ((doSetZoneMap_rising hgood).trans (if_pos hfree))

end

/-! ### The statement -/

/-- Settles O23: each clause is the first check that fails, or none. -/
theorem railSettingsReplace : Obligations.RailSettingsReplace := by
  refine ⟨fun s starts h hlen => ⟨?start, ?rise, ?referenced, ?replaced⟩, fun s b f l h => ?ranges⟩
  case start => exact fun h0 => setZoneMap_refuses_start h hlen (badZoneMap_nonzero hlen h0)
  case rise =>
    exact fun h0 k hk hup hdown =>
      setZoneMap_refuses_start h hlen (badZoneMap_first hlen h0 hk hup hdown)
  case referenced =>
    exact fun h0 hup => setZoneMap_refuses_referenced h hlen (badZoneMap_rising hlen h0 hup)
  case replaced => exact fun h0 hup => setZoneMap_accepts h hlen (badZoneMap_rising hlen h0 hup)
  case ranges =>
    have curtain := doSetCurtain_eq (s.withRequest (.setCurtain b f l)) b f l
    have gate := doSetAccessGate_eq (s.withRequest (.setAccessGate b f l)) b f l
    exact ⟨setRanged_refuses_number (q := .setCurtain b f l) h rfl curtain,
      fun hb => setRanged_refuses_badRange (q := .setCurtain b f l) h rfl curtain
        (Nat.lt_succ_of_le hb),
      fun _ => setRanged_refuses_line (q := .setCurtain b f l) h rfl curtain,
      fun _ => setRanged_accepts (q := .setCurtain b f l) h rfl curtain,
      setRanged_refuses_number (q := .setAccessGate b f l) h rfl gate,
      fun hb => setRanged_refuses_badRange (q := .setAccessGate b f l) h rfl gate
        (Nat.lt_succ_of_le hb),
      fun _ => setRanged_refuses_line (q := .setAccessGate b f l) h rfl gate,
      fun _ => setRanged_accepts (q := .setAccessGate b f l) h rfl gate⟩

end Sys2Proof.Machine
end

section
/-! Requeues (R42): the state each entry takes by its infeed, and the work notice (R47) that one entering
QUEUED causes. -/

namespace Sys2Proof.Machine

/-! ### The work notice -/

theorem modSeq_fixed {s : State} {c : Carriage} {f : Sequencer → Sequencer}
    (h : f (s.sq c) = s.sq c) : s.modSeq c f = s := by
  rw [State.modSeq, h, State.sq, set_get]

/-- A work notice changes the sequencer it is for and nothing else (R47, R136). -/
theorem noticeTo_eq (s : State) (c : Carriage) : s.noticeTo c = s.modSeq c noticed := by
  unfold State.noticeTo
  split
  case h_1 hidle =>
    by_cases hfree : (s.sq c).load = none ∧ (s.sq c).work = none
    · simp [State.modSeq, noticed, hidle, hfree]
    · rw [if_neg (by simpa using hfree)]
      exact (modSeq_fixed (by simp [noticed, hidle, hfree])).symm
  case h_2 hheld => simp [State.modSeq, noticed, hheld]
  case h_3 hidle hheld =>
    exact (modSeq_fixed (by rw [noticed, if_neg fun h => hidle h.1, if_neg hheld])).symm

theorem workNotice_eq (s : State) :
    s.workNotice = { s with seq := ⟨noticed s.seq.a, noticed s.seq.b⟩ } := by
  rw [State.workNotice, noticeTo_eq, noticeTo_eq]
  rfl

/-! ### The requeue -/

/-- An entry goes back to the state that its saw's infeed gives it, whatever the block reason (R42,
R58). -/
theorem requeuedState_eq_backState (s : State) (e : OrderEntry) :
    s.requeuedState e = backState s e := by
  unfold State.requeuedState State.infeedBlocked backState
  cases s.saws[e.saw].state with
  | blocked r => cases r <;> rfl
  | _ => rfl

/-- The work notice comes exactly when a requeued entry enters QUEUED. -/
theorem requeueWhere_eq (s : State) (p : OrderEntry → Bool) :
    s.requeueWhere p =
      if ∃ e ∈ s.queue.entries, p e = true ∧ backState s e = .queued then
        (s.mapOrders p fun e => { e with state := backState s e }).workNotice
      else s.mapOrders p fun e => { e with state := backState s e } := by
  simp only [State.requeueWhere, requeuedState_eq_backState, List.any_eq_true, Bool.and_eq_true,
    decide_eq_true_eq]

/-! ### The statement -/

/-- Settles O14: with a work notice where an entry enters QUEUED, and without one where none does. -/
theorem requeueByInfeed : Obligations.RequeueByInfeed := by
  refine fun s p => ⟨fun hqueued => ?notice, fun hblocked => ?silent⟩
  case notice =>
    rw [requeueWhere_eq, if_pos hqueued, workNotice_eq]
    rfl
  case silent =>
    have hnone : ¬∃ e ∈ s.queue.entries, p e = true ∧ backState s e = .queued :=
      fun ⟨e, he, hp, hq⟩ => hblocked e he hp hq
    rw [requeueWhere_eq, if_neg hnone]
    rfl

end Sys2Proof.Machine
end

section
/-! What a command can do, said once for every property that its basic updates keep: the invariant of the
records and the frame of the waiting commands are both such properties. -/

namespace Sys2Proof.Machine

/-! ### Properties that every command keeps -/

/-- A stable property that also stands the updates that only requests, the link and the lines make: a
change of the link, the Cell Map's settings, the order queue or the pending events that keeps their laws,
a place defined together with its stack record, and any level of the input lines. -/
structure Kept (P : State → Prop) : Prop extends Stable P where
  link : ∀ s l, (s.link.ok = true → l.ok = true) → P s → P { s with link := l }
  cell : ∀ s m, (s.cell.ok = true → m.ok = true) → m.places = s.cell.places → P s →
    P { s with cell := m }
  place : ∀ (s : State) (p : Place) (d : PlaceDef), P s →
    P ((s.modCell fun m => { m with places := m.places.set p.val d }).putStack p
      (if d.kind = .unused then none else some ⟨.empty, none, []⟩))
  lines : ∀ s v, P s → P { s with lines := v }
  queue : ∀ s q, (s.queue.ok = true → q.ok = true) → P s → P { s with queue := q }
  events : ∀ s u, (s.events.ok = true → u.ok = true) → P s → P { s with events := u }

/-! ### The laws of the records under single changes -/

theorem linkOk_iff (l : HostLink) : l.ok = true ↔
    l.outbound.length ≤ Config.maxFrames ∧ l.waiting.length ≤ Config.maxWaiting
      ∧ l.owedBad ≤ Config.maxSmall ∧ l.owedBusy ≤ Config.maxSmall
      ∧ l.framingErrors ≤ Config.maxLinkCount ∧ l.frameTimeouts ≤ Config.maxLinkCount
      ∧ l.badChecks ≤ Config.maxLinkCount ∧ l.overruns ≤ Config.maxLinkCount := by
  simp only [HostLink.ok, Bool.and_eq_true, decide_eq_true_eq, and_assoc]

/-- The zone starts rise from 0, the profiles are in order, the parameters are in range. -/
theorem cellOk_iff (m : CellMap) : m.ok = true ↔
    m.starts[(0 : Zone)] = 0 ∧ (∀ k : Fin 15, m.starts[k.castSucc] < m.starts[k.succ])
      ∧ (∀ p : Profile, m.profiles[p].ok = true)
      ∧ 5 ≤ m.tolerance ∧ m.tolerance ≤ 50 ∧ m.digLimit ≤ 120
      ∧ 1 ≤ m.trigger ∧ m.trigger ≤ 4 := by
  simp only [CellMap.ok, Bool.and_eq_true, decide_eq_true_eq, List.all_eq_true, List.mem_finRange,
    forall_const, and_assoc]

theorem countersOk_iff (k : Counters) : k.ok = true ↔
    k.loaded ≤ Config.maxCounter ∧ k.returned ≤ Config.maxCounter ∧ k.cut ≤ Config.maxCounter
      ∧ k.unloaded ≤ Config.maxCounter ∧ k.lost ≤ Config.maxCounter := by
  simp only [Counters.ok, Bool.and_eq_true, decide_eq_true_eq, and_assoc]

theorem sawOk_iff (x : SawStation) : x.ok = true ↔
    (x.cutGo = true → x.state = .cutting) ∧ 1 ≤ x.threshold ∧ x.threshold ≤ 8 ∧ x.timeout ≤ 300
      ∧ 5 ≤ x.waitLimit ∧ x.waitLimit ≤ 600 ∧ x.overrunCount ≤ Config.maxSmall
      ∧ x.lastFed.length ≤ 8 := by
  simp only [SawStation.ok, Bool.and_eq_true, Bool.or_eq_true, Bool.not_eq_true', decide_eq_true_eq,
    and_assoc]
  cases x.cutGo <;> simp

/-- The settings of SAW CONFIG are read only within their ranges (R146). -/
theorem readSettings_range {m n lk : Byte} {t l : Half} {x : SawSettings}
    (h : readSettings m n t l lk = .inl x) :
    1 ≤ x.threshold ∧ x.threshold ≤ 8 ∧ x.timeout ≤ 300 ∧ 5 ≤ x.waitLimit ∧ x.waitLimit ≤ 600 := by
  unfold readSettings at h
  repeat' split at h
  all_goals cases h
  dsimp only
  omega

/-- A start list without a bad start rises (R3). -/
theorem startAt_rising_of_badStart {i : Nat} {prev : Half} {rest : List Half}
    (h : badStart i prev rest = none) :
    ∀ j < rest.length, startAt (prev :: rest) j < startAt (prev :: rest) (j + 1) := by
  induction rest generalizing i prev with
  | nil => simp
  | cons a rest ih =>
    rw [badStart] at h
    split at h
    · cases h
    · rename_i hlt
      intro j hj
      cases j with
      | zero => exact Nat.lt_of_not_le hlt
      | succ j => exact ih h j (by simpa using hj)

/-- Sixteen starts with no bad start give a zone map that rises from 0 (R3). -/
theorem cellOk_of_badZoneMap {m : CellMap} {starts : List Half} (hlen : starts.length = 16)
    (h : badZoneMap starts = none) (hm : m.ok = true) :
    ({ m with starts := Vector.ofFn fun k => (starts.getD k.val 0).toNat } : CellMap).ok = true := by
  obtain ⟨-, -, hrest⟩ := (cellOk_iff m).1 hm
  obtain _ | ⟨a, rest⟩ := starts
  · simp at hlen
  · rw [badZoneMap] at h
    split at h
    · cases h
    · rename_i ha
      obtain rfl : a = 0 := not_not.1 ha
      have hup := startAt_rising_of_badStart h
      refine (cellOk_iff _).2 ⟨?first, fun k => ?rise, hrest⟩
      case first => simp
      case rise =>
        have hk : k.val < rest.length := by simp at hlen; omega
        simpa [startAt] using hup k.val hk

/-- The values of SET GRIP PROFILE that pass its checks are in order (R12). -/
theorem cellOk_setProfile {m : CellMap} {p : Profile} {g : GripProfile} (hg : g.ok = true)
    (hm : m.ok = true) : ({ m with profiles := m.profiles.set p.val g } : CellMap).ok = true := by
  obtain ⟨h0, hup, hprof, hrest⟩ := (cellOk_iff m).1 hm
  refine (cellOk_iff _).2 ⟨h0, hup, fun q => ?_, hrest⟩
  simp only [Fin.getElem_fin, Vector.getElem_set]
  split
  · exact hg
  · exact hprof q

theorem badVacuum_none {i : Nat} {l : List Byte} (h : badVacuum i l = none) :
    ∀ b ∈ l, b.toNat ≤ 95 := by
  induction l generalizing i with
  | nil => simp
  | cons a l ih =>
    rw [badVacuum] at h
    split at h
    · cases h
    · rename_i ha
      simpa using ⟨Nat.le_of_not_lt ha, ih h⟩

/-- The fields of an ORDER are read only within their ranges (R43). -/
theorem readOrder_range {n m t q : Half} {w k d : Byte} {f : OrderFields}
    (h : readOrder n w m t k q d = .inl f) : 1 ≤ f.number ∧ 1 ≤ f.quantity ∧ f.quantity ≤ 999 := by
  unfold readOrder at h
  repeat' split at h
  all_goals cases h
  dsimp only
  omega

/-- Taking a rank keeps the laws of the queue and leaves every order its number (R44). -/
theorem takeRank_ok (q : OrderQueue) (h : q.ok = true) :
    q.takeRank.2.ok = true
      ∧ q.takeRank.2.entries.map (·.number) = q.entries.map (·.number) := by
  have hok := Stable.queueOk.rank { State.reset with queue := q } h
  refine ⟨hok, ?_⟩
  unfold OrderQueue.takeRank
  dsimp only
  split
  · rfl
  · simp [OrderQueue.renumber]

/-- A new order of a number the queue has not, with room for it, keeps the laws (R43, R44). -/
theorem queueOk_admit {q : OrderQueue} {f : OrderFields}
    (hnew : ∀ e ∈ q.entries, e.number ≠ f.number) (hroom : q.entries.length < Config.maxOrders)
    (hnum : 1 ≤ f.number) (hlow : 1 ≤ f.quantity) (hhigh : f.quantity ≤ 999) (h : q.ok = true) :
    ({ q.takeRank.2 with entries := q.takeRank.2.entries ++ [f.entry q.takeRank.1] } :
      OrderQueue).ok = true := by
  obtain ⟨hok, hnumbers⟩ := takeRank_ok q h
  obtain ⟨-, hnodup, hall⟩ := (Stable.queueOk_iff _).1 hok
  have hlen : q.takeRank.2.entries.length = q.entries.length := by
    simpa using congrArg List.length hnumbers
  refine (Stable.queueOk_iff _).2 ⟨?room, ?distinct, ?each⟩
  case room => simp; omega
  case distinct =>
    rw [List.map_append, hnumbers]
    rw [hnumbers] at hnodup
    refine hnodup.append (by simp) ?_
    simpa [OrderFields.entry, eq_comm] using hnew
  case each =>
    intro e he
    rcases List.mem_append.1 he with he | he
    · exact hall e he
    · obtain rfl := List.mem_singleton.1 he
      simp [OrderEntry.ok, OrderFields.entry, hnum, hlow, hhigh]

/-- The body of a SET ZONE MAP is read only with 16 starts in it. -/
theorem length_readHalves : ∀ (n : Nat) (body : List Byte), body.length = 2 * n →
    (readHalves body).length = n
  | 0, [], _ => rfl
  | n + 1, a :: b :: rest, h => by
    simpa [readHalves] using length_readHalves n rest (by simp at h; omega)

/-! ### The owners of the requests -/

theorem dropBehind_ok {l : HostLink} (h : l.ok = true) : l.dropBehind.ok = true := by
  unfold HostLink.dropBehind
  split
  · exact h
  · rename_i head rest hw
    have : ({ l with waiting := head :: rest.map fun r => { r with dropped := true } } :
      HostLink).waiting.length = l.waiting.length := by simp [hw]
    rw [linkOk_iff] at h ⊢
    exact ⟨h.1, this ▸ h.2.1, h.2.2⟩

namespace Stable

theorem cancelEntry {P : State → Prop} (h : Stable P) {s : State} (e : OrderEntry) (hs : P s) :
    P (s.cancelEntry e) := by
  have hdrop := h.drop s e.number hs
  unfold State.cancelEntry
  dsimp only
  split
  · exact h.orderEnd _ (h.modSeq _ _ hdrop)
  · have hend := h.orderEnd e.saw
      (h.modSeq ‹Carriage› (fun q => { q with cancelPending := true }) hdrop)
    unfold State.cancelNow
    split
    · exact h.actOnCancel _ (h.withdrawClaim _ hend)
    · exact h.actOnCancel _ hend
    · exact h.actOnCancel _ hend
    · exact hend
  · exact h.orderEnd _ hdrop

end Stable

namespace Kept

variable {P : State → Prop} (h : Kept P) {s : State}
include h

theorem modCell (f : CellMap → CellMap) (hf : ∀ m, m.ok = true → (f m).ok = true)
    (hp : ∀ m, (f m).places = m.places) (hs : P s) : P (s.modCell f) :=
  h.cell s _ (hf _) (hp _) hs

theorem modLink (f : HostLink → HostLink) (hf : ∀ l, l.ok = true → (f l).ok = true) (hs : P s) :
    P (s.modLink f) := h.link s _ (hf _) hs

theorem setZoneMap (starts : List Half) (hlen : starts.length = 16) (hs : P s) :
    P (s.doSetZoneMap starts).1 := by
  unfold State.doSetZoneMap
  split
  · exact hs
  · rename_i hgood
    split
    · exact h.modCell _ (fun _ => cellOk_of_badZoneMap hlen hgood) (fun _ => rfl) hs
    · exact hs

theorem setCurtain (k f l : Byte) (hs : P s) : P (s.doSetCurtain k f l).1 := by
  have put (i : Curtain) (r : Option ZoneRange) :
      P (s.modCell fun m => { m with curtains := m.curtains.set i.val r }) :=
    h.modCell _ (fun _ hm => hm) (fun _ => rfl) hs
  unfold State.doSetCurtain
  split
  · exact hs
  · exact hs
  · split
    · exact hs
    · exact put _ _
  · split
    · exact hs
    · exact put _ _

theorem setAccessGate (g f l : Byte) (hs : P s) : P (s.doSetAccessGate g f l).1 := by
  have put (i : Gate) (r : Option ZoneRange) :
      P (s.modCell fun m => { m with gates := m.gates.set i.val r }) :=
    h.modCell _ (fun _ hm => hm) (fun _ => rfl) hs
  unfold State.doSetAccessGate
  split
  · exact hs
  · exact hs
  · split
    · exact hs
    · exact put _ _
  · split
    · exact hs
    · exact put _ _

theorem setGripProfile (p lo hi fl : Byte) (hs : P s) : P (s.doSetGripProfile p lo hi fl).1 := by
  unfold State.doSetGripProfile
  split
  · exact hs
  · exact hs
  · rename_i k _ hvac
    have hhigh : hi.toNat ≤ 95 := badVacuum_none hvac hi (by simp)
    split
    · exact hs
    · split
      · exact hs
      · refine h.modCell _ (fun m hm => cellOk_setProfile ?_ hm) (fun _ => rfl) hs
        simp only [GripProfile.ok, Bool.and_eq_true, decide_eq_true_eq]
        omega

theorem judgeAll (hs : P s) : P s.judgeAll := Stable.foldl _ (fun _ w ht => h.judge w ht) _ _ hs

theorem setCellParameters (t d r : Byte) (hs : P s) : P (s.doSetCellParameters t d r).1 := by
  unfold State.doSetCellParameters
  split
  · exact hs
  · split
    · exact hs
    · split
      · exact hs
      · have hset := h.modCell (fun m => { m with
          tolerance := t.toNat, digLimit := d.toNat, trigger := r.toNat }) (fun m hm => by
            obtain ⟨h0, hup, hprof, -⟩ := (cellOk_iff m).1 hm
            exact (cellOk_iff _).2 ⟨h0, hup, hprof, by dsimp only; omega⟩) (fun _ => rfl) hs
        dsimp only
        refine h.judgeAll ?_
        split
        · exact h.requeueWhere _ hset
        · exact hset

theorem lowerPermit (w : Saw) (hs : P s) :
    P (s.modSaw w fun x => { x with permitHold := false }) :=
  h.saw _ _ _ (fun x k => by simpa [SawStation.ok] using k) hs

theorem loseTable (o n : PlaceDef) (hs : P s) : P (s.loseTable o n) := by
  unfold State.loseTable
  split
  · split
    · exact hs
    · exact h.infeedUndefined _ hs
  · split
    · exact hs
    · exact h.putReturn _ _ (h.lowerPermit _ hs)
  · exact hs

theorem gainTable (p : Place) (o n : PlaceDef) (hs : P s) : P (s.gainTable p o n) := by
  unfold State.gainTable
  split
  · split
    · exact hs
    · exact h.infeedDefined _ hs
  · split
    · exact hs
    · exact h.putReturn _ _ (h.lowerPermit _ hs)
  · exact hs

theorem redefine (p : Place) (d : PlaceDef) (hs : P s) : P (s.redefine p d) := by
  have hnew := h.gainTable p s.cell.places[p] d (h.place _ p d (h.loseTable s.cell.places[p] d hs))
  unfold State.redefine
  dsimp only
  split
  · exact hnew
  · exact h.contentChange _ hnew

theorem definePlace (p k : Byte) (x y b : Half) (n : Byte) (ht : Half) (w : Byte) (hs : P s) :
    P (s.doDefinePlace p k x y b n ht w).1 := by
  unfold State.doDefinePlace
  split
  · exact hs
  · exact hs
  · split
    · exact hs
    · extract_lets v
      split
      · exact hs
      · split
        · exact hs
        · exact h.redefine _ _ hs

theorem leaveFallback (w : Saw) (hs : P s) : P (s.leaveFallback w) := by
  unfold State.leaveFallback
  split
  · exact h.followReady _ hs
  · exact h.followReady _ hs
  · exact hs

theorem applySettings (w : Saw) {m n lk : Byte} {t l : Half} {x : SawSettings}
    (hx : readSettings m n t l lk = .inl x) (hs : P s) : P (s.applySettings w x) := by
  have hrange := readSettings_range hx
  unfold State.applySettings
  extract_lets s1 s2
  have h1 : P s1 := h.saw _ _ _ (fun y hy => by
    obtain ⟨hgo, -, -, -, -, -, hrest⟩ := (sawOk_iff y).1 hy
    exact (sawOk_iff _).2 ⟨hgo, hrange.1, hrange.2.1, hrange.2.2.1, hrange.2.2.2.1,
      hrange.2.2.2.2, hrest⟩) hs
  have h2 : P s2 := h.reloadBookTimer _ (h.leaveFallback _ h1)
  split
  · exact h.decideRelease _ h2
  · exact h2

theorem sawConfig (w m n : Byte) (t l : Half) (lk : Byte) (hs : P s) :
    P (s.doSawConfig w m n t l lk).1 := by
  unfold State.doSawConfig
  split
  · exact hs
  · exact hs
  · rename_i hx
    split
    · exact hs
    · split
      · exact hs
      · exact h.applySettings _ hx hs

theorem countLoaded (n : Nat) (hs : P s) :
    P (s.modCounters fun k => { k with loaded := countUp k.loaded n }) :=
  h.counters _ _ (fun k hk => (countersOk_iff _).2
    ⟨countUp_le _ _, ((countersOk_iff k).1 hk).2⟩) hs

theorem loadStack (p hold : Byte) (runs : List WireRun) (hs : P s) :
    P (s.doLoadStack p hold runs).1 := by
  unfold State.doLoadStack
  split
  · exact hs
  · exact hs
  · exact hs
  · dsimp only
    split
    · exact hs
    · split
      · exact hs
      · split
        · exact hs
        · exact h.setStack _ _ _ (h.countLoaded _ hs)

theorem addRuns (p : Byte) (runs : List WireRun) (hs : P s) : P (s.doAddRuns p runs).1 := by
  unfold State.doAddRuns
  split
  · exact hs
  · exact hs
  · dsimp only
    split
    · exact hs
    · split
      · exact hs
      · split
        · exact hs
        · split
          · exact hs
          · exact h.setStack _ _ _ (h.countLoaded _ hs)

theorem tellUnloaded (p : Place) (b : Bool) (hs : P s) : P (s.tellUnloaded p b) := by
  unfold State.tellUnloaded
  split
  · split
    · exact h.bookRemoved _ hs
    · exact hs
  · exact h.recoverReturn _ hs
  · exact hs

theorem unload (p : Place) (hs : P s) : P (s.unload p) := by
  unfold State.unload
  split
  · exact h.tellUnloaded _ _ hs
  · refine h.tellUnloaded _ _ (h.emptyStack _ (h.counters _ _ (fun k hk => ?_) hs))
    obtain ⟨h1, h2, h3, -, h5⟩ := (countersOk_iff k).1 hk
    exact (countersOk_iff _).2 ⟨h1, h2, h3, countUp_le _ _, h5⟩

theorem unloadPlace (p : Byte) (hs : P s) : P (s.doUnloadPlace p).1 := by
  unfold State.doUnloadPlace
  split
  · exact hs
  · split
    · exact hs
    · split
      · exact hs
      · split
        · exact hs
        · exact h.unload _ hs

theorem unlockPlace (p : Byte) (hs : P s) : P (s.doUnlockPlace p).1 := by
  unfold State.doUnlockPlace
  split
  · exact hs
  · split
    · exact hs
    · split
      · exact hs
      · split
        · exact hs
        · exact h.setStack _ _ _ hs

theorem order (n : Half) (w : Byte) (m t : Half) (k : Byte) (q : Half) (d : Byte) (hs : P s) :
    P (s.doOrder n w m t k q d).1 := by
  unfold State.doOrder
  split
  · exact hs
  · rename_i f hf
    obtain ⟨hnum, hlow, hhigh⟩ := readOrder_range hf
    split
    · exact hs
    · split
      · exact hs
      · rename_i hdup
        split
        · exact hs
        · rename_i hroom
          have hnew : ∀ e ∈ s.queue.entries, e.number ≠ f.number := by
            simpa [State.orderOf] using hdup
          exact h.requeueWhere _ (h.queue s _
            (queueOk_admit hnew (Nat.lt_of_not_le hroom) hnum hlow hhigh) hs)

theorem cancelOrder (n : Half) (hs : P s) : P (s.doCancelOrder n).1 := by
  unfold State.doCancelOrder
  split
  · exact hs
  · split
    · exact hs
    · exact h.cancelEntry _ hs

theorem flushOrders (hs : P s) : P s.doFlushOrders.1 :=
  Stable.foldl _ (fun _ _ ht => h.orderEnd _ (h.drop _ _ ht)) _ _ hs

theorem home (c : Byte) (hs : P s) : P (s.doHome c).1 := by
  unfold State.doHome
  split
  · exact hs
  · split
    · exact hs
    · split
      · exact hs
      · split
        · exact hs
        · split
          · exact hs
          · exact h.sendClear _ (h.modSeq _ _ (h.setCarState _ _ (h.giveUpZones _ hs)))

theorem hold (c : Byte) (hs : P s) : P (s.doHold c).1 := by
  unfold State.doHold
  split
  · exact hs
  · split
    · exact hs
    · split
      · exact hs
      · unfold State.holdNow
        dsimp only
        split
        · exact hs
        · split
          · exact hs
          · exact h.withdrawNext _ (h.modSeq _ _ hs)
        · exact h.enterHeld _ (h.withdrawClaim _ hs)
        · exact h.enterHeld _ hs

theorem takeUp (c : Carriage) (hs : P s) : P (s.takeUp c) := by
  have hclear := h.modSeq c (fun q => { q with latched := Latched.none }) hs
  unfold State.takeUp
  dsimp only
  split
  · exact h.actOnCancel _ hclear
  · exact h.proceed _ hclear

theorem release (c : Byte) (hs : P s) : P (s.doRelease c).1 := by
  unfold State.doRelease
  split
  · exact hs
  · split
    · exact hs
    · split
      · exact h.dueExam (h.takeUp _ hs)
      · split
        · exact h.seq _ _ hs
        · exact hs

theorem dispose (c : Carriage) (lost : Bool) (hs : P s) : P (s.dispose c lost) := by
  unfold State.dispose
  split
  · exact hs
  · split
    · refine h.counters _ _ (fun k hk => ?_) (h.modSeq _ _ hs)
      obtain ⟨h1, h2, h3, h4, -⟩ := (countersOk_iff k).1 hk
      exact (countersOk_iff _).2 ⟨h1, h2, h3, h4, countUp_le _ _⟩
    · exact h.modSeq _ _ hs

theorem resume (c d : Byte) (hs : P s) : P (s.doResume c d).1 := by
  unfold State.doResume
  split
  · exact hs
  · exact hs
  · split
    · exact hs
    · exact h.sendClear _ (h.modSeq _ _ (h.clear _ _ (h.dispose _ _ hs)))

theorem startSetDown (c : Carriage) (p : Place) (hs : P s) : P (s.startSetDown c p) := by
  have hbegin := h.beginWork c (setDownWork p) (h.setUser p (some c) hs)
  unfold State.startSetDown
  dsimp only
  split
  · exact h.act _ hbegin
  · exact hbegin

theorem setDown (c p : Byte) (hs : P s) : P (s.doSetDown c p).1 := by
  unfold State.doSetDown
  split
  · exact hs
  · exact hs
  · split
    · exact hs
    · split
      · exact hs
      · split
        · exact hs
        · split
          · exact hs
          · split
            · exact hs
            · split
              · split
                · exact h.startSetDown _ _ hs
                · exact hs
              · exact hs

theorem zoneClose (f l : Byte) (hs : P s) : P (s.doZoneClose f l).1 := by
  unfold State.doZoneClose
  split
  · exact hs
  · exact hs
  · split
    · exact hs
    · split
      · exact h.closeHost _ hs
      · exact h.dueExam (h.arb _ _ hs)

theorem zoneOpen (f l : Byte) (hs : P s) : P (s.doZoneOpen f l).1 := by
  unfold State.doZoneOpen
  split
  · exact hs
  · exact hs
  · refine h.dueExam ?_
    unfold State.withdrawHost
    split
    · split
      · exact h.arb _ _ (h.removeSource _ _ hs)
      · exact h.removeSource _ _ hs
    · exact h.removeSource _ _ hs

theorem queueFrame (f : Frame) (hroom : s.link.outbound.length < Config.maxFrames) (hs : P s) :
    P (s.queueFrame f) := by
  refine h.link _ _ (fun hl => ?_) hs
  obtain ⟨-, hrest⟩ := (linkOk_iff _).1 hl
  exact (linkOk_iff _).2 ⟨by simpa using hroom, hrest⟩

theorem sendReports (hs : P s) : P s.sendReports := by
  unfold State.sendReports
  generalize Config.maxFrames = n
  induction n generalizing s with
  | zero => exact hs
  | succ n ih =>
    unfold State.sendReportsN
    split
    · exact hs
    · rename_i hroom
      split
      · exact hs
      · exact ih (h.free _ _ (h.events _ _ (markSent_ok _ _) (h.queueFrame _ (by
          simp only [State.freeFrames] at hroom
          omega) hs)))

theorem reportsOn (hs : P s) : P s.doReportsOn.1 := by
  unfold State.doReportsOn
  split
  · exact hs
  · exact h.sendReports (h.events _ _ (fun hu => hu) hs)

theorem queryCarriage (c : Byte) (hs : P s) : P (s.doQueryCarriage c).1 := by
  unfold State.doQueryCarriage
  split
  · exact hs
  · exact h.free _ _ (h.clear _ _ hs)

theorem queryPlace (p : Byte) (hs : P s) : P (s.doQueryPlace p).1 := by
  unfold State.doQueryPlace
  split
  · exact hs
  · exact h.free _ _ (h.clear _ _ hs)

theorem querySaw (w : Byte) (hs : P s) : P (s.doQuerySaw w).1 := by
  unfold State.doQuerySaw
  split
  · exact hs
  · exact h.clear _ _ hs

theorem queryOrder (n : Half) (hs : P s) : P (s.doQueryOrder n).1 := by
  unfold State.doQueryOrder
  split
  · exact hs
  · split
    · exact hs
    · exact h.clear _ _ hs

theorem eventsList (n : Quad) (hs : P s) : P (s.doEventsList n).1 := by
  unfold State.doEventsList
  extract_lets all page s1 s2
  have h1 : P s1 := h.clear _ _ hs
  refine h.free _ _ ?_
  change P (if _ then _ else _)
  split
  · refine h.events _ _ (fun hu => ?_) h1
    obtain ⟨hlen, hnodup, hall, -⟩ := (eventsOk_iff _).1 hu
    exact (eventsOk_iff _).2 ⟨hlen, hnodup, hall, Nat.zero_le _⟩
  · exact h1

theorem resetCarriage (c : Carriage) (hs : P s) : P (s.resetCarriage c) := by
  unfold State.resetCarriage
  refine h.releaseUnlessStopping _ (h.modSeq _ _ ?_)
  split
  · exact h.stopHoming _ hs
  · exact h.sendStop _ hs
  · exact hs
  · exact hs
  · exact hs
  · exact h.setCarState _ _ hs

theorem resetQueue (hs : P s) : P s.resetQueue := by
  unfold State.resetQueue State.judgeByPlace
  refine Stable.foldl _ (fun t p ht => ?_) _ _ (h.queue _ _ (fun _ => ?_) hs)
  · split
    · exact h.judge _ ht
    · exact ht
  · simp [OrderQueue.ok]

theorem resetArbiter (c : Carriage) (hs : P s) : P (s.resetArbiter c) := by
  unfold State.resetArbiter
  split
  · exact hs
  · exact h.modRec _ _ hs

theorem askIfIdle (c : Carriage) (hs : P s) : P (s.askIfIdle c) := by
  unfold State.askIfIdle
  split
  · exact h.modSeq _ _ hs
  · exact hs

theorem cellReset (hs : P s) : P s.doCellReset.1 := by
  unfold State.doCellReset
  extract_lets s1 s2
  have h1 : P s1 := h.resetCarriage _ (h.resetCarriage _ hs)
  have hclaims : P s1.resetQueue.resetClaims :=
    h.dueExam (h.resetArbiter _ (h.resetArbiter _ (h.arb _ _ (h.resetQueue h1))))
  have h2 : P s2 := h.events _ _ (fun _ => by simp [EventUnit.ok]) hclaims
  exact h.modLink _ (fun _ => dropBehind_ok) (h.askIfIdle _ (h.askIfIdle _ h2))

/-- Whatever owner takes a request, the property is kept. -/
theorem handle (r : Request) (hr : ∀ starts, r = .setZoneMap starts → starts.length = 16)
    (hs : P s) : P (s.handle r).1 := by
  cases r with
  | partStatus => exact h.clear _ _ hs
  | setZoneMap starts => exact h.setZoneMap _ (hr _ rfl) hs
  | setCurtain k f l => exact h.setCurtain _ _ _ hs
  | setAccessGate g f l => exact h.setAccessGate _ _ _ hs
  | setGripProfile p lo hi fl => exact h.setGripProfile _ _ _ _ hs
  | setCellParameters t d r => exact h.setCellParameters _ _ _ hs
  | definePlace p k x y b n ht w => exact h.definePlace _ _ _ _ _ _ _ _ hs
  | sawConfig w m n t l k => exact h.sawConfig _ _ _ _ _ _ hs
  | loadStack p hold runs => exact h.loadStack _ _ _ hs
  | addRuns p runs => exact h.addRuns _ _ hs
  | unloadPlace p => exact h.unloadPlace _ hs
  | unlockPlace p => exact h.unlockPlace _ hs
  | order n w m t c q d => exact h.order _ _ _ _ _ _ _ hs
  | cancelOrder n => exact h.cancelOrder _ hs
  | flushOrders => exact h.flushOrders hs
  | home c => exact h.home _ hs
  | hold c => exact h.hold _ hs
  | release c => exact h.release _ hs
  | resume c d => exact h.resume _ _ hs
  | setDown c p => exact h.setDown _ _ hs
  | zoneClose f l => exact h.zoneClose _ _ hs
  | zoneOpen f l => exact h.zoneOpen _ _ hs
  | reportsOff => exact h.events _ _ (fun hu => hu) hs
  | reportsOn => exact h.reportsOn hs
  | queryCarriage c => exact h.queryCarriage _ hs
  | queryPlace p => exact h.queryPlace _ hs
  | querySaw w => exact h.querySaw _ hs
  | queryOrder n => exact h.queryOrder _ hs
  | queryZones => exact hs
  | queryEventsSummary => exact h.free _ _ hs
  | queryEventsList n => exact h.eventsList _ hs
  | cellReset => exact h.cellReset hs

end Kept

/-- A SET ZONE MAP that has been read has 16 starts (R182). -/
theorem parseRequest_starts {kind : Byte} {body : List Byte} {r : Request}
    (h : parseRequest kind body = .request r) (starts : List Half) (hr : r = .setZoneMap starts) :
    starts.length = 16 := by
  subst hr
  unfold parseRequest at h
  split at h
  case h_2 =>
    rw [parseZoneMap] at h
    split at h
    · cases h
      exact length_readHalves 16 _ ‹_›
    · cases h
  case h_32 => cases h
  all_goals
    simp only [parse0, parse1, parse2, parse3, parse4, parseHalf, parseDefinePlace, parseSawConfig,
      parseLoadStack, parseAddRuns, parseOrder, parseQueryEvents, Parsed.badLength] at h
    repeat' split at h
    all_goals cases h

end Sys2Proof.Machine
end

section
/-! The receiver, the taking of requests and the commands keep every such property; the invariant of the
records (O59, O60) and the frame of the waiting commands (O2) are two of them. -/

namespace Sys2Proof.Machine

theorem countError_le (n : Nat) : countError n ≤ Config.maxLinkCount := Nat.min_le_right _ _

/-- The outbound queue has room for one frame more. -/
def HostLink.hasRoom (l : HostLink) : Prop := l.outbound.length < Config.maxFrames

theorem hasRoom_stable : Stable fun s => s.link.hasRoom :=
  Stable.ofLink _ fun l f hf _ => by
    simp only [HostLink.hasRoom, List.length_append, List.length_singleton]
    omega

/-- Whatever a waiting request leads to, the frame that was free for its reply stays free (R183). -/
theorem serve_hasRoom {s : State} (r : WaitingRequest) (hs : s.link.hasRoom) :
    (s.serve r).1.link.hasRoom := by
  unfold State.serve
  split
  · exact hs
  · split
    · exact hs
    · refine hasRoom_stable.settle (handle_link HostLink.hasRoom (fun l f hf _ => ?_) ?_ _ _ hs)
      · simp only [HostLink.hasRoom, List.length_append, List.length_singleton]
        omega
      · intro l hl
        unfold HostLink.dropBehind
        split <;> exact hl

namespace Kept

variable {P : State → Prop} (h : Kept P) {s : State}
include h

/-! ### Taking requests -/

theorem serve (r : WaitingRequest) (hs : P s) : P (s.serve r).1 := by
  unfold State.serve
  split
  · exact hs
  · split
    · exact hs
    · rename_i hq
      exact h.settle (h.handle _ (parseRequest_starts hq) hs)

theorem takeHead (r : WaitingRequest) (hroom : s.link.hasRoom) (hs : P s) : P (s.takeHead r) := by
  refine h.modLink _ (fun l hl => ?_) (h.queueFrame _ (serve_hasRoom r hroom) (h.serve r hs))
  obtain ⟨hout, hwait, hrest⟩ := (linkOk_iff _).1 hl
  refine (linkOk_iff _).2 ⟨hout, ?_, hrest⟩
  simp only [HostLink.popWaiting, List.length_tail]
  omega

theorem takeRequests (hs : P s) : P s.takeRequests := by
  unfold State.takeRequests
  generalize Config.maxWaiting = n
  induction n generalizing s with
  | zero => exact hs
  | succ n ih =>
    unfold State.takeRequestsN
    split
    · exact hs
    · rename_i hfree
      split
      · exact hs
      · refine ih (h.takeHead _ ?_ hs)
        simp only [State.freeFrames] at hfree
        unfold HostLink.hasRoom
        omega

/-! ### Owed refusals -/

theorem oweBad (kind : Byte) (hs : P s) : P (s.oweBad kind) := by
  unfold State.oweBad
  split
  · rename_i hroom
    simp only [State.freeFrames] at hroom
    exact h.queueFrame _ (by omega) hs
  · refine h.modLink _ (fun l hl => ?_) hs
    obtain ⟨hout, hwait, -, hrest⟩ := (linkOk_iff _).1 hl
    exact (linkOk_iff _).2 ⟨hout, hwait, Nat.min_le_right _ _, hrest⟩

theorem oweBusy (kind : Byte) (hs : P s) : P (s.oweBusy kind) := by
  unfold State.oweBusy
  split
  · rename_i hroom
    simp only [State.freeFrames] at hroom
    exact h.queueFrame _ (by omega) hs
  · refine h.modLink _ (fun l hl => ?_) hs
    obtain ⟨hout, hwait, hbad, -, hrest⟩ := (linkOk_iff _).1 hl
    exact (linkOk_iff _).2 ⟨hout, hwait, hbad, Nat.min_le_right _ _, hrest⟩

theorem serveBad (hs : P s) : P s.serveBad := by
  unfold State.serveBad
  split
  · rename_i hroom
    simp only [State.freeFrames] at hroom
    refine h.modLink _ (fun l hl => ?_) (h.queueFrame _ (by omega) hs)
    obtain ⟨hout, hwait, -, hrest⟩ := (linkOk_iff _).1 hl
    exact (linkOk_iff _).2 ⟨hout, hwait, Nat.zero_le _, hrest⟩
  · exact hs

theorem serveBusy (hs : P s) : P s.serveBusy := by
  unfold State.serveBusy
  split
  · rename_i hroom
    simp only [State.freeFrames] at hroom
    refine h.modLink _ (fun l hl => ?_) (h.queueFrame _ (by omega) hs)
    obtain ⟨hout, hwait, hbad, -, hrest⟩ := (linkOk_iff _).1 hl
    exact (linkOk_iff _).2 ⟨hout, hwait, hbad, Nat.zero_le _, hrest⟩
  · exact hs

/-! ### The receiver -/

theorem badCheck (kind : Byte) (hs : P s) : P (s.badCheck kind) := by
  refine h.oweBad _ (h.modLink _ (fun l hl => ?_) hs)
  obtain ⟨hout, hwait, hbad, hbusy, hframing, htimeouts, -, hrest⟩ := (linkOk_iff _).1 hl
  exact (linkOk_iff _).2 ⟨hout, hwait, hbad, hbusy, hframing, htimeouts, countError_le _, hrest⟩

theorem goodFrame (kind : Byte) (body : List Byte) (hs : P s) : P (s.goodFrame kind body) := by
  unfold State.goodFrame
  split
  · rename_i hroom
    refine h.takeRequests (h.link _ _ (fun hl => ?_) hs)
    obtain ⟨hout, -, hrest⟩ := (linkOk_iff _).1 hl
    exact (linkOk_iff _).2 ⟨hout, by simpa using hroom, hrest⟩
  · refine h.raise _ _ _ _ rfl (h.oweBusy _ (h.modLink _ (fun l hl => ?_) hs))
    obtain ⟨hout, hwait, hbad, hbusy, hframing, htimeouts, hchecks, -⟩ := (linkOk_iff _).1 hl
    exact (linkOk_iff _).2
      ⟨hout, hwait, hbad, hbusy, hframing, htimeouts, hchecks, countError_le _⟩

theorem setReceiver (r : Receiver) (gap : Timer) (hs : P s) : P (s.setReceiver r gap) :=
  h.modLink _ (fun _ hl => hl) hs

theorem receiveByte (b : Byte) (hs : P s) : P (s.receiveByte b) := by
  have hgo (r : Receiver) : P (s.setReceiver r (Timer.start Config.gapMs)) := h.setReceiver _ _ hs
  have hdone : P (s.setReceiver .hunt s.link.gap.halt) := h.setReceiver _ _ hs
  unfold State.receiveByte
  dsimp only
  split
  · split
    · exact hgo _
    · exact hs
  · split
    · exact hgo _
    · refine h.modLink _ (fun l hl => ?_) hdone
      obtain ⟨hout, hwait, hbad, hbusy, -, hrest⟩ := (linkOk_iff _).1 hl
      exact (linkOk_iff _).2 ⟨hout, hwait, hbad, hbusy, countError_le _, hrest⟩
  · split
    · exact hgo _
    · exact hgo _
  · split
    · exact hgo _
    · exact hgo _
  · exact hgo _
  · split
    · exact h.goodFrame _ _ hdone
    · exact h.badCheck _ hdone

theorem gapExpired (hs : P s) : P s.gapExpired := by
  unfold State.gapExpired
  split
  · exact hs
  · refine h.modLink _ (fun l hl => ?_) (h.setReceiver _ _ hs)
    obtain ⟨hout, hwait, hbad, hbusy, hframing, -, hrest⟩ := (linkOk_iff _).1 hl
    exact (linkOk_iff _).2 ⟨hout, hwait, hbad, hbusy, hframing, countError_le _, hrest⟩

theorem freeFrame (hs : P s) : P s.freeFrame := by
  unfold State.freeFrame
  split
  · exact hs
  · rename_i f rest hout
    refine h.sendReports (h.takeRequests (h.serveBusy (h.serveBad (h.link _ _ (fun hl => ?_) hs))))
    obtain ⟨hlen, hrest⟩ := (linkOk_iff _).1 hl
    refine (linkOk_iff _).2 ⟨?_, hrest⟩
    rw [hout, List.length_cons] at hlen
    dsimp only
    omega

theorem answerDropped (hs : P s) : P s.answerDropped := by
  unfold State.answerDropped
  split
  · split
    · exact h.takeRequests hs
    · exact hs
  · exact hs

theorem requestArrives (r : Request) (hs : P s) : P (s.requestArrives r) := h.goodFrame _ _ hs

/-! ### Lines -/

theorem curtainUp (k : Curtain) (hs : P s) : P (s.curtainUp k) := by
  unfold State.curtainUp
  split
  · exact hs
  · exact h.breach _ (h.lines _ _ hs)

theorem curtainDown (k : Curtain) (hs : P s) : P (s.curtainDown k) := by
  unfold State.curtainDown
  split
  · exact h.dueExam (h.clear _ _ (h.removeSource _ _ (h.lines _ _ hs)))
  · exact hs

theorem accessUp (g : Gate) (hs : P s) : P (s.accessUp g) := by
  unfold State.accessUp
  split
  · exact hs
  · exact h.requestAccess _ (h.lines _ _ hs)

theorem accessDown (g : Gate) (hs : P s) : P (s.accessDown g) := by
  unfold State.accessDown
  split
  · exact h.dueExam (h.removeSource _ _ (h.modGate _ _ (h.lines _ _ hs)))
  · exact hs

theorem eStopUp (hs : P s) : P s.eStopUp := by
  unfold State.eStopUp
  split
  · exact hs
  · exact h.eStopOn (h.lines _ _ hs)

theorem eStopDown (hs : P s) : P s.eStopDown := by
  unfold State.eStopDown
  split
  · exact h.dueExam (h.clear _ _ (h.enable _ (h.enable _ (h.lines _ _ hs))))
  · exact hs

theorem retakeCurtain (k : Curtain) (hs : P s) : P (s.retakeCurtain k) := by
  unfold State.retakeCurtain
  split
  · exact h.breach _ hs
  · exact hs

theorem retakeAccess (g : Gate) (hs : P s) : P (s.retakeAccess g) := by
  unfold State.retakeAccess
  split
  · exact h.requestAccess _ hs
  · exact hs

/-- A power-on keeps the property where the power-on values have it. -/
theorem powerOn
    (h0 : P { State.reset with pending := s.pending, lines := s.lines, free := s.free }) :
    P s.powerOn := by
  unfold State.powerOn
  extract_lets values s1 s2 s3
  have h2 : P s2 :=
    Stable.foldl State.retakeCurtain (fun _ k ht => h.retakeCurtain k ht) (List.finRange 4) s1 h0
  clear_value s2
  have h3 : P s3 :=
    Stable.foldl State.retakeAccess (fun _ g ht => h.retakeAccess g ht) (List.finRange 2) s2 h2
  clear_value s3
  split
  · exact h.eStopOn h3
  · exact h3

/-! ### The commands -/

/-- Every command has a next state, and it keeps the property. -/
theorem exec (c : Instr)
    (h0 : P { State.reset with pending := s.pending, lines := s.lines, free := s.free })
    (hs : P s) : ∃ t, Machine.exec c s = .next t ∧ P t := by
  have request (r : Request) : ∃ t, Machine.exec r.command s = .next t ∧ P t :=
    ⟨_, exec_command r s, h.requestArrives r hs⟩
  have pos (d : Carriage) (p : Pos) : P (s.recordPos d p) := h.recordPos _ _ hs
  cases c with
  | powerOn => exact ⟨_, rfl, h.settle (h.powerOn h0)⟩
  | frameComplete b => exact ⟨_, rfl, h.receiveByte _ hs⟩
  | framingError b => exact ⟨_, rfl, h.receiveByte _ hs⟩
  | frameTimeout => exact ⟨_, rfl, h.gapExpired hs⟩
  | frameFreed => exact ⟨_, rfl, h.freeFrame hs⟩
  | unknownKind k body => exact ⟨_, rfl, h.goodFrame _ _ hs⟩
  | droppedRequest => exact ⟨_, rfl, h.answerDropped hs⟩
  | partStatus => exact request .partStatus
  | setZoneMap starts => exact request (.setZoneMap starts)
  | setCurtain k f l => exact request (.setCurtain k f l)
  | setAccessGate g f l => exact request (.setAccessGate g f l)
  | setGripProfile p lo hi fl => exact request (.setGripProfile p lo hi fl)
  | setCellParameters t d r => exact request (.setCellParameters t d r)
  | definePlace p k x y b n ht w => exact request (.definePlace p k x y b n ht w)
  | sawConfig w m n t l k => exact request (.sawConfig w m n t l k)
  | loadStack p hold runs => exact request (.loadStack p hold runs)
  | addRuns p runs => exact request (.addRuns p runs)
  | unloadPlace p => exact request (.unloadPlace p)
  | unlockPlace p => exact request (.unlockPlace p)
  | order n w m t c q d => exact request (.order n w m t c q d)
  | cancelOrder n => exact request (.cancelOrder n)
  | flushOrders => exact request .flushOrders
  | home c => exact request (.home c)
  | hold c => exact request (.hold c)
  | release c => exact request (.release c)
  | resume c d => exact request (.resume c d)
  | setDown c p => exact request (.setDown c p)
  | zoneClose f l => exact request (.zoneClose f l)
  | zoneOpen f l => exact request (.zoneOpen f l)
  | reportsOff => exact request .reportsOff
  | reportsOn => exact request .reportsOn
  | queryCarriage c => exact request (.queryCarriage c)
  | queryPlace p => exact request (.queryPlace p)
  | querySaw w => exact request (.querySaw w)
  | queryOrder n => exact request (.queryOrder n)
  | queryZones => exact request .queryZones
  | queryEventsSummary => exact request .queryEventsSummary
  | queryEventsList n => exact request (.queryEventsList n)
  | cellReset => exact request .cellReset
  | readyReport c p => exact ⟨_, rfl, h.settle (h.takeReady _ (pos c p))⟩
  | contact c p n => exact ⟨_, rfl, h.settle (h.takeContact _ _ (pos c p))⟩
  | gripReading c p n => exact ⟨_, rfl, h.settle (h.takeGrip _ _ (pos c p))⟩
  | liftDone c p k => exact ⟨_, rfl, h.settle (h.takeLift _ _ (pos c p))⟩
  | releaseDone c p => exact ⟨_, rfl, h.settle (h.takeRelease _ (pos c p))⟩
  | stepDone c p k => exact ⟨_, rfl, h.settle (h.takeStepDone _ _ _ (pos c p))⟩
  | homeDone c p => exact ⟨_, rfl, h.settle (h.takeHomeDone _ _ (pos c p))⟩
  | stopped c p => exact ⟨_, rfl, h.settle (h.takeStopped _ _ (pos c p))⟩
  | vacuumLow c p n => exact ⟨_, rfl, h.settle (h.takeVacuumLow _ _ (pos c p))⟩
  | driveFault c p n => exact ⟨_, rfl, h.settle (h.takeDriveFault _ _ (pos c p))⟩
  | sawStatusRecord w r => exact ⟨_, rfl, h.settle (h.takeStatus _ _ hs)⟩
  | remnantRecord w m t z =>
    change ∃ u, execRemnantRecord w m t z s = .next u ∧ P u
    unfold execRemnantRecord
    split
    · exact ⟨_, rfl, h.settle (h.takeRemnant _ _ _ _ (h.linkHeard _ hs))⟩
    · exact ⟨_, rfl, hs⟩
  | sawLinkSilence w => exact ⟨_, rfl, h.settle (h.linkSilent _ hs)⟩
  | bookTimerExpiry w => exact ⟨_, rfl, h.settle (h.bookTimerExpired _ hs)⟩
  | waitTimerExpiry c => exact ⟨_, rfl, h.settle (h.waitTimerExpired _ hs)⟩
  | readyAsserted w => exact ⟨_, rfl, h.settle (h.readyUp _ hs)⟩
  | readyDeasserted w => exact ⟨_, rfl, h.settle (h.readyDown _ hs)⟩
  | cutDone w => exact ⟨_, rfl, h.settle (h.cutDoneUp _ hs)⟩
  | cutDoneDeasserted w =>
    exact ⟨_, rfl, h.saw _ _ _ (fun x k => by simpa [SawStation.ok] using k) hs⟩
  | curtainAsserted k => exact ⟨_, rfl, h.settle (h.curtainUp _ hs)⟩
  | curtainDeasserted k => exact ⟨_, rfl, h.settle (h.curtainDown _ hs)⟩
  | accessRequestAsserted g => exact ⟨_, rfl, h.settle (h.accessUp _ hs)⟩
  | accessRequestDeasserted g => exact ⟨_, rfl, h.settle (h.accessDown _ hs)⟩
  | eStopAsserted => exact ⟨_, rfl, h.settle (h.eStopUp hs)⟩
  | eStopReleased => exact ⟨_, rfl, h.settle (h.eStopDown hs)⟩
  | workRequest c =>
    change ∃ u, execWorkRequest c s = .next u ∧ P u
    unfold execWorkRequest
    split
    · exact ⟨_, rfl, h.settle (h.askForWork _ hs)⟩
    · exact ⟨_, rfl, h.dropAsk _ hs⟩
  | byteReceived b => exact ⟨_, rfl, h.receiveByte _ hs⟩

end Kept

/-! ### The waiting commands -/

/-- The queue of commands is not the part's to change. -/
theorem kept_pending (l : List Instr) : Kept fun s => s.pending = l where
  toStable := Stable.outside fun q _ _ => q = l
  link _ _ _ hs := hs
  cell _ _ _ _ hs := hs
  place _ _ _ hs := hs
  lines _ _ hs := hs
  queue _ _ _ hs := hs
  events _ _ _ hs := hs

/-- Settles O2: no meaning stops, and the queue of commands is left as it is. -/
theorem everyCommandCompletes : Obligations.EveryCommandCompletes := fun c s =>
  (kept_pending s.pending).exec c rfl rfl

/-! ### The invariant -/

/-- A frame sent while two are free keeps the laws of the link. -/
theorem stable_linkOk : Stable fun s => s.link.ok = true :=
  Stable.ofLink (·.ok = true) fun l f hf hl => by
    obtain ⟨-, hrest⟩ := (linkOk_iff _).1 hl
    refine (linkOk_iff _).2 ⟨?_, hrest⟩
    simp only [List.length_append, List.length_singleton]
    omega

/-- A place defined together with its stack record keeps the records and the kinds in step (R7, R16). -/
theorem recordsOk_define {m : CellMap} {v : Vector (Option StackRec) 32} (p : Place) (d : PlaceDef)
    (h : recordsOk m v = true) :
    recordsOk { m with places := m.places.set p.val d }
      (v.set p.val (if d.kind = .unused then none else some ⟨.empty, none, []⟩)) = true := by
  rw [Stable.recordsOk_iff] at h ⊢
  intro q
  simp only [Fin.getElem_fin, Vector.getElem_set]
  split
  · by_cases hd : d.kind = .unused <;> simp [hd]
  · exact h q

theorem kept_inv : Kept Inv where
  toStable := stable_linkOk.and (Stable.eventsOk.and (Stable.queueOk.and (Stable.countersOk.and
    (Stable.sawsOk.and ((Stable.outside fun _ m _ => m.ok = true).and Stable.recordsOk)))))
  link _ _ hl hs := ⟨hl hs.1, hs.2⟩
  cell s m hm hp := fun ⟨h1, h2, h3, h4, h5, h6, h7⟩ => by
    refine ⟨h1, h2, h3, h4, h5, hm h6, ?_⟩
    simpa only [recordsOk, hp] using h7
  place s p d := fun ⟨h1, h2, h3, h4, h5, h6, h7⟩ => ⟨h1, h2, h3, h4, h5, h6, recordsOk_define p d h7⟩
  lines _ _ hs := hs
  queue _ _ hq := fun ⟨h1, h2, h3, hrest⟩ => ⟨h1, h2, hq h3, hrest⟩
  events _ _ hu := fun ⟨h1, h2, hrest⟩ => ⟨h1, hu h2, hrest⟩

/-- Settles O60: block by block, the power-on values are in order. -/
theorem resetHasInvariant : Obligations.ResetHasInvariant := by
  refine ⟨?link, ?events, ?queue, ?counters, ?saws, ?cell, ?records⟩
  case records => exact (Stable.recordsOk_iff _ _).2 fun p => by simp [State.reset, CellMap.reset, PlaceDef.reset]
  case saws => exact (Stable.sawsOk_iff _).2 fun w => by simp [State.reset]; decide
  case cell => decide
  all_goals decide

/-- One millisecond changes no record that the invariant speaks of but the timers. -/
theorem tick_inv {s : State} (h : Inv s) : Inv s.tick := by
  obtain ⟨hlink, hevents, hqueue, hcounters, hsaws, hrest⟩ := h
  refine ⟨hlink, hevents, hqueue, hcounters, (Stable.sawsOk_iff _).2 fun w => ?_, hrest⟩
  simpa [State.tick, SawStation.ok] using (Stable.sawsOk_iff _).1 hsaws w

/-- Settles O59: the invariant is a property that every command keeps, and time only runs timers down. -/
theorem stepKeepsInvariant : Obligations.StepKeepsInvariant := by
  intro s t hs hstep
  unfold step at hstep
  split at hstep
  · cases hstep
    exact tick_inv hs
  · rename_i c rest _
    obtain ⟨u, hu, hinv⟩ := kept_inv.exec (s := { s with pending := rest }) c resetHasInvariant hs
    rw [hu] at hstep
    cases hstep
    exact hinv

end Sys2Proof.Machine
end

section
/-! The bodies of requests read back (O8), and the receiver: what each byte does in each of its states
(O3, O4), and what becomes of a frame that is complete (O5, O6, O7). -/

namespace Sys2Proof.Machine

/-! ### The step -/

theorem oneMs_eq_tick (x : Timer) : oneMs x = x.tick := by
  obtain ⟨running, ms⟩ := x
  cases running <;> rfl

/-- Settles O1: a step runs the front command; on an empty queue it is one tick of every timer. -/
theorem stepRunsFrontCommand : Obligations.StepRunsFrontCommand := by
  refine ⟨fun _ _ => rfl, fun s hempty => ?_⟩
  simp only [step, hempty, State.tick, oneMs_eq_tick]

/-! ### Bodies -/

theorem quad_quadBytes (q : Quad) :
    quad (q.setWidth 8) ((q >>> 8).setWidth 8) ((q >>> 16).setWidth 8) ((q >>> 24).setWidth 8)
      = q := by
  refine BitVec.eq_of_getLsbD_eq fun i hi => ?_
  have hcase : i < 8 ∨ (8 ≤ i ∧ i < 16) ∨ (16 ≤ i ∧ i < 24) ∨ 24 ≤ i := by omega
  simp only [quad, BitVec.getLsbD_append, BitVec.getLsbD_setWidth, BitVec.getLsbD_ushiftRight]
  rcases hcase with h | ⟨h, h'⟩ | ⟨h, h'⟩ | h
  · simp [h]
  · simp [show ¬i < 8 by omega, show i - 8 < 8 by omega, show 8 + (i - 8) = i by omega]
  · simp [show ¬i < 8 by omega, show ¬i - 8 < 8 by omega, show i - 8 - 8 < 8 by omega,
      show 16 + (i - 8 - 8) = i by omega]
  · simp [show ¬i < 8 by omega, show ¬i - 8 < 8 by omega, show ¬i - 8 - 8 < 8 by omega,
      show i - 8 - 8 - 8 < 8 by omega, show 24 + (i - 8 - 8 - 8) = i by omega]

theorem readRuns_flatMap (runs : List WireRun) : readRuns (runs.flatMap wireRunBytes) = runs := by
  induction runs with
  | nil => rfl
  | cons r rest ih =>
    have hhead : (⟨half (r.material.setWidth 8) ((r.material >>> 8).setWidth 8),
        half (r.thickness.setWidth 8) ((r.thickness >>> 8).setWidth 8), r.profile, r.size,
        r.count⟩ : WireRun) = r := by
      rw [half_halfBytes, half_halfBytes]
    exact congrArg₂ List.cons hhead ih

theorem length_flatMap_wireRunBytes (runs : List WireRun) :
    (runs.flatMap wireRunBytes).length = 7 * runs.length := by
  induction runs with
  | nil => rfl
  | cons r rest ih =>
    rw [List.flatMap_cons, List.length_append, ih, List.length_cons]
    simp only [wireRunBytes, halfBytes, List.length_append, List.length_cons, List.length_nil]
    omega

theorem byte_toNat {n : Nat} (h : n < 256) : (byte n).toNat = n := by
  simp [byte, Nat.mod_eq_of_lt h]

section
variable {runs : List WireRun} (hlow : 1 ≤ runs.length) (hhigh : runs.length ≤ 8)
include hlow hhigh

theorem runCountOk_length : runCountOk (byte runs.length) = true := by
  simp [runCountOk, byte_toNat (show runs.length < 256 by omega), hlow, hhigh]

theorem parseRequest_loadStack (p hold : Byte) :
    parseRequest (Request.kind (.loadStack p hold runs)) (Request.body (.loadStack p hold runs))
      = .request (.loadStack p hold runs) := by
  change parseLoadStack (p :: hold :: byte runs.length :: runs.flatMap wireRunBytes) = _
  have hbytes : (runs.flatMap wireRunBytes).length = 7 * (byte runs.length).toNat := by
    rw [length_flatMap_wireRunBytes, byte_toNat (by omega)]
  simp only [parseLoadStack, runCountOk_length hlow hhigh, hbytes, readRuns_flatMap, Bool.not_true,
    Bool.false_eq_true, if_false, if_true]

theorem parseRequest_addRuns (p : Byte) :
    parseRequest (Request.kind (.addRuns p runs)) (Request.body (.addRuns p runs))
      = .request (.addRuns p runs) := by
  change parseAddRuns (p :: byte runs.length :: runs.flatMap wireRunBytes) = _
  have hbytes : (runs.flatMap wireRunBytes).length = 7 * (byte runs.length).toNat := by
    rw [length_flatMap_wireRunBytes, byte_toNat (by omega)]
  simp only [parseAddRuns, runCountOk_length hlow hhigh, hbytes, readRuns_flatMap, Bool.not_true,
    Bool.false_eq_true, if_false, if_true]

end

theorem parseRequest_definePlace (p k : Byte) (x y b : Half) (n : Byte) (h : Half) (w : Byte) :
    parseRequest (Request.kind (.definePlace p k x y b n h w))
      (Request.body (.definePlace p k x y b n h w)) = .request (.definePlace p k x y b n h w) := by
  change Parsed.request (.definePlace p k (half _ _) (half _ _) (half _ _) n (half _ _) w) = _
  simp only [half_halfBytes]

theorem parseRequest_sawConfig (w m n : Byte) (t l : Half) (k : Byte) :
    parseRequest (Request.kind (.sawConfig w m n t l k))
      (Request.body (.sawConfig w m n t l k)) = .request (.sawConfig w m n t l k) := by
  change Parsed.request (.sawConfig w m n (half _ _) (half _ _) k) = _
  simp only [half_halfBytes]

theorem parseRequest_order (n : Half) (w : Byte) (m t : Half) (c : Byte) (q : Half) (d : Byte) :
    parseRequest (Request.kind (.order n w m t c q d))
      (Request.body (.order n w m t c q d)) = .request (.order n w m t c q d) := by
  change Parsed.request (.order (half _ _) w (half _ _) (half _ _) c (half _ _) d) = _
  simp only [half_halfBytes]

theorem parseRequest_cancelOrder (n : Half) :
    parseRequest (Request.kind (.cancelOrder n)) (Request.body (.cancelOrder n))
      = .request (.cancelOrder n) := by
  change Parsed.request (.cancelOrder (half _ _)) = _
  simp only [half_halfBytes]

theorem parseRequest_queryOrder (n : Half) :
    parseRequest (Request.kind (.queryOrder n)) (Request.body (.queryOrder n))
      = .request (.queryOrder n) := by
  change Parsed.request (.queryOrder (half _ _)) = _
  simp only [half_halfBytes]

theorem parseRequest_queryEventsList (n : Quad) :
    parseRequest (Request.kind (.queryEventsList n)) (Request.body (.queryEventsList n))
      = .request (.queryEventsList n) := by
  change Parsed.request (.queryEventsList (quad _ _ _ _)) = _
  simp only [quad_quadBytes]

/-- Settles O8: the fields of one byte read back as they stand; the others by the lemmas above. -/
theorem bodyReadsBack : Obligations.BodyReadsBack := by
  intro r hr
  cases r with
  | setZoneMap starts => exact parseRequest_setZoneMap (by simpa [Request.sendable] using hr)
  | loadStack p hold runs =>
    obtain ⟨hlow, hhigh⟩ : 1 ≤ runs.length ∧ runs.length ≤ 8 := by
      simpa [Request.sendable] using hr
    exact parseRequest_loadStack hlow hhigh p hold
  | addRuns p runs =>
    obtain ⟨hlow, hhigh⟩ : 1 ≤ runs.length ∧ runs.length ≤ 8 := by
      simpa [Request.sendable] using hr
    exact parseRequest_addRuns hlow hhigh p
  | definePlace p k x y b n h w => exact parseRequest_definePlace p k x y b n h w
  | sawConfig w m n t l k => exact parseRequest_sawConfig w m n t l k
  | order n w m t c q d => exact parseRequest_order n w m t c q d
  | cancelOrder n => exact parseRequest_cancelOrder n
  | queryOrder n => exact parseRequest_queryOrder n
  | queryEventsList n => exact parseRequest_queryEventsList n
  | _ => rfl

/-! ### The receiver's table -/

/-- A byte that the receiver takes on the way through a frame: the gap timer starts anew (R179). -/
def State.advanceTo (s : State) (r : Receiver) : State := s.setReceiver r (Timer.start Config.gapMs)

/-- The receiver back in HUNT with the gap timer stopped (R178). -/
def State.huntAgain (s : State) : State := s.setReceiver .hunt s.link.gap.halt

section
variable {s : State} {b : Byte}

theorem receiveByte_hunt (h : s.link.rx = .hunt) :
    s.receiveByte b = if b = 0xC3 then s.advanceTo .length else s := by
  simp only [State.receiveByte, h, State.advanceTo]

theorem receiveByte_length (h : s.link.rx = .length) :
    s.receiveByte b = if b.toNat ≤ 240 then s.advanceTo (.kind b)
      else s.huntAgain.modLink fun l => { l with framingErrors := countError l.framingErrors } := by
  simp only [State.receiveByte, h, State.advanceTo, State.huntAgain]

theorem receiveByte_kind {n : Byte} (h : s.link.rx = .kind n) :
    s.receiveByte b
      = if n = 0 then s.advanceTo (.check n b [] none) else s.advanceTo (.body n b []) := by
  simp only [State.receiveByte, h, State.advanceTo]

theorem receiveByte_body {n k : Byte} {kept : List Byte} (h : s.link.rx = .body n k kept) :
    s.receiveByte b = if kept.length + 1 < n.toNat then s.advanceTo (.body n k (kept ++ [b]))
      else s.advanceTo (.check n k (kept ++ [b]) none) := by
  simp only [State.receiveByte, h, State.advanceTo]

theorem receiveByte_low {n k : Byte} {body : List Byte} (h : s.link.rx = .check n k body none) :
    s.receiveByte b = s.advanceTo (.check n k body (some b)) := by
  simp only [State.receiveByte, h, State.advanceTo]

theorem receiveByte_high {n k lo : Byte} {body : List Byte}
    (h : s.link.rx = .check n k body (some lo)) :
    s.receiveByte b = if half lo b = frameCheck n k body then s.huntAgain.goodFrame k body
      else s.huntAgain.badCheck k := by
  simp only [State.receiveByte, h, State.huntAgain]

theorem gapExpired_of_not_hunt (h : s.link.rx ≠ .hunt) :
    s.gapExpired
      = s.huntAgain.modLink fun l => { l with frameTimeouts := countError l.frameTimeouts } := by
  unfold State.gapExpired
  split
  · contradiction
  · rfl

theorem gapExpired_hunt (h : s.link.rx = .hunt) : s.gapExpired = s := by
  simp only [State.gapExpired, h]

end

theorem exec_byteReceived (b : Byte) (s : State) : exec (.byteReceived b) s = .next (s.receiveByte b) :=
  rfl

theorem exec_frameComplete (b : Byte) (s : State) :
    exec (.frameComplete b) s = .next (s.receiveByte b) := rfl

/-- Settles O3: the receiver's table, row by row. -/
theorem receiverTakesByte : Obligations.ReceiverTakesByte := by
  refine fun s b => ⟨fun hrx hb => ?start, fun hrx hb => ?other, fun hrx hb => ?length,
    fun _ _ => rfl, fun n hrx hn => ?kind, fun hrx => ?empty, fun n k kept hrx hn => ?body,
    fun n k kept hrx hn => ?last, fun n k body hrx => ?low, fun _ _ _ _ _ => rfl⟩
  all_goals rw [exec_byteReceived]
  case start => rw [receiveByte_hunt hrx, if_pos hb]; rfl
  case other => rw [receiveByte_hunt hrx, if_neg hb]
  case length => rw [receiveByte_length hrx, if_pos hb]; rfl
  case kind =>
    have hne : n ≠ 0 := by rintro rfl; simp at hn
    rw [receiveByte_kind hrx, if_neg hne]
    rfl
  case empty => rw [receiveByte_kind hrx, if_pos rfl]; rfl
  case body => rw [receiveByte_body hrx, if_pos hn]; rfl
  case last => rw [receiveByte_body hrx, if_neg hn.not_lt]; rfl
  case low => rw [receiveByte_low hrx]; rfl

/-- Settles O4: both events bring the receiver back to HUNT and count up, and do no more. -/
theorem brokenFramesCounted : Obligations.BrokenFramesCounted := by
  refine ⟨fun s b hrx hb => ?framing, fun s => ⟨fun hrx => ?timeout, fun hrx => ?hunt⟩⟩
  case framing =>
    change Host.Outcome.next (s.receiveByte b) = _
    rw [receiveByte_length hrx, if_neg hb.not_ge]
    rfl
  case timeout =>
    change Host.Outcome.next s.gapExpired = _
    rw [gapExpired_of_not_hunt hrx]
    rfl
  case hunt =>
    change Host.Outcome.next s.gapExpired = _
    rw [gapExpired_hunt hrx]

/-! ### A complete frame -/

theorem half_toNat (lo hi : Byte) : (half lo hi).toNat = lo.toNat + 256 * hi.toNat := by
  have hlo : lo.toNat < 2 ^ 8 := lo.isLt
  rw [half, BitVec.toNat_append, Nat.shiftLeft_eq, Nat.mul_comm, ← Nat.two_pow_add_eq_or_of_lt hlo]
  omega

/-- The check bytes agree with the sum exactly when they spell it modulo 65536 (section 10.1). -/
theorem half_eq_frameCheck_iff (lo b n k : Byte) (body : List Byte) :
    half lo b = frameCheck n k body ↔ lo.toNat + 256 * b.toNat = frameSum n k body := by
  rw [← BitVec.toNat_inj, half_toNat, frameCheck, BitVec.toNat_ofNat, frameSum]

/-- No refusal is owed and a frame is free (R181, R182). -/
def HostLink.atHand (l : HostLink) : Prop :=
  l.owedBad = 0 ∧ l.owedBusy = 0 ∧ l.outbound.length < 8

theorem atHand_iff (s : State) :
    s.link.owes = false ∧ 1 ≤ s.freeFrames ↔ s.link.atHand := by
  simp only [HostLink.owes, HostLink.atHand, State.freeFrames, Config.maxFrames, Bool.or_eq_false_iff,
    decide_eq_false_iff_not]
  omega

section
variable {s : State} {kind : Byte}

theorem oweBad_atHand (h : s.link.atHand) :
    s.oweBad kind = s.queueFrame ⟨0x81, [kind, 0, 1]⟩ := if_pos ((atHand_iff s).2 h)

theorem oweBad_later (h : ¬s.link.atHand) : s.oweBad kind = s.modLink fun l =>
    { l with owedBad := min (l.owedBad + 1) 255, owedBadKind := kind } :=
  if_neg (mt (atHand_iff s).1 h)

theorem oweBusy_atHand (h : s.link.atHand) :
    s.oweBusy kind = s.queueFrame ⟨0x81, [kind, 4, 1]⟩ := if_pos ((atHand_iff s).2 h)

theorem oweBusy_later (h : ¬s.link.atHand) : s.oweBusy kind = s.modLink fun l =>
    { l with owedBusy := min (l.owedBusy + 1) 255, owedBusyKind := kind } :=
  if_neg (mt (atHand_iff s).1 h)

/-- While a refusal is owed or no frame is free, no request is taken (R182). -/
theorem takeRequestsN_later (n : Nat) (h : ¬s.link.atHand) : State.takeRequestsN n s = s := by
  cases n with
  | zero => rfl
  | succ n =>
    refine if_pos ?_
    by_contra hno
    refine h ((atHand_iff s).1 ?_)
    simp only [not_or, Bool.not_eq_true] at hno
    exact ⟨hno.2, Nat.one_le_iff_ne_zero.2 hno.1⟩

theorem takeRequests_later (h : ¬s.link.atHand) : s.takeRequests = s := takeRequestsN_later _ h

variable {body : List Byte}

/-- A good frame joins the waiting requests while fewer than two wait, and they are taken (R180). -/
theorem goodFrame_waits (h : s.link.waiting.length < 2) :
    s.goodFrame kind body
      = (s.modLink fun l => { l with waiting := l.waiting ++ [⟨kind, body, false⟩] }).takeRequests :=
  if_pos h

/-- A good frame is discarded while two requests wait (R180). -/
theorem goodFrame_discarded (h : 2 ≤ s.link.waiting.length) :
    s.goodFrame kind body
      = ((s.modLink fun l => { l with overruns := countError l.overruns }).oweBusy kind).raise
          .linkOverrun .hostLink kind.toNat := if_neg h.not_gt

/-- The BUSY of a discarded frame goes out at once where there is room for it. -/
theorem goodFrame_discarded_atHand (h : 2 ≤ s.link.waiting.length) (hroom : s.link.atHand) :
    s.goodFrame kind body = ({ s with
      link := { s.link with
        overruns := min (s.link.overruns + 1) 65535
        outbound := s.link.outbound ++ [⟨0x81, [kind, 4, 1]⟩] } } : State).raise
          .linkOverrun .hostLink kind.toNat := by
  rw [goodFrame_discarded h]
  exact congrArg (State.raise · _ _ _) (oweBusy_atHand hroom)

/-- The BUSY of a discarded frame is owed where there is none. -/
theorem goodFrame_discarded_later (h : 2 ≤ s.link.waiting.length) (hroom : ¬s.link.atHand) :
    s.goodFrame kind body = ({ s with
      link := { s.link with
        overruns := min (s.link.overruns + 1) 65535
        owedBusy := min (s.link.owedBusy + 1) 255
        owedBusyKind := kind } } : State).raise .linkOverrun .hostLink kind.toNat := by
  rw [goodFrame_discarded h]
  exact congrArg (State.raise · _ _ _) (oweBusy_later hroom)

end

section
variable {s : State} {n k lo b : Byte} {body : List Byte}
  (hrx : s.link.rx = .check n k body (some lo))
include hrx

theorem exec_frameComplete_good (h : lo.toNat + 256 * b.toNat = frameSum n k body) :
    exec (.frameComplete b) s = .next (s.huntAgain.goodFrame k body) := by
  rw [exec_frameComplete, receiveByte_high hrx, if_pos ((half_eq_frameCheck_iff ..).2 h)]

theorem exec_frameComplete_bad (h : ¬lo.toNat + 256 * b.toNat = frameSum n k body) :
    exec (.frameComplete b) s = .next (s.huntAgain.badCheck k) := by
  rw [exec_frameComplete, receiveByte_high hrx, if_neg (mt (half_eq_frameCheck_iff ..).1 h)]

end

/-- Settles O5: by the check of the frame, the number of requests that wait, and the room for an
answer. -/
theorem frameCompleteJudged : Obligations.FrameCompleteJudged := by
  refine fun s n k lo b body hrx => ⟨fun hbad hroom => ?answered, fun hbad hroom => ?owed,
    fun hgood hfew hroom => ?waits, fun hgood hfull hroom => ?busy, fun hgood hfull hroom => ?owedBusy⟩
  case answered =>
    rw [exec_frameComplete_bad hrx hbad]
    exact congrArg Host.Outcome.next (oweBad_atHand hroom)
  case owed =>
    rw [exec_frameComplete_bad hrx hbad]
    exact congrArg Host.Outcome.next (oweBad_later hroom)
  case waits =>
    rw [exec_frameComplete_good hrx hgood]
    exact congrArg Host.Outcome.next
      ((goodFrame_waits (s := s.huntAgain) hfew).trans (takeRequests_later hroom))
  case busy =>
    rw [exec_frameComplete_good hrx hgood]
    exact congrArg Host.Outcome.next (goodFrame_discarded_atHand hfull hroom)
  case owedBusy =>
    rw [exec_frameComplete_good hrx hgood]
    exact congrArg Host.Outcome.next (goodFrame_discarded_later hfull hroom)

/-- Settles O6: the row of a request is its good frame arriving. -/
theorem frameCompleteIsRequest : Obligations.FrameCompleteIsRequest := by
  intro s r n lo b hrx hgood
  rw [exec_frameComplete_good hrx hgood, exec_command]
  rfl

/-- Settles O11: the frame of the request is the third. -/
theorem thirdRequestBusy : Obligations.ThirdRequestBusy := by
  refine fun s r hfull => ⟨fun hroom => ?busy, fun hroom => ?owed⟩
  case busy => rw [exec_command, State.requestArrives, goodFrame_discarded_atHand hfull hroom]
  case owed => rw [exec_command, State.requestArrives, goodFrame_discarded_later hfull hroom]

/-! ### A frame byte by byte -/

theorem receiveAll_cons (b : Byte) (rest : List Byte) (s : State) :
    receiveAll (b :: rest) s = receiveAll rest (s.receiveByte b) := rfl

theorem advanceTo_advanceTo (s : State) (r r' : Receiver) :
    (s.advanceTo r).advanceTo r' = s.advanceTo r' := rfl

/-- The bytes of a body that is not empty lead from BODY to CHECK. -/
theorem receiveAll_body (s : State) (n k : Byte) (rest after kept : List Byte) (hne : rest ≠ [])
    (hlen : kept.length + rest.length = n.toNat) :
    receiveAll (rest ++ after) (s.advanceTo (.body n k kept))
      = receiveAll after (s.advanceTo (.check n k (kept ++ rest) none)) := by
  induction rest generalizing kept with
  | nil => contradiction
  | cons b rest ih =>
    rw [List.cons_append, receiveAll_cons, receiveByte_body (n := n) (k := k) (kept := kept) rfl]
    rw [List.length_cons] at hlen
    rcases rest with _ | ⟨c, rest⟩
    · rw [if_neg (by simp at hlen; omega)]
      rfl
    · rw [if_pos (by rw [List.length_cons] at hlen; omega), advanceTo_advanceTo,
        ih (kept ++ [b]) (by simp) (by simp at hlen ⊢; omega), List.append_assoc]
      rfl

/-- A good frame received from HUNT is taken as it was sent. -/
theorem receiveAll_frameBytes (s : State) (kind : Byte) (body : List Byte) (hlen : body.length ≤ 240)
    (hrx : s.link.rx = .hunt) :
    receiveAll (frameBytes kind body) s
      = .next ((s.setReceiver .hunt ⟨false, 50⟩).goodFrame kind body) := by
  set n : Byte := BitVec.ofNat 8 body.length with hn
  have hnat : n.toNat = body.length := by
    rw [hn, BitVec.toNat_ofNat, Nat.mod_eq_of_lt (by omega)]
  set sum := frameSum n kind body with hsum
  have hlt : sum < 65536 := Nat.mod_lt _ (by decide)
  have hcheck : half (BitVec.ofNat 8 sum) (BitVec.ofNat 8 (sum / 256)) = frameCheck n kind body := by
    rw [half_eq_frameCheck_iff, ← hsum, BitVec.toNat_ofNat, BitVec.toNat_ofNat]
    omega
  have htail : receiveAll [BitVec.ofNat 8 sum, BitVec.ofNat 8 (sum / 256)]
      (s.advanceTo (.check n kind body none))
        = .next ((s.setReceiver .hunt ⟨false, 50⟩).goodFrame kind body) := by
    rw [receiveAll_cons, receiveByte_low (n := n) (k := kind) (body := body) rfl, receiveAll_cons,
      receiveByte_high (n := n) (k := kind) (body := body) rfl, if_pos hcheck]
    rfl
  have hbytes : frameBytes kind body
      = 0xC3 :: n :: kind :: (body ++ [BitVec.ofNat 8 sum, BitVec.ofNat 8 (sum / 256)]) := rfl
  rw [hbytes, receiveAll_cons, receiveByte_hunt hrx, if_pos rfl, receiveAll_cons,
    receiveByte_length rfl, if_pos (by omega), receiveAll_cons, receiveByte_kind (n := n) rfl]
  rcases body with _ | ⟨b, rest⟩
  · rw [if_pos (by rw [hn]; rfl)]
    exact htail
  · rw [if_neg (by intro h0; rw [h0] at hnat; simp at hnat), advanceTo_advanceTo, advanceTo_advanceTo,
      receiveAll_body s n kind _ _ [] (by simp) (by simpa using hnat.symm)]
    exact htail

/-- A request the host can send fits a frame (Table 10-2). -/
theorem length_body_le {r : Request} (h : r.sendable = true) : (Request.body r).length ≤ 240 := by
  cases r with
  | setZoneMap starts =>
    have hlen : starts.length = 16 := by simpa [Request.sendable] using h
    simp [Request.body, List.length_flatMap, halfBytes, hlen]
  | loadStack p hold runs =>
    have hlen : runs.length ≤ 8 := by
      simp only [Request.sendable, Bool.and_eq_true, decide_eq_true_eq] at h
      exact h.2
    simp only [Request.body, List.length_append, length_flatMap_wireRunBytes, List.length_cons,
      List.length_nil]
    omega
  | addRuns p runs =>
    have hlen : runs.length ≤ 8 := by
      simp only [Request.sendable, Bool.and_eq_true, decide_eq_true_eq] at h
      exact h.2
    simp only [Request.body, List.length_append, length_flatMap_wireRunBytes, List.length_cons,
      List.length_nil]
    omega
  | _ => simp [Request.body, halfBytes, quadBytes]

/-- Settles O7: the frame of the request is received whole, and its row is that frame arriving. -/
theorem frameBytesAreRequest : Obligations.FrameBytesAreRequest := by
  intro s r hsend hrx
  have hlink : s.setReceiver .hunt ⟨false, 50⟩ = s.modLink fun l => { l with gap := ⟨false, 50⟩ } := by
    simp only [State.setReceiver, State.modLink, ← hrx]
  rw [receiveAll_frameBytes s _ _ (length_body_le hsend) hrx, exec_command, hlink]
  rfl

end Sys2Proof.Machine
end

section
/-! Requests that are taken and refused at once (O10), and the frame that is freed (O9). -/

namespace Sys2Proof.Machine

/-! ### Taking the request that waits -/

/-- What stands a further frame while two are free, and the marks of a CELL RESET, stands the serving of a
request. -/
theorem serve_link (Q : HostLink → Prop)
    (hQ : ∀ (l : HostLink) f, l.outbound.length + 2 ≤ Config.maxFrames → Q l →
      Q { l with outbound := l.outbound ++ [f] })
    (hd : ∀ l : HostLink, Q l → Q l.dropBehind) (s : State) (r : WaitingRequest) (hs : Q s.link) :
    Q (s.serve r).1.link := by
  unfold State.serve
  split
  · exact hs
  · split
    · exact hs
    · exact (Stable.ofLink Q hQ).settle (handle_link Q hQ hd _ _ hs)

theorem dropBehind_requests (l : HostLink) :
    l.dropBehind.waiting.map (fun r => (r.kind, r.body)) = l.waiting.map fun r => (r.kind, r.body) := by
  unfold HostLink.dropBehind
  split
  · rfl
  · simp_all [Function.comp_def]

/-- The frames of the waiting requests are not changed by serving one of them. -/
theorem serve_requests (s : State) (r : WaitingRequest) :
    (s.serve r).1.link.waiting.map (fun r => (r.kind, r.body))
      = s.link.waiting.map fun r => (r.kind, r.body) :=
  serve_link (fun l => l.waiting.map (fun r => (r.kind, r.body)) = _) (fun _ _ _ h => h)
    (fun l h => (dropBehind_requests l).trans h) s r rfl

section
variable {s : State} {r : WaitingRequest} {rest : List WaitingRequest}

theorem takeRequestsN_cons (n : Nat) (h : s.link.atHand) (hw : s.link.waiting = r :: rest) :
    State.takeRequestsN (n + 1) s = State.takeRequestsN n (s.takeHead r) := by
  have hgo : ¬(s.freeFrames = 0 ∨ s.link.owes = true) := by
    obtain ⟨howes, hfree⟩ := (atHand_iff s).2 h
    simp only [howes, Bool.false_eq_true, or_false]
    omega
  rw [State.takeRequestsN, if_neg hgo, hw]

theorem takeRequestsN_nil (n : Nat) (hw : s.link.waiting = []) : State.takeRequestsN n s = s := by
  cases n with
  | zero => rfl
  | succ n => simp [State.takeRequestsN, hw]

theorem takeRequests_nil (hw : s.link.waiting = []) : s.takeRequests = s := takeRequestsN_nil _ hw

/-- Taking the head leaves the frames of the others waiting. -/
theorem takeHead_requests (hw : s.link.waiting = r :: rest) :
    (s.takeHead r).link.waiting.map (fun r => (r.kind, r.body))
      = rest.map fun r => (r.kind, r.body) := by
  have hserved := serve_requests s r
  rw [hw] at hserved
  change ((s.serve r).1.link.waiting.tail).map _ = _
  rw [List.map_tail, hserved]
  rfl

/-- The only waiting request is taken, and none waits after it. -/
theorem takeRequests_one (h : s.link.atHand) (hw : s.link.waiting = [r]) :
    s.takeRequests = s.takeHead r := by
  refine (takeRequestsN_cons 1 h hw).trans (takeRequestsN_nil 1 ?_)
  simpa using takeHead_requests hw

/-- A request that is refused unexamined, or at its kind byte or its length, leaves the answer alone. -/
theorem takeHead_refused {why : Reason} {i : Nat} (hserve : s.serve r = (s, .refuse why i)) :
    s.takeHead r = s.modLink fun l => { l with
      waiting := l.waiting.tail
      outbound := l.outbound ++ [refuseFrame r.kind (reasonCode why) (byte i)] } := by
  rw [State.takeHead, hserve]
  rfl

end

theorem takesAtOnce_atHand {s : State} (h : s.takesAtOnce = true) : s.link.atHand := by
  simp only [State.takesAtOnce, Bool.and_eq_true, decide_eq_true_eq] at h
  obtain ⟨⟨⟨-, hbad⟩, hbusy⟩, hroom⟩ := h
  exact ⟨hbad, hbusy, hroom⟩

/-- A frame that is no request is refused when it is taken at once (R182, steps 1 and 2). -/
theorem goodFrame_refused {s : State} {kind : Byte} {body : List Byte} {why : Reason} {i : Nat}
    (h : s.takesAtOnce = true) (hp : parseRequest kind body = .refused why i) :
    s.goodFrame kind body = s.queueFrame (refuseFrame kind (reasonCode why) (byte i)) := by
  have hnone : s.link.waiting = [] := takesAtOnce_waiting h
  have hserve : ∀ u : State, u.serve ⟨kind, body, false⟩ = (u, .refuse why i) := fun u => by
    simp [State.serve, hp]
  have hwait : (s.link.waiting ++ [⟨kind, body, false⟩] : List WaitingRequest)
      = [⟨kind, body, false⟩] := by rw [hnone]; rfl
  rw [goodFrame_waits (by simp [hnone])]
  have hroom : s.link.atHand := takesAtOnce_atHand h
  have htake (l : HostLink) (hl : l.atHand) (hone : l.waiting = [⟨kind, body, false⟩]) :
      (s.modLink fun _ => l).takeRequests = (s.modLink fun _ => l).takeHead ⟨kind, body, false⟩ :=
    takeRequests_one hl hone
  refine (htake { s.link with waiting := s.link.waiting ++ [⟨kind, body, false⟩] } hroom hwait).trans ?_
  rw [takeHead_refused (hserve _)]
  simp only [State.modLink, State.queueFrame, hnone, List.nil_append, List.tail_cons]

/-! ### Refusals at the kind byte and the length -/

section
variable {body : List Byte}

theorem parse0_badLength (r : Request) (h : body.length ≠ 0) : parse0 r body = .badLength := by
  unfold parse0
  split
  · exact absurd rfl h
  · rfl

theorem parse1_badLength (f) (h : body.length ≠ 1) : parse1 f body = .badLength := by
  unfold parse1
  split
  · exact absurd rfl h
  · rfl

theorem parse2_badLength (f) (h : body.length ≠ 2) : parse2 f body = .badLength := by
  unfold parse2
  split
  · exact absurd rfl h
  · rfl

theorem parse3_badLength (f) (h : body.length ≠ 3) : parse3 f body = .badLength := by
  unfold parse3
  split
  · exact absurd rfl h
  · rfl

theorem parse4_badLength (f) (h : body.length ≠ 4) : parse4 f body = .badLength := by
  unfold parse4
  split
  · exact absurd rfl h
  · rfl

theorem parseHalf_badLength (f) (h : body.length ≠ 2) : parseHalf f body = .badLength := by
  unfold parseHalf
  split
  · exact absurd rfl h
  · rfl

theorem parseZoneMap_badLength (h : body.length ≠ 32) : parseZoneMap body = .badLength := if_neg h

theorem parseDefinePlace_badLength (h : body.length ≠ 12) : parseDefinePlace body = .badLength := by
  unfold parseDefinePlace
  split
  · exact absurd rfl h
  · rfl

theorem parseSawConfig_badLength (h : body.length ≠ 8) : parseSawConfig body = .badLength := by
  unfold parseSawConfig
  split
  · exact absurd rfl h
  · rfl

theorem parseOrder_badLength (h : body.length ≠ 11) : parseOrder body = .badLength := by
  unfold parseOrder
  split
  · exact absurd rfl h
  · rfl

end

/-- The kinds of one length, by their codes. -/
theorem parseRequest_badLength {kind : Byte} {body : List Byte} {n : Nat} (h1 : 1 ≤ kind.toNat)
    (hn : bodyLengths[kind.toNat - 1]? = some (some n)) (hlen : body.length ≠ n) :
    parseRequest kind body = .badLength := by
  have hk : kind.toNat - 1 < 31 := by
    obtain ⟨hlt, -⟩ := List.getElem?_eq_some_iff.1 hn
    exact hlt
  unfold parseRequest
  generalize kind.toNat = k at h1 hn hk
  obtain ⟨j, rfl⟩ : ∃ j, k = j + 1 := ⟨k - 1, by omega⟩
  rw [Nat.add_sub_cancel] at hn hk
  interval_cases j <;> cases hn
  all_goals
    simp only [parse0_badLength, parse1_badLength, parse2_badLength, parse3_badLength, parse4_badLength,
      parseHalf_badLength, parseZoneMap_badLength, parseDefinePlace_badLength, parseSawConfig_badLength,
      parseOrder_badLength, ne_eq, hlen, not_false_eq_true]

theorem parseRequest_unknownKind {kind : Byte} (body : List Byte)
    (h : kind.toNat < 1 ∨ 0x1F < kind.toNat) :
    parseRequest kind body = .refused .unknownKind 0 := by
  unfold parseRequest
  split
  case h_32 => rfl
  all_goals omega

/-- A run count in range: the rest of the body is 7 bytes for each run (Table 10-6). -/
theorem runCountOk_iff (n : Byte) : runCountOk n = true ↔ 1 ≤ n.toNat ∧ n.toNat ≤ 8 := by
  simp [runCountOk]

theorem parseLoadStack_badLength {body : List Byte}
    (h : body.length < 3
      ∨ ∃ n, body[2]? = some n ∧ 1 ≤ n.toNat ∧ n.toNat ≤ 8 ∧ body.length ≠ 3 + 7 * n.toNat) :
    parseLoadStack body = .badLength := by
  match body, h with
  | [], _ | [_], _ | [_, _], _ => rfl
  | p :: hold :: m :: rest, h =>
    rcases h with h | ⟨n, hn, hlow, hhigh, hlen⟩
    · simp only [List.length_cons] at h
      omega
    · obtain rfl : m = n := by simpa using hn
      have hrest : rest.length ≠ 7 * m.toNat := by simp at hlen; omega
      simp [parseLoadStack, (runCountOk_iff m).2 ⟨hlow, hhigh⟩, hrest]

theorem parseAddRuns_badLength {body : List Byte}
    (h : body.length < 2
      ∨ ∃ n, body[1]? = some n ∧ 1 ≤ n.toNat ∧ n.toNat ≤ 8 ∧ body.length ≠ 2 + 7 * n.toNat) :
    parseAddRuns body = .badLength := by
  match body, h with
  | [], _ | [_], _ => rfl
  | p :: m :: rest, h =>
    rcases h with h | ⟨n, hn, hlow, hhigh, hlen⟩
    · simp at h
    · obtain rfl : m = n := by simpa using hn
      have hrest : rest.length ≠ 7 * m.toNat := by simp at hlen; omega
      simp [parseAddRuns, (runCountOk_iff m).2 ⟨hlow, hhigh⟩, hrest]

theorem parseQueryEvents_badLength {body : List Byte}
    (h : body = [] ∨ (body[0]? = some 0 ∧ body.length ≠ 1)
      ∨ (body[0]? = some 1 ∧ body.length ≠ 5)) : parseQueryEvents body = .badLength := by
  match body, h with
  | [], _ => rfl
  | form :: rest, h =>
    simp only [reduceCtorEq, List.getElem?_cons_zero, Option.some.injEq, List.length_cons,
      false_or] at h
    rcases h with ⟨rfl, hlen⟩ | ⟨rfl, hlen⟩
    · cases rest with
      | nil => simp at hlen
      | cons => rfl
    · match rest, hlen with
      | [_, _, _, _], hlen => simp at hlen
      | [], _ | [_], _ | [_, _], _ | [_, _, _], _ | _ :: _ :: _ :: _ :: _ :: _, _ => rfl

/-- A body that has not the length of its kind is refused BAD LENGTH. -/
theorem parseRequest_wrongLength {kind : Byte} {body : List Byte} (h : wrongLength kind body) :
    parseRequest kind body = .refused .badLength 0 := by
  rcases h with ⟨n, h1, hn, hlen⟩ | ⟨rfl, h⟩ | ⟨rfl, h⟩ | ⟨rfl, h⟩
  · exact parseRequest_badLength h1 hn hlen
  · exact parseLoadStack_badLength h
  · exact parseAddRuns_badLength h
  · exact parseQueryEvents_badLength h

theorem runCountOk_of_bad {n : Byte} (h : n = 0 ∨ 8 < n.toNat) : runCountOk n = false := by
  rw [← Bool.not_eq_true, runCountOk_iff]
  rcases h with rfl | h
  · simp
  · omega

/-- A count or form byte out of range is refused BAD VALUE with its index. -/
theorem parseRequest_badCount {kind : Byte} {body : List Byte} {i : Byte} (h : badCount kind body i) :
    parseRequest kind body = .refused .badValue i.toNat := by
  rcases h with ⟨rfl, rfl, n, hn, hbad⟩ | ⟨rfl, rfl, n, hn, hbad⟩ | ⟨rfl, rfl, n, hn, hbad⟩
  · obtain ⟨p, hold, rest, rfl⟩ : ∃ p hold rest, body = p :: hold :: n :: rest := by
      match body, hn with
      | p :: hold :: m :: rest, hn => exact ⟨p, hold, rest, by simpa using hn⟩
    change parseLoadStack (p :: hold :: n :: rest) = _
    simp [parseLoadStack, runCountOk_of_bad hbad]
  · obtain ⟨p, rest, rfl⟩ : ∃ p rest, body = p :: n :: rest := by
      match body, hn with
      | p :: m :: rest, hn => exact ⟨p, rest, by simpa using hn⟩
    change parseAddRuns (p :: n :: rest) = _
    simp [parseAddRuns, runCountOk_of_bad hbad]
  · obtain ⟨rest, rfl⟩ : ∃ rest, body = n :: rest := by
      match body, hn with
      | m :: rest, hn => exact ⟨rest, by simpa using hn⟩
    have h0 : ¬n = 0 := by rintro rfl; simp at hbad
    have h1 : ¬n = 1 := by rintro rfl; simp at hbad
    exact (if_neg h0).trans (if_neg h1)

/-- Settles O10: what reads as no request is refused with the reason of the first check it fails. -/
theorem unknownAndDroppedRefused : Obligations.UnknownAndDroppedRefused := by
  refine ⟨fun s kind body h hkind => ?unknown, fun s kind body hw hbad hbusy hroom => ?dropped,
    fun s n kind lo b body h hrx hgood => ?checked⟩
  case unknown =>
    exact congrArg Host.Outcome.next (goodFrame_refused h (parseRequest_unknownKind body hkind))
  case dropped =>
    have hserve : s.serve ⟨kind, body, true⟩ = (s, .refuse .notNow 0) := rfl
    have htake : s.answerDropped = s.takeRequests := by simp [State.answerDropped, hw]
    have hanswer : s.answerDropped = s.modLink fun l =>
        { l with waiting := l.waiting.tail, outbound := l.outbound ++ [⟨0x81, [kind, 5, 0]⟩] } := by
      rw [htake, takeRequests_one ⟨hbad, hbusy, hroom⟩ hw, takeHead_refused hserve]
      rfl
    change Host.Outcome.next s.answerDropped = _
    rw [hanswer]
    simp only [State.modLink, hw, List.tail_cons]
  case checked =>
    rw [exec_frameComplete_good hrx hgood]
    have h' : s.huntAgain.takesAtOnce = true := h
    refine ⟨fun hlen => ?_, fun i hi => ?_⟩
    · rw [goodFrame_refused h' (parseRequest_wrongLength hlen)]
      rfl
    · rw [goodFrame_refused h' (parseRequest_badCount hi)]
      simp only [byte, BitVec.ofNat_toNat, BitVec.setWidth_eq]
      rfl

/-! ### A frame is freed -/

section
variable {s : State}

theorem serveBad_none (h : s.link.owedBad = 0) : s.serveBad = s := if_neg (by omega)

theorem serveBad_owed (h : 0 < s.link.owedBad) (hroom : s.link.outbound.length < 8) :
    s.serveBad = s.modLink fun l => { l with
      owedBad := 0
      outbound := l.outbound ++ [⟨0x81, [l.owedBadKind, 0, BitVec.ofNat 8 l.owedBad]⟩] } :=
  if_pos ⟨h, by simp only [State.freeFrames, Config.maxFrames]; omega⟩

theorem serveBusy_none (h : s.link.owedBusy = 0) : s.serveBusy = s := if_neg (by omega)

theorem serveBusy_full (h : 8 ≤ s.link.outbound.length) : s.serveBusy = s :=
  if_neg (by simp only [State.freeFrames, Config.maxFrames]; omega)

theorem serveBusy_owed (h : 0 < s.link.owedBusy) (hroom : s.link.outbound.length < 8) :
    s.serveBusy = s.modLink fun l => { l with
      owedBusy := 0
      outbound := l.outbound ++ [⟨0x81, [l.owedBusyKind, 4, BitVec.ofNat 8 l.owedBusy]⟩] } :=
  if_pos ⟨h, by simp only [State.freeFrames, Config.maxFrames]; omega⟩

theorem sendReports_of_full (h : 7 ≤ s.link.outbound.length) : s.sendReports = s :=
  sendReports_full s (by simp only [State.freeFrames, Config.maxFrames]; omega)

theorem exec_frameFreed {f : Frame} {rest : List Frame} (h : s.link.outbound = f :: rest) :
    exec .frameFreed s = .next
      (s.modLink fun l => { l with outbound := rest }).serveBad.serveBusy.takeRequests.sendReports := by
  change Host.Outcome.next s.freeFrame = _
  simp only [State.freeFrame, h]

end

theorem Reply.frame_kind (kind : Byte) (k : Reply) :
    ((k.frame kind).kind = 0x80 ∨ (k.frame kind).kind = 0x81) ∧ (k.frame kind).body.head? = some kind := by
  cases k with
  | accept fields => exact ⟨.inl rfl, rfl⟩
  | refuse why i => exact ⟨.inr rfl, rfl⟩

/-- What is served when a frame is free, in its order (R181, R182). -/
theorem served {s1 s2 s3 s4 : State} (hbad : s1.serveBad = s2) (hbusy : s2.serveBusy = s3)
    (htake : s3.takeRequests = s4) : s1.serveBad.serveBusy.takeRequests = s4 := by
  rw [hbad, hbusy, htake]

/-- With two requests waiting and one frame free the older is answered and the younger waits on. -/
theorem takeRequests_two {s : State} {r1 r2 : WaitingRequest} (h : s.link.atHand)
    (hw : s.link.waiting = [r1, r2]) (hseven : s.link.outbound.length = 7) :
    ∃ t, s.takeRequests = t
      ∧ (∃ f, t.link.outbound = s.link.outbound ++ [f] ∧ (f.kind = 0x80 ∨ f.kind = 0x81)
          ∧ f.body.head? = some r1.kind)
      ∧ t.link.waiting.map (fun r => (r.kind, r.body)) = [(r2.kind, r2.body)] := by
  have hout : (s.serve r1).1.link.outbound = s.link.outbound := by
    refine serve_link (fun l => l.outbound = s.link.outbound) (fun l f hf hl => ?_) (fun l hl => ?_)
      s r1 rfl
    · rw [hl, hseven] at hf
      exact absurd hf (by decide)
    · unfold HostLink.dropBehind
      split <;> exact hl
  have hafter : (s.takeHead r1).link.outbound
      = s.link.outbound ++ [(s.serve r1).2.frame r1.kind] := congrArg (· ++ _) hout
  have hfull : ¬(s.takeHead r1).link.atHand := by
    rintro ⟨-, -, hlen⟩
    rw [hafter, List.length_append, hseven] at hlen
    simp at hlen
  refine ⟨s.takeHead r1, ?_, ⟨_, hafter, Reply.frame_kind _ _⟩, takeHead_requests hw⟩
  exact (takeRequestsN_cons 1 h hw).trans (takeRequestsN_later 1 hfull)

/-- Settles O9: BAD FRAME, then BUSY, then the waiting requests, then the reports. -/
theorem frameFreedServes : Obligations.FrameFreedServes := by
  intro s f rest hout hlen hbad255 hbusy255
  dsimp only
  rw [exec_frameFreed hout]
  have report {t u : State} (h : t = u) :
      (Host.Outcome.next t.sendReports : Result) = .next u.sendReports := by rw [h]
  have full {t u : State} (h : t = u) (hu : 7 ≤ u.link.outbound.length) :
      (Host.Outcome.next t.sendReports : Result) = .next u := by rw [h, sendReports_of_full hu]
  refine ⟨fun hbad hbusy hw => ?nothing, fun hbad hbusy hseven => ?badOnly,
    fun hbad hbusy hroom hw => ?both, fun hbad hbusy hw => ?bad, fun hbad hbusy hw => ?busy,
    fun r hbad hbusy hw => ?request, fun r1 r2 hbad hbusy hw hseven => ?two⟩
  case nothing =>
    exact report (served (serveBad_none hbad) (serveBusy_none hbusy) (takeRequests_nil hw))
  case badOnly =>
    have height : (rest ++ [(⟨0x81, [s.link.owedBadKind, 0, BitVec.ofNat 8 s.link.owedBad]⟩ : Frame)]).length
        = 8 := by simp [hseven]
    refine full (served (serveBad_owed hbad hlen) (serveBusy_full height.ge)
      (takeRequests_later fun hroom => ?_)) ((by decide : 7 ≤ 8).trans height.ge)
    obtain ⟨-, -, hroom⟩ := hroom
    exact absurd hroom height.not_lt
  case both =>
    have htwo : (rest ++ [(⟨0x81, [s.link.owedBadKind, 0, BitVec.ofNat 8 s.link.owedBad]⟩ : Frame)]).length
        < 8 := by simp; omega
    refine (report (served (serveBad_owed (s := s.modLink fun l => { l with outbound := rest }) hbad hlen)
      (serveBusy_owed (s := State.modLink (s.modLink _) _) hbusy htwo) (takeRequests_nil hw))).trans ?_
    simp only [State.modLink, List.append_assoc]
    rfl
  case bad =>
    exact report (served (serveBad_owed hbad hlen) (serveBusy_none hbusy) (takeRequests_nil hw))
  case busy =>
    exact report (served (serveBad_none hbad) (serveBusy_owed hbusy hlen) (takeRequests_nil hw))
  case request =>
    refine ⟨_, exec_command r _, report ((served (s1 := s.modLink fun l => { l with outbound := rest })
      (serveBad_none hbad) (serveBusy_none hbusy) rfl).trans ?_)⟩
    refine Eq.trans ?_ (goodFrame_waits (by simp)).symm
    simp only [State.modLink, hw, List.nil_append]
  case two =>
    obtain ⟨t, ht, hf, hwait⟩ := takeRequests_two (s := s.modLink fun l => { l with outbound := rest })
      ⟨hbad, hbusy, hlen⟩ hw hseven
    refine ⟨t, full (served (serveBad_none hbad) (serveBusy_none hbusy) ht) ?_, hf, hwait⟩
    obtain ⟨g, hg, -⟩ := hf
    rw [hg, List.length_append]
    exact (Nat.le_of_eq hseven.symm).trans (Nat.le_add_right _ _)

end Sys2Proof.Machine
end

section
/-! The pending set and its reports: raising (O12), sending (O13), and the bytes of a number. -/

namespace Sys2Proof.Machine

/-! ### Numbers as bytes -/

theorem le_one (n : Nat) : le 1 n = [byte n] := by simp [le, byte]

theorem le_two (n : Nat) : le 2 n = num16 n := by
  have hhigh : BitVec.ofNat 8 (n / 256) = (BitVec.ofNat 16 n >>> 8).setWidth 8 := by
    refine BitVec.eq_of_toNat_eq ?_
    simp [Nat.shiftRight_eq_div_pow]
    omega
  have hlow : BitVec.ofNat 8 n = (BitVec.ofNat 16 n).setWidth 8 := by
    refine BitVec.eq_of_toNat_eq ?_
    simp
  simp [le, List.range_succ, num16, halfBytes, ← hhigh, ← hlow]

theorem le_four (n : Nat) : le 4 n = num32 n := by
  have hbyte (k : Nat) (hk : k < 4) :
      BitVec.ofNat 8 (n / 256 ^ k) = (BitVec.ofNat 32 n >>> (8 * k)).setWidth 8 := by
    refine BitVec.eq_of_toNat_eq ?_
    simp only [BitVec.toNat_ofNat, BitVec.toNat_setWidth, BitVec.toNat_ushiftRight,
      Nat.shiftRight_eq_div_pow]
    interval_cases k <;> norm_num <;> omega
  have h0 := hbyte 0 (by decide)
  have h1 := hbyte 1 (by decide)
  have h2 := hbyte 2 (by decide)
  have h3 := hbyte 3 (by decide)
  simp only [Nat.mul_zero, Nat.mul_one, Nat.reduceMul, BitVec.ushiftRight_zero] at h0 h1 h2 h3
  simp [le, List.range_succ, num32, quadBytes, ← h0, ← h1, ← h2, ← h3]

theorem le_five (n : Nat) : le 5 n = num40 n := by
  have hsplit : le 5 n = le 4 n ++ [byte (n / 4294967296)] := by
    simp [le, List.range_succ, byte]
  have hlow : num32 (n % 4294967296) = num32 n := by
    rw [num32, num32]
    refine congrArg quadBytes (BitVec.eq_of_toNat_eq ?_)
    simp
  rw [hsplit, le_four, num40, hlow]

theorem eventBody_eq (filler : Half) (e : EventEntry) : eventBody filler e = entryBytes filler e := by
  have hdetail : quadBytes (BitVec.ofInt 32 e.detail) = num32 (BitVec.ofInt 32 e.detail).toNat := by
    rw [num32, BitVec.ofNat_toNat, BitVec.setWidth_eq]
  have hnumber (o : Option Nat) :
      (match o with | some n => num16 n | none => halfBytes filler) = num16 (o.getD filler.toNat) := by
    cases o with
    | some n => rfl
    | none => rw [Option.getD_none, num16, BitVec.ofNat_toNat, BitVec.setWidth_eq]
  simp only [eventBody, entryBytes, le_one, le_two, le_four, hdetail, ← hnumber]
  rfl

theorem length_eventBody (filler : Half) (e : EventEntry) : (eventBody filler e).length = 14 := by
  unfold eventBody
  dsimp only
  split <;> rfl

/-! ### The first and the last in order -/

/-- The class of the kind of an entry, as the code that orders it. -/
def EventEntry.rank (e : EventEntry) : Nat := classCode (eventClass e.kind)

theorem EventEntry.rank_le (e : EventEntry) : e.rank ≤ 2 := by
  unfold EventEntry.rank
  cases eventClass e.kind <;> simp [classCode]

theorem EventEntry.rank_of_class (e : EventEntry) {k : EventClass} (h : eventClass e.kind = k) :
    e.rank = classCode k := congrArg classCode h

theorem find?_middle {α : Type} {p : α → Bool} {before after : List α} {e : α}
    (hbefore : ∀ x ∈ before, p x = false) (he : p e = true) :
    (before ++ e :: after).find? p = some e := by
  rw [List.find?_append, List.find?_eq_none.2 (by simpa using hbefore), Option.none_or,
    List.find?_cons_of_pos he]

theorem find?_absent {α : Type} {p : α → Bool} {before after : List α} {e : α}
    (hbefore : ∀ x ∈ before, p x = false) (he : p e = false) (hafter : ∀ x ∈ after, p x = false) :
    (before ++ e :: after).find? p = none := by
  rw [List.find?_eq_none]
  simp only [List.mem_append, List.mem_cons, Bool.not_eq_true]
  rintro x (hx | rfl | hx)
  · exact hbefore x hx
  · exact he
  · exact hafter x hx

section
variable {before after : List EventEntry} {e : EventEntry}

/-- The first to be sent: no other that may go is of a higher class, and no older one of its class. -/
theorem firstInOrder_middle {p : EventEntry → Bool} (he : p e = true)
    (hbefore : ∀ x ∈ before, p x = true → e.rank < x.rank)
    (hafter : ∀ x ∈ after, p x = true → e.rank ≤ x.rank) :
    firstInOrder p (before ++ e :: after) = some e := by
  have hb (k : EventClass) (hk : classCode k ≤ e.rank) :
      ∀ x ∈ before, (p x && decide (eventClass x.kind = k)) = false := by
    rintro x hx
    by_contra hno
    simp only [Bool.not_eq_false, Bool.and_eq_true, decide_eq_true_eq] at hno
    have hlt := hbefore x hx hno.1
    rw [x.rank_of_class hno.2] at hlt
    omega
  have ha (k : EventClass) (hk : classCode k < e.rank) :
      ∀ x ∈ after, (p x && decide (eventClass x.kind = k)) = false := by
    rintro x hx
    by_contra hno
    simp only [Bool.not_eq_false, Bool.and_eq_true, decide_eq_true_eq] at hno
    have hle := hafter x hx hno.1
    rw [x.rank_of_class hno.2] at hle
    omega
  unfold firstInOrder
  cases hcls : eventClass e.kind with
  | alarm =>
    rw [e.rank_of_class hcls] at hb
    rw [find?_middle (hb .alarm (by decide)) (by simp [he, hcls])]
  | warning =>
    rw [e.rank_of_class hcls] at hb ha
    rw [find?_absent (hb .alarm (by decide)) (by simp [hcls]) (ha .alarm (by decide)),
      find?_middle (hb .warning (by decide)) (by simp [he, hcls])]
  | notice =>
    have hnone : ∀ x ∈ before, p x = false := by
      intro x hx
      by_contra hno
      have hlt := hbefore x hx (by simpa using hno)
      have hle := x.rank_le
      rw [e.rank_of_class hcls] at hlt
      exact absurd (hlt.trans_le hle) (by decide)
    rw [e.rank_of_class hcls] at hb ha
    rw [find?_absent (hb .alarm (by decide)) (by simp [hcls]) (ha .alarm (by decide)),
      find?_absent (hb .warning (by decide)) (by simp [hcls]) (ha .warning (by decide)),
      find?_middle hnone he]

/-- The oldest of the lowest class: no other is of a lower class, and no older one of its class. -/
theorem oldestLowest_middle (hbefore : ∀ x ∈ before, x.rank < e.rank)
    (hafter : ∀ x ∈ after, x.rank ≤ e.rank) : oldestLowest (before ++ e :: after) = some e := by
  have hb (k : EventClass) (hk : e.rank ≤ classCode k) :
      ∀ x ∈ before, decide (eventClass x.kind = k) = false := by
    intro x hx
    rw [decide_eq_false_iff_not]
    intro hcls
    have hlt := hbefore x hx
    rw [x.rank_of_class hcls] at hlt
    omega
  have ha (k : EventClass) (hk : e.rank < classCode k) :
      ∀ x ∈ after, decide (eventClass x.kind = k) = false := by
    intro x hx
    rw [decide_eq_false_iff_not]
    intro hcls
    have hle := hafter x hx
    rw [x.rank_of_class hcls] at hle
    omega
  unfold oldestLowest
  cases hcls : eventClass e.kind with
  | alarm =>
    have hnil : before = [] := List.eq_nil_iff_forall_not_mem.2 fun x hx => by
      have hlt := hbefore x hx
      rw [e.rank_of_class hcls] at hlt
      exact Nat.not_lt_zero _ hlt
    rw [e.rank_of_class hcls] at hb ha
    rw [find?_absent (hb .notice (by decide)) (by simp [hcls]) (ha .notice (by decide)),
      find?_absent (hb .warning (by decide)) (by simp [hcls]) (ha .warning (by decide)), hnil]
    rfl
  | warning =>
    rw [e.rank_of_class hcls] at hb ha
    rw [find?_absent (hb .notice (by decide)) (by simp [hcls]) (ha .notice (by decide)),
      find?_middle (hb .warning (by decide)) (by simp [hcls])]
  | notice =>
    rw [e.rank_of_class hcls] at hb
    rw [find?_middle (hb .notice (by decide)) (by simp [hcls])]

/-- Only the entry itself stands for its kind and source. -/
theorem sameEvent_unique {u : EventUnit} (hok : u.ok = true) (hu : u.entries = before ++ e :: after) :
    sameEvent e.kind e.source e = true
      ∧ (∀ x ∈ before, sameEvent e.kind e.source x = false)
      ∧ ∀ x ∈ after, sameEvent e.kind e.source x = false := by
  obtain ⟨-, hnodup, -⟩ := (eventsOk_iff u).1 hok
  rw [hu, List.map_append, List.map_cons] at hnodup
  have hmid := List.nodup_middle.1 hnodup
  rw [List.nodup_cons, List.mem_append, not_or] at hmid
  obtain ⟨⟨hb, ha⟩, -⟩ := hmid
  have apart (l : List EventEntry) (hl : (e.kind, e.source) ∉ l.map fun e => (e.kind, e.source)) :
      ∀ x ∈ l, sameEvent e.kind e.source x = false := by
    intro x hx
    by_contra hno
    simp only [sameEvent, Bool.not_eq_false, Bool.and_eq_true, decide_eq_true_eq] at hno
    exact hl (List.mem_map.2 ⟨x, hx, by rw [hno.1, hno.2]⟩)
  exact ⟨by simp [sameEvent], apart before hb, apart after ha⟩

theorem markSent_middle {u : EventUnit} (hok : u.ok = true) (hu : u.entries = before ++ e :: after) :
    markSent e u.entries = before ++ { e with sent := true } :: after := by
  obtain ⟨hself, hb, ha⟩ := sameEvent_unique hok hu
  have fixed (l : List EventEntry) (hl : ∀ x ∈ l, sameEvent e.kind e.source x = false) :
      (l.map fun x => if sameEvent e.kind e.source x then { x with sent := true } else x) = l := by
    refine (List.map_congr_left fun x hx => ?_).trans (List.map_id l)
    simp [hl x hx]
  rw [hu, markSent, List.map_append, List.map_cons, fixed _ hb, fixed _ ha, if_pos hself]

theorem filter_middle {u : EventUnit} (hok : u.ok = true) (hu : u.entries = before ++ e :: after) :
    (u.entries.filter fun x => !sameEvent e.kind e.source x) = before ++ after := by
  obtain ⟨hself, hb, ha⟩ := sameEvent_unique hok hu
  rw [hu, List.filter_append, List.filter_cons_of_neg (by simp [hself]),
    List.filter_eq_self.2 (by simpa using hb), List.filter_eq_self.2 (by simpa using ha)]

end

/-! ### Raising -/

section
variable {s : State} {kind : EventKind} {src : EventSource} {d : Int}

theorem create_eq {u : EventUnit} (h : u.nextCreation ≤ 4294967295) :
    u.create kind src d = { u with
      entries := u.entries ++ [⟨kind, src, d, 0, false, u.nextCreation⟩]
      nextCreation := u.nextCreation + 1 } := by
  have hnext : u.nextNumber = (u.nextCreation, { u with nextCreation := u.nextCreation + 1 }) :=
    if_pos h
  rw [EventUnit.create, hnext]

/-- A repeat: the entry that stands for the event counts up, with the new detail, unsent (R170). -/
theorem raise_repeat (h : ∃ e ∈ s.events.entries, sameEvent kind src e = true) :
    s.raise kind src d = ({ s with
      events := { s.events with
        entries := s.events.entries.map fun e =>
          if sameEvent kind src e then
            { e with repeats := min (e.repeats + 1) 255, detail := d, sent := false }
          else e } } : State).sendReports := by
  have hany : s.events.entries.any (sameEvent kind src) = true := List.any_eq_true.2 h
  simp only [State.raise, EventUnit.raise, hany, if_true]
  rfl

theorem any_sameEvent_false (h : ∀ e ∈ s.events.entries, sameEvent kind src e = false) :
    ¬s.events.entries.any (sameEvent kind src) = true := by
  simpa using h

/-- An event that is not pending makes a new entry while there is room (R170). -/
theorem raise_new (h : ∀ e ∈ s.events.entries, sameEvent kind src e = false)
    (hroom : s.events.entries.length < 96) (hnext : s.events.nextCreation ≤ 4294967295) :
    s.raise kind src d = ({ s with
      events := { s.events with
        entries := s.events.entries ++ [⟨kind, src, d, 0, false, s.events.nextCreation⟩]
        nextCreation := s.events.nextCreation + 1 } } : State).sendReports := by
  have hraise : s.events.raise kind src d = (s.events.create kind src d, true) :=
    (if_neg (any_sameEvent_false h)).trans (if_pos hroom)
  simp only [State.raise, hraise, create_eq hnext, if_true]

section
variable (h : ∀ e ∈ s.events.entries, sameEvent kind src e = false)
  (hfull : s.events.entries.length = 96) {old : EventEntry}
  (hold : oldestLowest s.events.entries = some old)
include h hfull hold

theorem raiseUnit_full : s.events.raise kind src d =
    if classCode (eventClass kind) ≤ classCode (eventClass old.kind) then
      (({ s.events with
        entries := s.events.entries.filter fun x => !sameEvent old.kind old.source x } :
          EventUnit).create kind src d |>.countDisplaced, true)
    else (s.events.countDisplaced, false) := by
  have hno : ¬s.events.entries.length < Config.maxEvents := by rw [hfull]; decide
  rw [EventUnit.raise, if_neg (any_sameEvent_false h), if_neg hno, hold]

/-- An event below the lowest class of a full set is not entered, only counted (R170). -/
theorem raise_displaced
    (hlow : classCode (eventClass old.kind) < classCode (eventClass kind)) :
    s.raise kind src d = { s with
      events := { s.events with displaced := min (s.events.displaced + 1) 255 } } := by
  simp only [State.raise, raiseUnit_full h hfull hold, if_neg hlow.not_ge]
  rfl

/-- At a full set the oldest entry of the lowest class gives way (R170). -/
theorem raise_displaces (hnext : s.events.nextCreation ≤ 4294967295) {before after : List EventEntry}
    (hkept : (s.events.entries.filter fun x => !sameEvent old.kind old.source x) = before ++ after)
    (hhigh : classCode (eventClass kind) ≤ classCode (eventClass old.kind)) :
    s.raise kind src d = ({ s with
      events := { s.events with
        entries := before ++ after ++ [⟨kind, src, d, 0, false, s.events.nextCreation⟩]
        nextCreation := s.events.nextCreation + 1
        displaced := min (s.events.displaced + 1) 255 } } : State).sendReports := by
  simp only [State.raise, raiseUnit_full h hfull hold, if_pos hhigh, hkept]
  rw [create_eq (u := { s.events with entries := before ++ after }) hnext]
  rfl

end

end

/-- Settles O12: repeated, new, or new at the cost of the oldest entry of the lowest class. -/
theorem raiseKeepsPendingSet : Obligations.RaiseKeepsPendingSet := by
  refine fun s kind src d hok hnext => ⟨raise_repeat, fun hnew hroom => raise_new hnew hroom hnext,
    fun old before after hnew hfull hu hbefore hafter => ?_⟩
  have hold : oldestLowest s.events.entries = some old := hu ▸ oldestLowest_middle hbefore hafter
  exact ⟨raise_displaces hnew hfull hold hnext (filter_middle hok hu),
    raise_displaced hnew hfull hold⟩

/-! ### Sending -/

/-- Once the fuel covers the free frames, more of it sends no more (R171). -/
theorem sendReportsN_succ (n : Nat) (s : State) (h : s.freeFrames ≤ n + 1) :
    State.sendReportsN (n + 1) s = State.sendReportsN n s := by
  induction n generalizing s with
  | zero => exact if_pos (by omega)
  | succ n ih =>
    rw [State.sendReportsN, State.sendReportsN]
    split
    · rfl
    · split
      · rfl
      · refine ih _ ?_
        simp only [State.freeFrames, State.queueFrame, modLink_link, List.length_append,
          List.length_singleton] at h ⊢
        omega

/-- The first eligible entry goes out, and the sending goes on. -/
theorem sendReports_first {s : State} {e : EventEntry} (hroom : s.link.outbound.length ≤ 6)
    (he : firstInOrder (sendable s.events.gateOpen) s.events.entries = some e) :
    s.sendReports = ({ s with
      link := { s.link with
        outbound := s.link.outbound ++ [⟨0x90, eventBody (Config.freeHalf s.free 3) e⟩] }
      events := { s.events with entries := markSent e s.events.entries }
      free := s.free + 1 } : State).sendReports := by
  have hfree : ¬s.freeFrames < 2 := by
    simp only [State.freeFrames, Config.maxFrames]
    omega
  have hstep : s.sendReports = State.sendReportsN 7 { s with
      link := { s.link with
        outbound := s.link.outbound ++ [⟨0x90, eventBody (Config.freeHalf s.free 3) e⟩] }
      events := { s.events with entries := markSent e s.events.entries }
      free := s.free + 1 } := by
    rw [State.sendReports, Config.maxFrames, State.sendReportsN, if_neg hfree, he]
    rfl
  rw [hstep]
  refine (sendReportsN_succ 7 _ ?_).symm
  simp only [State.freeFrames, Config.maxFrames]
  omega

/-- What is sent is reports, behind the frames that were queued. -/
theorem sendReportsN_outbound (n : Nat) (s : State) :
    ∃ sent, (State.sendReportsN n s).link.outbound = s.link.outbound ++ sent
      ∧ ∀ f ∈ sent, f.kind = 0x90 ∧ f.body.length = 14 := by
  induction n generalizing s with
  | zero => exact ⟨[], (List.append_nil _).symm, by simp⟩
  | succ n ih =>
    unfold State.sendReportsN
    split
    · exact ⟨[], (List.append_nil _).symm, by simp⟩
    · split
      · exact ⟨[], (List.append_nil _).symm, by simp⟩
      · rename_i e _
        obtain ⟨sent, hout, hsent⟩ := ih { s.queueFrame ⟨0x90, eventBody (Config.freeHalf s.free 3) e⟩ with
          events := { s.events with entries := markSent e s.events.entries }, free := s.free + 1 }
        refine ⟨⟨0x90, eventBody (Config.freeHalf s.free 3) e⟩ :: sent, hout.trans ?_, ?_⟩
        · exact List.append_assoc _ _ _
        · intro f hf
          rcases List.mem_cons.1 hf with rfl | hf
          · exact ⟨rfl, length_eventBody _ _⟩
          · exact hsent f hf

theorem sendable_iff (gateOpen : Bool) (e : EventEntry) :
    sendable gateOpen e = true
      ↔ e.sent = false ∧ (eventClass e.kind = .alarm ∨ gateOpen = true) := by
  simp [sendable]

theorem firstInOrder_eq_none {p : EventEntry → Bool} {es : List EventEntry}
    (h : ∀ e ∈ es, p e = false) : firstInOrder p es = none := by
  have hnone : es.find? p = none := List.find?_eq_none.2 (by simpa using h)
  have hclass (k : EventClass) : (es.find? fun e => p e && decide (eventClass e.kind = k)) = none :=
    List.find?_eq_none.2 fun e he => by simp [h e he]
  simp only [firstInOrder, hclass, hnone]

/-- Settles O13: while two frames are free and an entry may go, the first in order goes. -/
theorem sendingKeepsLastFrame : Obligations.SendingKeepsLastFrame := by
  intro s
  refine ⟨fun hroom => ?kept, fun hfull => ?full, fun hnone => ?none,
    fun e before after filler hok hu hfiller hroom hmay hbefore hafter => ?first, ?reports⟩
  case kept =>
    refine sendReportsN_link (fun l => l.outbound.length ≤ 7) (fun l f hf _ => ?_) _ s hroom
    simp only [Config.maxFrames] at hf
    simp only [List.length_append, List.length_singleton]
    omega
  case full => exact sendReports_of_full hfull
  case none =>
    refine sendReports_none s (firstInOrder_eq_none fun e he => ?_)
    rw [← Bool.not_eq_true, sendable_iff]
    rcases hnone e he with hsent | ⟨hgate, hclass⟩
    · simp [hsent]
    · simp [hgate, hclass]
  case first =>
    have hfirst : firstInOrder (sendable s.events.gateOpen) s.events.entries = some e := by
      rw [hu]
      refine firstInOrder_middle ((sendable_iff _ _).2 hmay) (fun x hx hp => ?_) fun x hx hp => ?_
      · exact hbefore x hx ((sendable_iff _ _).1 hp)
      · exact hafter x hx ((sendable_iff _ _).1 hp)
    rw [sendReports_first hroom hfirst, markSent_middle hok hu, eventBody_eq, hfiller]
  case reports =>
    obtain ⟨sent, hout, hsent⟩ := sendReportsN_outbound Config.maxFrames s
    refine ⟨sent.length, ?_, ?_, ?_⟩
    · rw [State.sendReports, hout, List.take_left']
      rfl
    · rw [State.sendReports, hout, List.length_append]
    · rw [State.sendReports, hout, List.drop_left']
      · exact hsent
      · rfl

end Sys2Proof.Machine
end

section
/-! The shared operations: content changes (O15), the judgement of a return entry (O16), merging runs
(O17), claimable zones (O19), the zone law (O20), and the release of a place claim (O22). -/

namespace Sys2Proof.Machine

/-! ### Content changes -/

/-- A sequencer that has taken a content-change notice while HELD (R136). -/
def Sequencer.toldContent (q : Sequencer) : Sequencer :=
  if q.state = .held then { q with latched := { q.latched with content := true } } else q

theorem waitsAt_state {q : Sequencer} {p : Place} (h : q.waitsAt p = true) : q.state = .sawWait := by
  unfold Sequencer.waitsAt at h
  split at h
  · assumption
  · cases h

theorem seq_set_sq (s : State) (c : Carriage) : s.seq.set c (s.sq c) = s.seq := set_get _ _

/-- A content change tells a carriage what it waits for, by its state (R36, R76, R88). -/
theorem contentNotice_eq (s : State) (p : Place) (c : Carriage) :
    s.contentNotice p c = { s with
      seq := s.seq.set c (s.sq c).toldContent
      todo := { s.todo with
        blocked := s.todo.blocked.set c (s.todo.blocked.get c || decide ((s.sq c).state = .blocked))
        wait := s.todo.wait.set c (s.todo.wait.get c || (s.sq c).waitsAt p) } } := by
  unfold State.contentNotice
  split
  · rename_i hwaits
    have hstate := waitsAt_state hwaits
    have htold : (s.sq c).toldContent = s.sq c := if_neg (by simp [hstate])
    simp [State.nudgeWait, htold, hstate, hwaits, seq_set_sq]
  · rename_i hwaits
    unfold State.nudgeBlocked
    split
    · rename_i hstate
      have htold : (s.sq c).toldContent = s.sq c := if_neg (by simp [hstate])
      simp [htold, hstate, hwaits, seq_set_sq]
    · rename_i hstate
      simp [State.modSeq, Sequencer.toldContent, hstate, hwaits]
    · rename_i hblocked hheld
      have hnot : ¬(s.sq c).state = .blocked := hblocked
      have htold : (s.sq c).toldContent = s.sq c := if_neg hheld
      simp [htold, hnot, hwaits, seq_set_sq]

theorem noticed_state (q : Sequencer) : (noticed q).state = q.state := by
  unfold noticed
  split <;> [rfl; split <;> rfl]

theorem noticed_work (q : Sequencer) : (noticed q).work = q.work := by
  unfold noticed
  split <;> [rfl; split <;> rfl]

theorem waitsAt_congr {q r : Sequencer} (p : Place) (hstate : q.state = r.state)
    (hwork : q.work = r.work) : q.waitsAt p = r.waitsAt p := by
  simp only [Sequencer.waitsAt, hstate, hwork]

/-- A requeue changes order entries and what a work notice changes of the sequencers. -/
theorem requeueWhere_frame (s : State) (f : OrderEntry → Bool) :
    ∃ entries v, s.requeueWhere f
        = { s with queue := { s.queue with entries := entries }, seq := v }
      ∧ (v = s.seq ∨ v = ⟨noticed s.seq.a, noticed s.seq.b⟩) := by
  rw [requeueWhere_eq]
  split
  · rw [workNotice_eq]
    exact ⟨_, _, rfl, .inr rfl⟩
  · exact ⟨_, _, rfl, .inl rfl⟩

theorem requeueWhere_sq (s : State) (f : OrderEntry → Bool) (c : Carriage) :
    (s.requeueWhere f).sq c = s.sq c ∨ (s.requeueWhere f).sq c = noticed (s.sq c) := by
  obtain ⟨entries, v, heq, rfl | rfl⟩ := requeueWhere_frame s f
  · exact .inl (by rw [heq]; rfl)
  · exact .inr (by rw [heq]; cases c <;> rfl)

theorem requeueWhere_state (s : State) (f : OrderEntry → Bool) (c : Carriage) :
    ((s.requeueWhere f).sq c).state = (s.sq c).state := by
  rcases requeueWhere_sq s f c with h | h
  · rw [h]
  · rw [h, noticed_state]

theorem requeueWhere_work (s : State) (f : OrderEntry → Bool) (c : Carriage) :
    ((s.requeueWhere f).sq c).work = (s.sq c).work := by
  rcases requeueWhere_sq s f c with h | h
  · rw [h]
  · rw [h, noticed_work]

/-- The notices of a content change, to both carriages, after the requeue (R36). -/
theorem contentNotices_eq (s : State) (p : Place) :
    (s.requeueStarved.contentNotice p .A).contentNotice p .B = { s.requeueStarved with
      seq := ⟨(s.requeueStarved.sq .A).toldContent, (s.requeueStarved.sq .B).toldContent⟩
      todo := ⟨s.todo.exam,
        ⟨s.todo.blocked.a || (s.sq .A).state = .blocked,
          s.todo.blocked.b || (s.sq .B).state = .blocked⟩,
        ⟨s.todo.wait.a || (s.sq .A).waitsAt p, s.todo.wait.b || (s.sq .B).waitsAt p⟩⟩ } := by
  have htodo : s.requeueStarved.todo = s.todo := by
    obtain ⟨entries, v, heq, -⟩ := requeueWhere_frame s (·.isStarved)
    rw [State.requeueStarved, heq]
  have hstateA : s.requeueStarved.seq.a.state = s.seq.a.state := requeueWhere_state s _ .A
  have hstateB : s.requeueStarved.seq.b.state = s.seq.b.state := requeueWhere_state s _ .B
  have hwaitsA : s.requeueStarved.seq.a.waitsAt p = s.seq.a.waitsAt p :=
    waitsAt_congr p hstateA (requeueWhere_work s _ .A)
  have hwaitsB : s.requeueStarved.seq.b.waitsAt p = s.seq.b.waitsAt p :=
    waitsAt_congr p hstateB (requeueWhere_work s _ .B)
  rw [contentNotice_eq, contentNotice_eq]
  simp only [State.sq, PerCarriage.get, PerCarriage.set, htodo, hstateA, hstateB, hwaitsA, hwaitsB]
  rfl

/-- The sequencer of a carriage in `s1`, told of a content change if the carriage was HELD in `s`. -/
def State.toldIn (s s1 : State) (c : Carriage) : Sequencer :=
  if (s.sq c).state = .held then
    { s1.sq c with latched := { (s1.sq c).latched with content := true } }
  else s1.sq c

theorem toldContent_eq {s s1 : State} {c : Carriage} (h : (s1.sq c).state = (s.sq c).state) :
    (s1.sq c).toldContent = s.toldIn s1 c := by
  by_cases hc : (s.sq c).state = .held
  · rw [Sequencer.toldContent, State.toldIn, if_pos hc, if_pos (h.trans hc)]
  · rw [Sequencer.toldContent, State.toldIn, if_neg hc, if_neg fun e => hc (h.symm.trans e)]

/-- The state after the notices of a content change (R36), before the count of a return place goes on. -/
def State.noticedContent (s : State) (p : Place) (st : StackState) (runs : List Run) : State :=
  let s1 := ({ s with
    stackRecs := s.stackRecs.set p.val
      (s.stackRecs[p].map fun r => { r with state := st, runs := runs }) } : State).requeueWhere
        OrderEntry.isStarved
  { s1 with
    seq := ⟨s.toldIn s1 .A, s.toldIn s1 .B⟩
    todo := ⟨s.todo.exam,
      ⟨s.todo.blocked.a || (s.sq .A).state = .blocked,
        s.todo.blocked.b || (s.sq .B).state = .blocked⟩,
      ⟨s.todo.wait.a || (s.sq .A).waitsAt p, s.todo.wait.b || (s.sq .B).waitsAt p⟩⟩ }

theorem noticedContent_cell (s : State) (p : Place) (st : StackState) (runs : List Run) :
    (s.noticedContent p st runs).cell = s.cell := by
  obtain ⟨entries, v, heq, -⟩ := requeueWhere_frame
    (s.modStack p fun r => { r with state := st, runs := runs }) (·.isStarved)
  have h := congrArg State.cell heq
  exact h

theorem noticedContent_stackRecs (s : State) (p : Place) (st : StackState) (runs : List Run) :
    (s.noticedContent p st runs).stackRecs = s.stackRecs.set p.val
      (s.stackRecs[p].map fun r => { r with state := st, runs := runs }) := by
  obtain ⟨entries, v, heq, -⟩ := requeueWhere_frame
    (s.modStack p fun r => { r with state := st, runs := runs }) (·.isStarved)
  have h := congrArg State.stackRecs heq
  exact h

theorem noticedContent_eq (s : State) (p : Place) (st : StackState) (runs : List Run) :
    ((s.modStack p fun r => { r with state := st, runs := runs }).requeueStarved.contentNotice p
      .A).contentNotice p .B = s.noticedContent p st runs := by
  have htold (c : Carriage) := toldContent_eq (s := s) (c := c)
    (s1 := (s.modStack p fun r => { r with state := st, runs := runs }).requeueStarved)
    (requeueWhere_state _ _ c)
  rw [contentNotices_eq, htold .A, htold .B]
  rfl

section
variable {s : State} {p : Place} {st : StackState} {runs : List Run}

theorem noticedContent_runsAt (h : s.stackRecs[p] ≠ none) :
    (s.noticedContent p st runs).runsAt p = runs
      ∧ (s.noticedContent p st runs).stackState p = some st := by
  obtain ⟨r, hr⟩ := Option.ne_none_iff_exists'.1 h
  simp [State.runsAt, State.stackState, noticedContent_stackRecs, hr]

/-- A change of a place that is no saw's return place ends with its notices. -/
theorem setStack_notices (h : s.cell.places[p].kind ≠ .return_ ∨ s.cell.places[p].saw = none) :
    s.setStack p st runs = s.noticedContent p st runs := by
  unfold State.setStack State.contentChange
  dsimp only
  rw [noticedContent_eq]
  simp only [State.kindAt, noticedContent_cell]
  split
  · simp_all
  · rfl

/-- A change of a saw's return place goes on with its count (R45, R165). -/
theorem setStack_return {w : Saw} (hkind : s.cell.places[p].kind = .return_)
    (hsaw : s.cell.places[p].saw = some w) (h : s.stackRecs[p] ≠ none) :
    s.setStack p st runs = ((s.noticedContent p st runs).handCount w (knownCount runs)
      (st = .ready)).permitByCount w (knownCount runs) := by
  obtain ⟨hruns, hstate⟩ := noticedContent_runsAt (st := st) (runs := runs) h
  unfold State.setStack State.contentChange
  dsimp only
  rw [noticedContent_eq]
  simp only [State.kindAt, noticedContent_cell, hkind, hsaw, hruns, hstate, Option.some.injEq]

end

/-- Settles O15: the notices in turn, then the count of a return place. -/
theorem contentChangeNotices : Obligations.ContentChangeNotices :=
  fun _ _ _ _ => ⟨setStack_notices, fun _ => setStack_return⟩

/-! ### The judgement of a return entry -/

theorem isDue_iff (r : ReturnEntry) (trigger : Nat) :
    r.isDue trigger = true
      ↔ r.ready = true ∧ 1 ≤ r.count ∧ (trigger ≤ r.count ∨ r.withdrawn = true) := by
  simp [ReturnEntry.isDue, and_assoc]

theorem takeRank_eq {q : OrderQueue} (h : q.nextRank ≤ 4294967295) :
    q.takeRank = (q.nextRank, { q with nextRank := q.nextRank + 1 }) := by
  have hq : (if q.nextRank ≤ Config.maxRank then q else q.renumber) = q := if_pos h
  rw [OrderQueue.takeRank, hq]

section
variable {s : State} {w : Saw} {r : ReturnEntry} (hr : s.queue.returns[w] = some r)
include hr

/-- An entry found due takes the next rank and causes the work notice (R46). -/
theorem judge_becomesDue (hrank : s.queue.nextRank ≤ 4294967295) (hstate : r.state = .notDue)
    (hdue : r.isDue s.cell.trigger = true) :
    s.judge w = { s with
      queue := { s.queue with
        returns := s.queue.returns.set w.val (some { r with state := .due s.queue.nextRank })
        nextRank := s.queue.nextRank + 1 }
      seq := ⟨noticed s.seq.a, noticed s.seq.b⟩ } := by
  simp only [State.judge, hr, hstate, hdue, if_true, takeRank_eq hrank, workNotice_eq,
    State.modReturn, Option.map_some]

theorem judge_staysNotDue (hstate : r.state = .notDue) (hdue : r.isDue s.cell.trigger = false) :
    s.judge w = s := by
  simp [State.judge, hr, hstate, hdue]

theorem judge_staysDue {n : Nat} (hstate : r.state = .due n) (hdue : r.isDue s.cell.trigger = true) :
    s.judge w = s := by
  simp [State.judge, hr, hstate, hdue]

theorem judge_becomesNotDue {n : Nat} (hstate : r.state = .due n)
    (hdue : r.isDue s.cell.trigger = false) :
    s.judge w = { s with
      queue := { s.queue with
        returns := s.queue.returns.set w.val (some { r with state := .notDue }) } } := by
  simp [State.judge, hr, hstate, hdue, State.modReturn]

theorem judge_held {c : Carriage} {n : Nat} (hstate : r.state = .taken c n ∨ r.state = .suspended c n) :
    s.judge w = s := by
  rcases hstate with h | h <;> simp [State.judge, hr, h]

end

/-- Settles O16: by the state of the entry and whether it is due. -/
theorem returnEntryJudged : Obligations.ReturnEntryJudged := by
  intro s w r hr hrank
  have hdue := isDue_iff r s.cell.trigger
  have hnot (h : ¬(r.ready = true ∧ 1 ≤ r.count ∧ (s.cell.trigger ≤ r.count ∨ r.withdrawn = true))) :
      r.isDue s.cell.trigger = false := by rwa [← Bool.not_eq_true, hdue]
  exact ⟨fun hs h => judge_becomesDue hr hrank hs (hdue.2 h), fun hs h => judge_staysNotDue hr hs (hnot h),
    fun n hs h => judge_staysDue hr hs (hdue.2 h), fun n hs h => judge_becomesNotDue hr hs (hnot h),
    fun c n hs => judge_held hr hs⟩

/-! ### Merging runs -/

theorem piecesOf_cons (r : Run) (rest : List Run) :
    piecesOf (r :: rest) = List.replicate (r.count.getD 0) r.piece ++ piecesOf rest := rfl

theorem piecesOf_append (a b : List Run) : piecesOf (a ++ b) = piecesOf a ++ piecesOf b :=
  List.flatMap_append

/-- Every count of the list is known. -/
def Known (runs : List Run) : Prop := ∀ r ∈ runs, r.count ≠ none

theorem known_cons {r : Run} {rest : List Run} : Known (r :: rest) ↔ r.count ≠ none ∧ Known rest :=
  List.forall_mem_cons

theorem addRun_same {r t : Run} (rest : List Run) (h : t.piece = r.piece) :
    addRun r (t :: rest) = { t with count :=
      match r.count, t.count with
      | some m, some n => some (m + n)
      | _, _ => none } :: rest := if_pos h

theorem addRun_other {r t : Run} (rest : List Run) (h : t.piece ≠ r.piece) :
    addRun r (t :: rest) = r :: t :: rest := if_neg h

section
variable {r : Run} {below : List Run} (hr : r.count ≠ none) (hbelow : Known below)
include hr hbelow

theorem addRun_known : Known (addRun r below) := by
  cases below with
  | nil => exact known_cons.2 ⟨hr, by simp [Known]⟩
  | cons t rest =>
    obtain ⟨ht, hrest⟩ := known_cons.1 hbelow
    obtain ⟨m, hm⟩ := Option.ne_none_iff_exists'.1 hr
    obtain ⟨n, hn⟩ := Option.ne_none_iff_exists'.1 ht
    by_cases hsame : t.piece = r.piece
    · rw [addRun_same rest hsame]
      exact known_cons.2 ⟨by simp [hm, hn], hrest⟩
    · rw [addRun_other rest hsame]
      exact known_cons.2 ⟨hr, hbelow⟩

theorem piecesOf_addRun :
    piecesOf (addRun r below) = List.replicate (r.count.getD 0) r.piece ++ piecesOf below := by
  cases below with
  | nil => rfl
  | cons t rest =>
    obtain ⟨ht, -⟩ := known_cons.1 hbelow
    obtain ⟨m, hm⟩ := Option.ne_none_iff_exists'.1 hr
    obtain ⟨n, hn⟩ := Option.ne_none_iff_exists'.1 ht
    by_cases hsame : t.piece = r.piece
    · simp only [addRun_same rest hsame, piecesOf_cons, hm, hn, Option.getD_some, hsame,
        List.replicate_add, List.append_assoc]
    · rw [addRun_other rest hsame, piecesOf_cons]

end

theorem addRun_noEqualNeighbours {r : Run} {below : List Run} (h : noEqualNeighbours below) :
    noEqualNeighbours (addRun r below) := by
  cases below with
  | nil => exact List.isChain_singleton r
  | cons t rest =>
    by_cases hsame : t.piece = r.piece
    · rw [addRun_same rest hsame]
      cases rest with
      | nil => exact List.isChain_singleton _
      | cons u rest => exact List.isChain_cons_cons.2 (List.isChain_cons_cons.1 h)
    · rw [addRun_other rest hsame]
      exact List.isChain_cons_cons.2 ⟨fun e => hsame e.symm, h⟩

theorem layRuns_known {added below : List Run} (ha : Known added) (hb : Known below) :
    Known (layRuns added below) := by
  induction added with
  | nil => exact hb
  | cons r rest ih =>
    obtain ⟨hr, hrest⟩ := known_cons.1 ha
    exact addRun_known hr (ih hrest)

theorem piecesOf_layRuns {added below : List Run} (ha : Known added) (hb : Known below) :
    piecesOf (layRuns added below) = piecesOf added ++ piecesOf below := by
  induction added with
  | nil => rfl
  | cons r rest ih =>
    obtain ⟨hr, hrest⟩ := known_cons.1 ha
    change piecesOf (addRun r (layRuns rest below)) = _
    rw [piecesOf_addRun hr (layRuns_known hrest hb), ih hrest, piecesOf_cons, List.append_assoc]

theorem layRuns_noEqualNeighbours (added : List Run) {below : List Run}
    (h : noEqualNeighbours below) : noEqualNeighbours (layRuns added below) := by
  induction added with
  | nil => exact h
  | cons r rest ih => exact addRun_noEqualNeighbours ih

theorem pieceCount_known {runs : List Run} (h : Known runs) :
    pieceCount runs = some (piecesOf runs).length := by
  induction runs with
  | nil => rfl
  | cons r rest ih =>
    obtain ⟨hr, hrest⟩ := known_cons.1 h
    obtain ⟨n, hn⟩ := Option.ne_none_iff_exists'.1 hr
    simp [pieceCount, ih hrest, hn, piecesOf_cons]

/-- Settles O17: run by run, from the lowest of the added ones up. -/
theorem runsMerge : Obligations.RunsMerge := by
  intro added below h
  have ha : Known added := fun r hr => h r (List.mem_append_left _ hr)
  have hb : Known below := fun r hr => h r (List.mem_append_right _ hr)
  refine ⟨piecesOf_layRuns ha hb, layRuns_noEqualNeighbours added, ?_⟩
  rw [pieceCount_known (layRuns_known ha hb), piecesOf_layRuns ha hb, piecesOf_append]

/-! ### Zones -/

theorem holder_eq (s : State) (z : Fin 16) : s.holder z.val = s.arb.zones[z].holder := by
  simp [State.holder]

theorem zoneClosed_eq_false (s : State) (z : Fin 16) :
    s.zoneClosed z.val = false ↔ ∀ k : Fin 7, s.arb.zones[z].sources[k] = false := by
  simp only [State.zoneClosed, z.isLt, dif_pos, List.any_eq_false, Vector.mem_toList_iff, id_eq,
    Bool.not_eq_true]
  constructor
  · intro h k
    exact h _ (Vector.getElem_mem _)
  · intro h x hx
    obtain ⟨i, hi, rfl⟩ := Vector.getElem_of_mem hx
    exact h ⟨i, hi⟩

theorem inOptRange_iff (r : Option ZoneRange) (z : Nat) :
    inOptRange r z = true ↔ ∃ x, r = some x ∧ x.first ≤ z ∧ z ≤ x.last := by
  cases r <;> simp [inOptRange, inRange]

theorem awaitingRange_iff (g : GateRec) (r : ZoneRange) :
    g.awaitingRange = some r ↔ g.state = .awaiting (some r) := by
  unfold GateRec.awaitingRange
  split <;> simp_all

/-- A zone lies in an AWAITING range (R91). -/
theorem awaited_iff (s : State) (z : Nat) : s.awaited z = true ↔
    (∃ (g : Gate) (r : ZoneRange), s.arb.gates[g].state = .awaiting (some r)
      ∧ r.first ≤ z ∧ z ≤ r.last)
    ∨ ∃ r, s.arb.host.awaiting = some r ∧ r.first ≤ z ∧ z ≤ r.last := by
  simp only [State.awaited, Bool.or_eq_true, inOptRange_iff, awaitingRange_iff, Fin.exists_fin_two]

theorem homeSide_iff (c : Carriage) (cur z : Nat) :
    homeSide c cur z = true ↔ (c = .A → z ≤ cur) ∧ (c = .B → cur ≤ z) := by
  cases c <;> simp [homeSide]

theorem inReach_iff (c : Carriage) (z : Fin 16) :
    inReach c z.val = true ↔ (c = .A → z.val ≤ 14) ∧ (c = .B → 1 ≤ z.val) := by
  cases c
  · simp [inReach]
  · have hz : z.val ≤ 15 := by omega
    simp [inReach, hz]

/-- The rear of a carriage that is not referenced: the zones up to it, seen from the other (R91). -/
theorem behindRear_iff (s : State) (c : Carriage) (z : Nat) :
    (let o := (s.sq (other c)).state
      if o = .unreferenced || o = .homing then
        (match (s.arec c).zone with
          | some cur => !homeSide c cur z
          | none => true)
      else false) = false
      ↔ ((s.sq (other c)).state = .unreferenced ∨ (s.sq (other c)).state = .homing →
        ∃ cur, (s.arec c).zone = some cur ∧ (c = .A → z ≤ cur) ∧ (c = .B → cur ≤ z)) := by
  dsimp only
  split
  · rename_i ho
    rw [Bool.or_eq_true, decide_eq_true_eq, decide_eq_true_eq] at ho
    cases (s.arec c).zone <;> simp [ho, homeSide_iff]
  · rename_i ho
    rw [Bool.or_eq_true, decide_eq_true_eq, decide_eq_true_eq] at ho
    simp [ho]

/-- Settles O19: the causes that block a zone, one by one. -/
theorem zoneClaimable : Obligations.ZoneClaimable := by
  intro s c clearOut z
  dsimp only
  rw [← behindRear_iff, ← inReach_iff, ← zoneClosed_eq_false, ← awaited_iff, ← holder_eq]
  simp only [State.claimable, State.blockedOther, State.blockedHard, Bool.and_eq_true,
    Bool.not_eq_true', Bool.or_eq_false_iff, Bool.and_eq_false_iff, decide_eq_false_iff_not,
    Bool.not_eq_false', Bool.not_eq_true]
  tauto

/-- A claimable zone is not held by the other carriage. -/
theorem holder_of_claimable {s : State} {c : Carriage} {clearOut : Bool} {z : Nat}
    (h : s.claimable c clearOut z = true) : s.holder z ≠ some (other c) := by
  simp only [State.claimable, State.blockedOther, Bool.and_eq_true, Bool.not_eq_true',
    decide_eq_false_iff_not] at h
  exact h.1

theorem mem_rangeZones {r : ZoneRange} {z : Nat} :
    z ∈ rangeZones r ↔ z < 16 ∧ r.first ≤ z ∧ z ≤ r.last := by
  simp [rangeZones, inRange]

theorem inRange_iff {r : ZoneRange} {z : Nat} : inRange r z = true ↔ r.first ≤ z ∧ z ≤ r.last := by
  simp [inRange]

theorem spanClaimable_iff (s : State) (c : Carriage) (clearOut : Bool) (r : ZoneRange) :
    s.spanClaimable c clearOut r = true
      ↔ ∀ z < 16, inRange r z = true → s.claimable c clearOut z = true := by
  simp only [State.spanClaimable, List.all_eq_true, mem_rangeZones, inRange_iff, and_imp]

theorem holdZones_holder (s : State) (c : Carriage) (p : Nat → Bool) (z : Fin 16) :
    (s.holdZones c p).arb.zones[z].holder
      = if p z.val then some c else s.arb.zones[z].holder := by
  simp only [State.holdZones, mapZones_arb, Fin.getElem_fin, Vector.getElem_ofFn]
  split <;> rfl

/-- Settles O20: a zone of the span that comes anew lies between two zones that are the carriage's, or
beyond its target; there no zone of the other lies between. -/
theorem grantKeepsZoneLaw : Obligations.GrantKeepsZoneLaw := by
  intro s c cur target clearOut hlaw hcur htarget hspan x y hx hy
  have hfree (z : Fin 16) (hz : inRange (spanOf cur.val target) z.val = true) :
      s.arb.zones[z].holder ≠ some (other c) := by
    rw [← holder_eq]
    exact holder_of_claimable ((spanClaimable_iff ..).1 hspan z.val z.isLt hz)
  rw [holdZones_holder] at hx hy
  cases c with
  | A =>
    have hyout : ¬inRange (spanOf cur.val target) y.val = true := fun hin => by simp [hin] at hy
    rw [if_neg hyout] at hy
    have hcy : cur < y := hlaw cur y hcur hy
    split at hx
    · rename_i hin
      rw [inRange_iff, spanOf] at hin hyout
      dsimp only at hin hyout
      omega
    · exact hlaw x y hx hy
  | B =>
    have hxout : ¬inRange (spanOf cur.val target) x.val = true := fun hin => by simp [hin] at hx
    rw [if_neg hxout] at hx
    have hxc : x < cur := hlaw x cur hx hcur
    split at hy
    · rename_i hin
      rw [inRange_iff, spanOf] at hin hxout
      dsimp only at hin hxout
      omega
    · exact hlaw x y hx hy

/-! ### The release of a place claim -/

/-- A sequencer that has taken the notice of a release while HELD (R136). -/
def Sequencer.toldRelease (q : Sequencer) : Sequencer :=
  if q.state = .held then { q with latched := { q.latched with release := true } } else q

theorem nudgeBlocked_release (s : State) (c : Carriage) :
    s.nudgeBlocked c (fun l => { l with release := true }) = { s with
      seq := s.seq.set c (s.sq c).toldRelease
      todo := { s.todo with blocked :=
        if (s.sq c).state = .blocked then s.todo.blocked.set c true else s.todo.blocked } } := by
  unfold State.nudgeBlocked
  split
  · rename_i hstate
    have htold : (s.sq c).toldRelease = s.sq c := if_neg (by simp [hstate])
    simp [htold, hstate, seq_set_sq]
  · rename_i hstate
    simp [State.modSeq, Sequencer.toldRelease, hstate]
  · rename_i hblocked hheld
    have hnot : ¬(s.sq c).state = .blocked := hblocked
    have htold : (s.sq c).toldRelease = s.sq c := if_neg hheld
    simp [htold, hnot, seq_set_sq]

theorem userAt_eq {s : State} {p : Place} {r : StackRec} (hr : s.stackRecs[p] = some r) :
    s.userAt p = r.user := by
  simp [State.userAt, hr]

theorem setUser_eq {s : State} {p : Place} {r : StackRec} (hr : s.stackRecs[p] = some r)
    (u : Option Carriage) :
    s.setUser p u = { s with stackRecs := s.stackRecs.set p.val (some { r with user := u }) } := by
  simp [State.setUser, State.modStack, hr]

theorem servable_iff (x : SawStation) : x.servable = true ↔ x.state = .opened ∨ x.state = .closed := by
  simp [SawStation.servable]

/-- No release waits for the user of the place: nothing more follows from its clearing (R151). -/
theorem userCleared_of_none {s : State} {p : Place}
    (h : ∀ w, s.cell.places[p].kind = .infeed → s.cell.places[p].saw = some w →
      s.saws[w].releasePending = false
        ∨ (s.saws[w].state ≠ .opened ∧ s.saws[w].state ≠ .closed)) : s.userCleared p = s := by
  unfold State.userCleared
  split
  · rename_i w hkind hsaw
    refine if_neg ?_
    rw [Bool.and_eq_true, servable_iff]
    rintro ⟨hpending, hstate⟩
    rcases h w hkind hsaw with h | h
    · exact Bool.false_ne_true (h.symm.trans hpending)
    · exact hstate.elim h.1 h.2
  · rfl

/-- A release that waits for the user goes to the saw (R151). -/
theorem userCleared_releases {s : State} {p : Place} {w : Saw} (hkind : s.cell.places[p].kind = .infeed)
    (hsaw : s.cell.places[p].saw = some w) (hpending : s.saws[w].releasePending = true)
    (hstate : s.saws[w].state = .opened ∨ s.saws[w].state = .closed) :
    s.userCleared p = s.releaseBook w := by
  unfold State.userCleared State.kindAt
  rw [hkind, hsaw]
  exact if_pos (by rw [Bool.and_eq_true, servable_iff]; exact ⟨hpending, hstate⟩)

/-- Settles O22: another's place is left; one's own is freed, and the other carriage told. -/
theorem placeClaimReleased : Obligations.PlaceClaimReleased := by
  intro s c p r hr
  have hrelease (huser : r.user = some c) : s.releasePlace c p
      = ((s.setUser p none).userCleared p).nudgeBlocked (other c)
        fun l => { l with release := true } := if_pos (by rw [userAt_eq hr, huser])
  refine ⟨fun huser => ?other, fun huser hnone => ?freed, fun w huser hkind hsaw hpending hstate => ?book⟩
  case other => exact if_neg (by rwa [userAt_eq hr])
  case freed =>
    rw [hrelease huser, userCleared_of_none (s := s.setUser p none) hnone, nudgeBlocked_release,
      setUser_eq hr]
    rfl
  case book =>
    rw [hrelease huser, userCleared_releases (s := s.setUser p none) hkind hsaw hpending hstate,
      nudgeBlocked_release, setUser_eq hr]
    rfl

end Sys2Proof.Machine
end

section
/-! The answer to a work request (O21): the walk offers the first eligible candidate, and the candidates
stand in the order of R48. -/

namespace Sys2Proof.Machine

/-! ### Rank order -/

theorem insertRanked_perm (x : Nat × Candidate) (xs : List (Nat × Candidate)) :
    (insertRanked x xs).Perm (x :: xs) := by
  induction xs with
  | nil => exact List.Perm.refl _
  | cons y rest ih =>
    unfold insertRanked
    split
    · exact List.Perm.refl _
    · exact (ih.cons y).trans (List.Perm.swap x y rest)

theorem insertRanked_sorted {x : Nat × Candidate} {xs : List (Nat × Candidate)}
    (h : xs.Pairwise fun a b => a.1 ≤ b.1) : (insertRanked x xs).Pairwise fun a b => a.1 ≤ b.1 := by
  induction xs with
  | nil => exact List.pairwise_singleton _ _
  | cons y rest ih =>
    obtain ⟨hy, hrest⟩ := List.pairwise_cons.1 h
    unfold insertRanked
    split
    · rename_i hxy
      refine List.pairwise_cons.2 ⟨fun z hz => ?_, h⟩
      rcases List.mem_cons.1 hz with rfl | hz
      · exact hxy
      · exact hxy.trans (hy z hz)
    · rename_i hxy
      refine List.pairwise_cons.2 ⟨fun z hz => ?_, ih hrest⟩
      rcases List.mem_cons.1 ((insertRanked_perm x rest).mem_iff.1 hz) with rfl | hz
      · omega
      · exact hy z hz

/-- The candidates with their ranks, in rising rank. -/
def sortRanked (xs : List (Nat × Candidate)) : List (Nat × Candidate) := xs.foldr insertRanked []

theorem sortRanked_perm (xs : List (Nat × Candidate)) : (sortRanked xs).Perm xs := by
  induction xs with
  | nil => exact List.Perm.refl _
  | cons x rest ih => exact (insertRanked_perm x (sortRanked rest)).trans (ih.cons x)

theorem sortRanked_sorted (xs : List (Nat × Candidate)) :
    (sortRanked xs).Pairwise fun a b => a.1 ≤ b.1 := by
  induction xs with
  | nil => exact List.Pairwise.nil
  | cons x rest ih => exact insertRanked_sorted ih

/-- A candidate of `xs` that `good` picks out, with its rank. -/
def GoodAt (good : Candidate → Bool) (xs : List (Nat × Candidate)) (n : Nat) (k : Candidate) : Prop :=
  (n, k) ∈ xs ∧ good k = true

/-- In rank order the first good candidate has the least rank of the good ones. -/
theorem find?_inRankOrder_some {good : Candidate → Bool} {xs : List (Nat × Candidate)} {k : Candidate}
    (h : (inRankOrder xs).find? good = some k) :
    ∃ n, GoodAt good xs n k ∧ ∀ m j, GoodAt good xs m j → n ≤ m := by
  change ((sortRanked xs).map (·.2)).find? good = some k at h
  rw [List.find?_map, Option.map_eq_some_iff] at h
  obtain ⟨⟨n, k'⟩, hfind, rfl⟩ := h
  obtain ⟨hgood, before, after, hsplit, hbefore⟩ := List.find?_eq_some_iff_append.1 hfind
  have hmem (x : Nat × Candidate) : x ∈ xs ↔ x ∈ before ++ (n, k') :: after := by
    rw [← hsplit]
    exact (sortRanked_perm xs).mem_iff.symm
  have hsorted := sortRanked_sorted xs
  rw [hsplit] at hsorted
  refine ⟨n, ⟨(hmem _).2 (by simp), hgood⟩, fun m j ⟨hin, hj⟩ => ?_⟩
  rcases List.mem_append.1 ((hmem _).1 hin) with hb | ha
  · have hno := hbefore _ hb
    simp [hj] at hno
  · rcases List.mem_cons.1 ha with heq | ha
    · cases heq
      exact le_rfl
    · exact (List.pairwise_cons.1 (List.pairwise_append.1 hsorted).2.1).1 _ ha

theorem find?_inRankOrder_none {good : Candidate → Bool} {xs : List (Nat × Candidate)}
    (h : (inRankOrder xs).find? good = none) : ∀ n k, ¬GoodAt good xs n k := by
  change ((sortRanked xs).map (·.2)).find? good = none at h
  rintro n k ⟨hin, hgood⟩
  exact List.find?_eq_none.1 h k (List.mem_map.2 ⟨(n, k), (sortRanked_perm xs).mem_iff.2 hin, rfl⟩)
    hgood

/-! ### The walk -/

/-- The candidate is eligible for the carriage (R49). -/
def State.eligible (s : State) (c : Carriage) : Candidate → Bool
  | .return_ w => s.queue.returns[w].any (s.returnEligible c)
  | .order n => (s.orderOf n).any (s.orderEligible c)

theorem eligible_return {s : State} {c : Carriage} {w : Saw} {r : ReturnEntry}
    (h : s.queue.returns[w] = some r) : s.eligible c (.return_ w) = s.returnEligible c r := by
  rw [State.eligible, h, Option.any_some]

theorem eligible_order {s : State} {c : Carriage} {n : Nat} {e : OrderEntry} (h : s.orderOf n = some e) :
    s.eligible c (.order n) = s.orderEligible c e := by
  rw [State.eligible, h, Option.any_some]

/-- Starving an order changes entries of the queue and what the Event Unit changes. -/
theorem starve_frame (s : State) (n : Nat) (r : StarveReason) :
    ∃ l u k, s.starve n r = { s.setOrderState n (.starved r) with link := l, events := u, free := k } :=
  raise_frame _ _ _ _

/-- Starving one order leaves every candidate as eligible as it was. -/
theorem eligible_starve (s : State) (c : Carriage) (n : Nat) (r : StarveReason) (k : Candidate) :
    (s.starve n r).eligible c k = s.eligible c k := by
  obtain ⟨l, u, j, heq⟩ := starve_frame s n r
  rw [heq]
  cases k with
  | return_ w => rfl
  | order m =>
    have hfind : (s.setOrderState n (.starved r)).orderOf m = (s.orderOf m).map fun e =>
        if e.number = n then { e with state := .starved r } else e := by
      unfold State.setOrderState State.orderOf State.mapOrders
      rw [List.find?_map]
      simp only [decide_eq_true_eq]
      congr 2
      funext e
      simp only [Function.comp]
      split <;> rfl
    change ((s.setOrderState n (.starved r)).orderOf m).any (s.orderEligible c) = _
    rw [hfind, Option.any_map, State.eligible]
    refine congrArg (fun p => (s.orderOf m).any p) (funext fun e => ?_)
    split <;> rfl

/-- The walk offers the first eligible candidate (R48, R49). -/
theorem walk_offer (c : Carriage) (l : List Candidate) (s : State) :
    (State.walk c l s).2 = l.find? (s.eligible c) := by
  induction l generalizing s with
  | nil => rfl
  | cons k rest ih =>
    cases k with
    | return_ w =>
      unfold State.walk
      split
      · rename_i r hr
        have helig : s.eligible c (.return_ w) = s.returnEligible c r := eligible_return hr
        split
        · rename_i hgood
          rw [List.find?_cons_of_pos (helig.trans hgood)]
        · rename_i hgood
          rw [List.find?_cons_of_neg (by rw [helig]; exact hgood), ih]
      · rename_i hr
        rw [List.find?_cons_of_neg (by simp [State.eligible, hr]), ih]
    | order n =>
      unfold State.walk
      split
      · rename_i hn
        rw [List.find?_cons_of_neg (by simp [State.eligible, hn]), ih]
      · rename_i e he
        have helig : s.eligible c (.order n) = s.orderEligible c e := eligible_order he
        split
        · rename_i hgood
          rw [List.find?_cons_of_pos (helig.trans hgood)]
        · rename_i hgood
          rw [List.find?_cons_of_neg (by rw [helig]; exact hgood)]
          split
          · rw [ih, funext (eligible_starve s c n _)]
          · exact ih s

/-! ### The candidates -/

theorem exceeds_iff (k : WorkClass) (bound : Option WorkClass) : exceeds k bound = true ↔ asked bound k := by
  cases bound <;> simp [exceeds, asked]

/-- The QUEUED orders of a class with their ranks. -/
def State.rankedOrders (s : State) (k : WorkClass) : List (Nat × Candidate) :=
  s.queue.entries.filterMap fun e =>
    if e.state = .queued && e.cls = k then some (e.rank, Candidate.order e.number) else none

/-- The DUE return entries with their ranks. -/
def State.rankedReturns (s : State) : List (Nat × Candidate) :=
  (List.finRange 4).filterMap fun w =>
    match s.queue.returns[w] with
    | some r =>
      match r.state with
      | .due n => some (n, Candidate.return_ w)
      | _ => none
    | none => none

section
variable {s : State} {c : Carriage} {bound : Option WorkClass}

/-- The order may be offered: QUEUED and eligible (R48, R49). -/
def State.goodOrder (s : State) (c : Carriage) (k : WorkClass) (e : OrderEntry) : Prop :=
  e ∈ s.queue.entries ∧ e.state = .queued ∧ e.cls = k ∧ s.orderEligible c e = true

/-- The return entry may be offered: DUE with this rank and eligible. -/
def State.goodReturn (s : State) (c : Carriage) (w : Saw) (n : Nat) : Prop :=
  ∃ r, s.queue.returns[w] = some r ∧ r.state = .due n ∧ s.returnEligible c r = true

theorem orderOf_mem (hok : s.queue.ok = true) {e : OrderEntry} (he : e ∈ s.queue.entries) :
    s.orderOf e.number = some e := by
  obtain ⟨-, hnodup, -⟩ := (Stable.queueOk_iff _).1 hok
  unfold State.orderOf
  obtain ⟨before, after, hsplit⟩ := List.append_of_mem he
  rw [hsplit] at hnodup ⊢
  refine find?_middle (fun x hx => ?_) (by simp)
  rw [List.map_append, List.map_cons] at hnodup
  have hne := (List.nodup_append.1 hnodup).2.2 x.number (List.mem_map_of_mem hx) e.number (by simp)
  simpa using hne

theorem goodAt_orders (hok : s.queue.ok = true) (k : WorkClass) (n : Nat) (j : Candidate) :
    GoodAt (s.eligible c) (s.rankedOrders k) n j
      ↔ ∃ e, s.goodOrder c k e ∧ n = e.rank ∧ j = .order e.number := by
  constructor
  · rintro ⟨hin, hgood⟩
    obtain ⟨e, he, hsome⟩ := List.mem_filterMap.1 hin
    split at hsome
    · rename_i hq
      cases hsome
      simp only [Bool.and_eq_true, decide_eq_true_eq] at hq
      rw [eligible_order (orderOf_mem hok he)] at hgood
      exact ⟨e, ⟨he, hq.1, hq.2, hgood⟩, rfl, rfl⟩
    · cases hsome
  · rintro ⟨e, ⟨he, hq, hk, hgood⟩, rfl, rfl⟩
    refine ⟨List.mem_filterMap.2 ⟨e, he, by simp [hq, hk]⟩, ?_⟩
    rw [eligible_order (orderOf_mem hok he), hgood]

theorem goodAt_returns (n : Nat) (j : Candidate) :
    GoodAt (s.eligible c) s.rankedReturns n j ↔ ∃ w, s.goodReturn c w n ∧ j = .return_ w := by
  constructor
  · rintro ⟨hin, hgood⟩
    obtain ⟨w, -, hsome⟩ := List.mem_filterMap.1 hin
    split at hsome
    · rename_i r hr
      split at hsome
      · rename_i m hm
        cases hsome
        rw [eligible_return hr] at hgood
        exact ⟨w, ⟨r, hr, hm, hgood⟩, rfl⟩
      · cases hsome
    · cases hsome
  · rintro ⟨w, ⟨r, hr, hdue, hgood⟩, rfl⟩
    refine ⟨List.mem_filterMap.2 ⟨w, List.mem_finRange w, by simp only [hr, hdue]⟩, ?_⟩
    rw [eligible_return hr, hgood]

/-! ### The blocks of R48 -/

/-- What the search of the orders of a class that are asked for tells. -/
theorem ordersOf_some (hok : s.queue.ok = true) {k : WorkClass} {j : Candidate}
    (h : (if exceeds k bound then s.queuedOrders k else []).find? (s.eligible c) = some j) :
    asked bound k ∧ ∃ e, s.goodOrder c k e ∧ j = .order e.number
      ∧ ∀ e', s.goodOrder c k e' → e.rank ≤ e'.rank := by
  split at h
  · rename_i hex
    obtain ⟨n, hgood, hleast⟩ := find?_inRankOrder_some h
    obtain ⟨e, he, rfl, rfl⟩ := (goodAt_orders hok k _ _).1 hgood
    exact ⟨(exceeds_iff _ _).1 hex, e, he, rfl, fun e' he' =>
      hleast _ _ ((goodAt_orders hok k _ _).2 ⟨e', he', rfl, rfl⟩)⟩
  · cases h

theorem ordersOf_none (hok : s.queue.ok = true) {k : WorkClass}
    (h : (if exceeds k bound then s.queuedOrders k else []).find? (s.eligible c) = none)
    (hasked : asked bound k) (e : OrderEntry) : ¬s.goodOrder c k e := fun he => by
  rw [if_pos ((exceeds_iff _ _).2 hasked)] at h
  exact find?_inRankOrder_none h _ _ ((goodAt_orders hok k _ _).2 ⟨e, he, rfl, rfl⟩)

theorem returns_some {j : Candidate}
    (h : (if exceeds .priority bound then s.dueReturns else []).find? (s.eligible c) = some j) :
    asked bound .priority ∧ ∃ w n, s.goodReturn c w n ∧ j = .return_ w
      ∧ ∀ w' n', s.goodReturn c w' n' → n ≤ n' := by
  split at h
  · rename_i hex
    obtain ⟨n, hgood, hleast⟩ := find?_inRankOrder_some (xs := s.rankedReturns) h
    obtain ⟨w, hw, rfl⟩ := (goodAt_returns _ _).1 hgood
    exact ⟨(exceeds_iff _ _).1 hex, w, n, hw, rfl, fun w' n' h' =>
      hleast _ _ ((goodAt_returns _ _).2 ⟨w', h', rfl⟩)⟩
  · cases h

theorem returns_none
    (h : (if exceeds .priority bound then s.dueReturns else []).find? (s.eligible c) = none)
    (hasked : asked bound .priority) (w : Saw) (n : Nat) : ¬s.goodReturn c w n := fun hw => by
  rw [if_pos ((exceeds_iff _ _).2 hasked)] at h
  exact find?_inRankOrder_none (xs := s.rankedReturns) h _ _ ((goodAt_returns _ _).2 ⟨w, hw, rfl⟩)

/-- The search goes through the blocks RUSH, return work, PRIORITY and NORMAL (R48). -/
theorem find?_candidates : (s.candidates bound).find? (s.eligible c)
    = (((if exceeds .rush bound then s.queuedOrders .rush else []).find? (s.eligible c)).or
      (((if exceeds .priority bound then s.dueReturns else []).find? (s.eligible c)).or
      (((if exceeds .priority bound then s.queuedOrders .priority else []).find? (s.eligible c)).or
      ((if exceeds .normal bound then s.queuedOrders .normal else []).find? (s.eligible c))))) := by
  have hsplit : (if exceeds .priority bound then s.dueReturns ++ s.queuedOrders .priority else [])
      = (if exceeds .priority bound then s.dueReturns else [])
        ++ (if exceeds .priority bound then s.queuedOrders .priority else []) := by
    split <;> simp
  rw [State.candidates, hsplit]
  simp only [List.find?_append, Option.or_assoc]

/-! ### The best offer -/

/-- The order may be offered under the bound. -/
def State.offerable (s : State) (c : Carriage) (bound : Option WorkClass) (e : OrderEntry) : Prop :=
  e ∈ s.queue.entries ∧ e.state = .queued ∧ asked bound e.cls ∧ s.orderEligible c e = true

/-- The return entry may be offered under the bound, with this rank. -/
def State.offerableReturn (s : State) (c : Carriage) (bound : Option WorkClass) (w : Saw) (n : Nat) :
    Prop :=
  ∃ r, s.queue.returns[w] = some r ∧ r.state = .due n ∧ asked bound .priority
    ∧ s.returnEligible c r = true

theorem offerable_good {e : OrderEntry} (h : s.offerable c bound e) :
    asked bound e.cls ∧ s.goodOrder c e.cls e := by
  obtain ⟨hin, hq, hasked, helig⟩ := h
  exact ⟨hasked, hin, hq, rfl, helig⟩

theorem good_offerable {e : OrderEntry} {k : WorkClass} (hasked : asked bound k)
    (h : s.goodOrder c k e) : s.offerable c bound e ∧ e.cls = k := by
  obtain ⟨hin, hq, rfl, helig⟩ := h
  exact ⟨⟨hin, hq, hasked, helig⟩, rfl⟩

theorem offerableReturn_good {w : Saw} {n : Nat} (h : s.offerableReturn c bound w n) :
    asked bound .priority ∧ s.goodReturn c w n := by
  obtain ⟨r, hr, hdue, hasked, helig⟩ := h
  exact ⟨hasked, r, hr, hdue, helig⟩

/-- What R48 and R49 say of an offer. -/
def State.isBest (s : State) (c : Carriage) (bound : Option WorkClass) (offer : Option Candidate) :
    Prop :=
  (offer = none → (∀ e, ¬s.offerable c bound e) ∧ ∀ w n, ¬s.offerableReturn c bound w n)
    ∧ (∀ m, offer = some (.order m) → ∃ e, s.offerable c bound e ∧ e.number = m
      ∧ (∀ e', s.offerable c bound e' → workClassCode e'.cls ≤ workClassCode e.cls
          ∧ (e'.cls = e.cls → e.rank ≤ e'.rank))
      ∧ ∀ w n, s.offerableReturn c bound w n → e.cls = .rush)
    ∧ (∀ w, offer = some (.return_ w) → ∃ n, s.offerableReturn c bound w n
      ∧ (∀ w' n', s.offerableReturn c bound w' n' → n ≤ n')
      ∧ ∀ e, s.offerable c bound e → e.cls ≠ .rush)

/-- An order of class `k` is the best offer when nothing of a block before its own may be offered. -/
theorem isBest_order {k : WorkClass} {j : Candidate} (hok : s.queue.ok = true)
    (h : (if exceeds k bound then s.queuedOrders k else []).find? (s.eligible c) = some j)
    (hclass : ∀ e, s.offerable c bound e → workClassCode e.cls ≤ workClassCode k)
    (hreturn : ∀ w n, s.offerableReturn c bound w n → k = .rush) : s.isBest c bound (some j) := by
  obtain ⟨hasked, e, he, rfl, hleast⟩ := ordersOf_some hok h
  obtain ⟨hoffer, rfl⟩ := good_offerable hasked he
  refine ⟨fun hno => absurd hno (by simp), fun m hm => ?_, fun w hw => absurd hw (by simp)⟩
  cases hm
  refine ⟨e, hoffer, rfl, fun e' he' => ⟨hclass e' he', fun hsame => ?_⟩, hreturn⟩
  obtain ⟨-, hgood⟩ := offerable_good he'
  exact hleast e' (hsame ▸ hgood)

end

/-- Settles O21: block by block, each in rising rank. -/
theorem offerIsBest : Obligations.OfferIsBest := by
  intro s c bound hok
  have hoffer : (s.request c bound).2 = (s.candidates bound).find? (s.eligible c) := walk_offer _ _ _
  suffices hbest : s.isBest c bound ((s.candidates bound).find? (s.eligible c)) by
    rw [← hoffer] at hbest
    exact hbest
  have without (k : WorkClass)
      (hk : (if exceeds k bound then s.queuedOrders k else []).find? (s.eligible c) = none)
      (e : OrderEntry) (he : s.offerable c bound e) : e.cls ≠ k := by
    rintro rfl
    obtain ⟨hasked, hgood⟩ := offerable_good he
    exact ordersOf_none hok hk hasked e hgood
  rw [find?_candidates]
  cases hrush : (if exceeds .rush bound then s.queuedOrders .rush else []).find? (s.eligible c) with
  | some j =>
    exact isBest_order hok hrush (fun e _ => by cases e.cls <;> decide) fun _ _ _ => rfl
  | none =>
    have hnorush := without .rush hrush
    rw [Option.none_or]
    cases hret : (if exceeds .priority bound then s.dueReturns else []).find? (s.eligible c) with
    | some j =>
      obtain ⟨hasked, w, n, ⟨r, hr, hdue, helig⟩, rfl, hleast⟩ := returns_some hret
      refine ⟨fun hno => absurd hno (by simp), fun m hm => absurd hm (by simp), fun w' hw' => ?_⟩
      cases hw'
      exact ⟨n, ⟨r, hr, hdue, hasked, helig⟩, fun w' n' h' => hleast w' n' (offerableReturn_good h').2,
        hnorush⟩
    | none =>
      have hnoreturn : ∀ w n, ¬s.offerableReturn c bound w n := fun w n h => by
        obtain ⟨hasked, hgood⟩ := offerableReturn_good h
        exact returns_none hret hasked w n hgood
      rw [Option.none_or]
      cases hprio : (if exceeds .priority bound then s.queuedOrders .priority else []).find?
          (s.eligible c) with
      | some j =>
        refine isBest_order hok hprio (fun e he => ?_) fun w n h => absurd h (hnoreturn w n)
        have hne := hnorush e he
        cases hcls : e.cls <;> simp_all [workClassCode]
      | none =>
        have hnoprio := without .priority hprio
        rw [Option.none_or]
        cases hnorm : (if exceeds .normal bound then s.queuedOrders .normal else []).find?
            (s.eligible c) with
        | some j =>
          refine isBest_order hok hnorm (fun e he => ?_) fun w n h => absurd h (hnoreturn w n)
          have hne := hnorush e he
          have hne' := hnoprio e he
          cases hcls : e.cls <;> simp_all
        | none =>
          have hnonorm := without .normal hnorm
          refine ⟨fun _ => ⟨fun e he => ?_, hnoreturn⟩, fun m hm => absurd hm (by simp),
            fun w hw => absurd hw (by simp)⟩
          have h1 := hnorush e he
          have h2 := hnoprio e he
          have h3 := hnonorm e he
          cases hcls : e.cls <;> simp_all

end Sys2Proof.Machine
end

section
/-! The request that is being taken waits in the link until it is answered, and no operation but the
Host Link Controller's reads the waiting list: each of them commutes with it. -/

namespace Sys2Proof.Machine

/-! ### Fields -/

section
variable (s : State) (q : Request)

@[simp] theorem withRequest_cell : (s.withRequest q).cell = s.cell := rfl
@[simp] theorem withRequest_stackRecs : (s.withRequest q).stackRecs = s.stackRecs := rfl
@[simp] theorem withRequest_counters : (s.withRequest q).counters = s.counters := rfl
@[simp] theorem withRequest_queue : (s.withRequest q).queue = s.queue := rfl
@[simp] theorem withRequest_seq : (s.withRequest q).seq = s.seq := rfl
@[simp] theorem withRequest_port : (s.withRequest q).port = s.port := rfl
@[simp] theorem withRequest_arb : (s.withRequest q).arb = s.arb := rfl
@[simp] theorem withRequest_saws : (s.withRequest q).saws = s.saws := rfl
@[simp] theorem withRequest_events : (s.withRequest q).events = s.events := rfl
@[simp] theorem withRequest_lines : (s.withRequest q).lines = s.lines := rfl
@[simp] theorem withRequest_todo : (s.withRequest q).todo = s.todo := rfl
@[simp] theorem withRequest_free : (s.withRequest q).free = s.free := rfl
@[simp] theorem withRequest_sq (c : Carriage) : (s.withRequest q).sq c = s.sq c := rfl
@[simp] theorem withRequest_pt (c : Carriage) : (s.withRequest q).pt c = s.pt c := rfl
@[simp] theorem withRequest_arec (c : Carriage) : (s.withRequest q).arec c = s.arec c := rfl
@[simp] theorem withRequest_outbound :
    (s.withRequest q).link.outbound = s.link.outbound := rfl
@[simp] theorem withRequest_freeFrames : (s.withRequest q).freeFrames = s.freeFrames := rfl

theorem ite_withRequest (c : Prop) [Decidable c] (a b : State) :
    (if c then a else b).withRequest q = if c then a.withRequest q else b.withRequest q :=
  apply_ite (State.withRequest · q) c a b

/-! ### Updates of one record -/

@[simp] theorem modSeq_withRequest (c f) :
    (s.withRequest q).modSeq c f = (s.modSeq c f).withRequest q := rfl
@[simp] theorem modPort_withRequest (c f) :
    (s.withRequest q).modPort c f = (s.modPort c f).withRequest q := rfl
@[simp] theorem modRec_withRequest (c f) :
    (s.withRequest q).modRec c f = (s.modRec c f).withRequest q := rfl
@[simp] theorem modSaw_withRequest (w f) :
    (s.withRequest q).modSaw w f = (s.modSaw w f).withRequest q := rfl
@[simp] theorem modCell_withRequest (f) :
    (s.withRequest q).modCell f = (s.modCell f).withRequest q := rfl
@[simp] theorem modCounters_withRequest (f) :
    (s.withRequest q).modCounters f = (s.modCounters f).withRequest q := rfl
@[simp] theorem mapZones_withRequest (f) :
    (s.withRequest q).mapZones f = (s.mapZones f).withRequest q := rfl
@[simp] theorem modGate_withRequest (g f) :
    (s.withRequest q).modGate g f = (s.modGate g f).withRequest q := rfl
@[simp] theorem modStack_withRequest (p f) :
    (s.withRequest q).modStack p f = (s.modStack p f).withRequest q := rfl
@[simp] theorem putStack_withRequest (p r) :
    (s.withRequest q).putStack p r = (s.putStack p r).withRequest q := rfl
@[simp] theorem modReturn_withRequest (w f) :
    (s.withRequest q).modReturn w f = (s.modReturn w f).withRequest q := rfl
@[simp] theorem putReturn_withRequest (w r) :
    (s.withRequest q).putReturn w r = (s.putReturn w r).withRequest q := rfl
@[simp] theorem mapOrders_withRequest (p f) :
    (s.withRequest q).mapOrders p f = (s.mapOrders p f).withRequest q := rfl
@[simp] theorem dropOrder_withRequest (n) :
    (s.withRequest q).dropOrder n = (s.dropOrder n).withRequest q := rfl
@[simp] theorem clearEvents_withRequest (p) :
    (s.withRequest q).clearEvents p = (s.clearEvents p).withRequest q := rfl
@[simp] theorem dueExam_withRequest : (s.withRequest q).dueExam = s.dueExam.withRequest q := rfl
@[simp] theorem setUser_withRequest (p u) :
    (s.withRequest q).setUser p u = (s.setUser p u).withRequest q := rfl

/-! ### Reads -/

@[simp] theorem withRequest_bookCount (w) : (s.withRequest q).bookCount w = s.bookCount w := rfl
@[simp] theorem withRequest_infeedPlace (w) : (s.withRequest q).infeedPlace w = s.infeedPlace w := rfl
@[simp] theorem withRequest_infeedUser (w) : (s.withRequest q).infeedUser w = s.infeedUser w := rfl
@[simp] theorem withRequest_kindAt (p) : (s.withRequest q).kindAt p = s.kindAt p := rfl
@[simp] theorem withRequest_runsAt (p) : (s.withRequest q).runsAt p = s.runsAt p := rfl
@[simp] theorem withRequest_stackState (p) : (s.withRequest q).stackState p = s.stackState p := rfl
@[simp] theorem withRequest_userAt (p) : (s.withRequest q).userAt p = s.userAt p := rfl
@[simp] theorem withRequest_requeuedState (e) :
    (s.withRequest q).requeuedState e = s.requeuedState e := rfl

/-! ### The Event Unit -/

theorem sendReportsN_withRequest (n : Nat) :
    State.sendReportsN n (s.withRequest q) = (State.sendReportsN n s).withRequest q := by
  induction n generalizing s with
  | zero => rfl
  | succ n ih =>
    simp only [State.sendReportsN, withRequest_freeFrames, withRequest_events, ite_withRequest]
    cases firstInOrder (sendable s.events.gateOpen) s.events.entries with
    | none => rfl
    | some e =>
      exact congrArg (fun t => if s.freeFrames < 2 then s.withRequest q else t)
        (ih { s.queueFrame ⟨0x90, eventBody (Config.freeHalf s.free 3) e⟩ with
          events := { s.events with entries := markSent e s.events.entries }, free := s.free + 1 })

@[simp] theorem raise_withRequest (kind src d) :
    (s.withRequest q).raise kind src d = (s.raise kind src d).withRequest q := by
  simp only [State.raise, withRequest_events, ite_withRequest]
  exact congrArg (fun t => if (s.events.raise kind src d).2 = true then t else _)
    (sendReportsN_withRequest { s with events := (s.events.raise kind src d).1 } q _)

/-! ### The queue and the stacks -/

@[simp] theorem workNotice_withRequest : (s.withRequest q).workNotice = s.workNotice.withRequest q := by
  rw [workNotice_eq, workNotice_eq]
  rfl

@[simp] theorem requeueWhere_withRequest (p) :
    (s.withRequest q).requeueWhere p = (s.requeueWhere p).withRequest q := by
  simp only [State.requeueWhere, withRequest_requeuedState, withRequest_queue, mapOrders_withRequest,
    workNotice_withRequest, ite_withRequest]
  rfl

@[simp] theorem requeueStarved_withRequest :
    (s.withRequest q).requeueStarved = s.requeueStarved.withRequest q := requeueWhere_withRequest s q _

@[simp] theorem judge_withRequest (w) : (s.withRequest q).judge w = (s.judge w).withRequest q := by
  simp only [State.judge, withRequest_queue, withRequest_cell, modReturn_withRequest]
  cases s.queue.returns[w] with
  | none => rfl
  | some r =>
    dsimp only
    cases r.state with
    | notDue =>
      simp only [ite_withRequest]
      exact congrArg (fun t => if r.isDue s.cell.trigger = true then t else _)
        (workNotice_withRequest (({ s with queue := s.queue.takeRank.2 } : State).modReturn w _) q)
    | due n =>
      simp only [ite_withRequest]
      rfl
    | taken c n => rfl
    | suspended c n => rfl

@[simp] theorem handCount_withRequest (w n b) :
    (s.withRequest q).handCount w n b = (s.handCount w n b).withRequest q := by
  simp only [State.handCount, modReturn_withRequest, judge_withRequest]

@[simp] theorem handPermit_withRequest (w b) :
    (s.withRequest q).handPermit w b = (s.handPermit w b).withRequest q := by
  simp only [State.handPermit, modReturn_withRequest, judge_withRequest]

@[simp] theorem setPermitHold_withRequest (w b) :
    (s.withRequest q).setPermitHold w b = (s.setPermitHold w b).withRequest q := by
  simp only [State.setPermitHold, withRequest_saws, modSaw_withRequest, handPermit_withRequest,
    ite_withRequest]

@[simp] theorem permitByCount_withRequest (w n) :
    (s.withRequest q).permitByCount w n = (s.permitByCount w n).withRequest q := by
  simp only [State.permitByCount, withRequest_saws, setPermitHold_withRequest, ite_withRequest]

@[simp] theorem contentNotice_withRequest (p c) :
    (s.withRequest q).contentNotice p c = (s.contentNotice p c).withRequest q := by
  rw [contentNotice_eq, contentNotice_eq]
  rfl

@[simp] theorem contentChange_withRequest (p) :
    (s.withRequest q).contentChange p = (s.contentChange p).withRequest q := by
  simp only [State.contentChange, requeueStarved_withRequest, contentNotice_withRequest,
    withRequest_kindAt, withRequest_cell, withRequest_runsAt, withRequest_stackState,
    handCount_withRequest, permitByCount_withRequest]
  cases ((s.requeueStarved.contentNotice p .A).contentNotice p .B).kindAt p with
  | return_ =>
    cases ((s.requeueStarved.contentNotice p .A).contentNotice p .B).cell.places[p].saw <;> rfl
  | _ => rfl

@[simp] theorem setStack_withRequest (p st runs) :
    (s.withRequest q).setStack p st runs = (s.setStack p st runs).withRequest q := by
  simp only [State.setStack, modStack_withRequest, contentChange_withRequest]

@[simp] theorem emptyStack_withRequest (p) :
    (s.withRequest q).emptyStack p = (s.emptyStack p).withRequest q := setStack_withRequest s q _ _ _

/-! ### The saw stations -/

@[simp] theorem nudgeBlocked_withRequest (c f) :
    (s.withRequest q).nudgeBlocked c f = (s.nudgeBlocked c f).withRequest q := by
  simp only [State.nudgeBlocked, withRequest_sq, modSeq_withRequest]
  cases (s.sq c).state <;> rfl

@[simp] theorem openingNotice_withRequest (w) :
    (s.withRequest q).openingNotice w = (s.openingNotice w).withRequest q := by
  have step (t : State) (c : Carriage) :
      (t.withRequest q).openingNoticeTo w c = (t.openingNoticeTo w c).withRequest q := by
    simp only [State.openingNoticeTo, withRequest_sq, withRequest_infeedPlace, modSeq_withRequest]
    cases t.infeedPlace w with
    | none => cases (t.sq c).state <;> rfl
    | some p =>
      have hwait : (if (t.sq c).waitsAt p = true then (t.withRequest q).nudgeWait c else t.withRequest q)
          = (if (t.sq c).waitsAt p = true then t.nudgeWait c else t).withRequest q :=
        (ite_withRequest q ((t.sq c).waitsAt p = true) (t.nudgeWait c) t).symm
      cases (t.sq c).state with
      | held => rfl
      | _ => exact hwait
  simp only [State.openingNotice, step]

@[simp] theorem enterOpen_withRequest (w) :
    (s.withRequest q).enterOpen w = (s.enterOpen w).withRequest q := by
  simp only [State.enterOpen, State.requeueBlocked, modSaw_withRequest, requeueWhere_withRequest,
    openingNotice_withRequest]

@[simp] theorem enterInfeedBlocked_withRequest (w r) :
    (s.withRequest q).enterInfeedBlocked w r = (s.enterInfeedBlocked w r).withRequest q := by
  simp only [State.enterInfeedBlocked, State.blockOrders, withRequest_saws, modSaw_withRequest,
    mapOrders_withRequest]
  cases s.saws[w].state <;> rfl

@[simp] theorem followReady_withRequest (w) :
    (s.withRequest q).followReady w = (s.followReady w).withRequest q := by
  simp only [State.followReady, withRequest_saws, enterOpen_withRequest, modSaw_withRequest,
    ite_withRequest]

@[simp] theorem raiseFallback_withRequest (w) :
    (s.withRequest q).raiseFallback w = (s.raiseFallback w).withRequest q := raise_withRequest s q _ _ _

@[simp] theorem emptyOutcome_withRequest (w) :
    (s.withRequest q).emptyOutcome w = (s.emptyOutcome w).withRequest q := by
  simp only [State.emptyOutcome, withRequest_saws, enterInfeedBlocked_withRequest, modSaw_withRequest,
    followReady_withRequest, ite_withRequest]

@[simp] theorem fallbackEmpty_withRequest (w) :
    (s.withRequest q).fallbackEmpty w = (s.fallbackEmpty w).withRequest q := by
  simp only [State.fallbackEmpty, raiseFallback_withRequest, emptyOutcome_withRequest]

@[simp] theorem decideRelease_withRequest (w) :
    (s.withRequest q).decideRelease w = (s.decideRelease w).withRequest q := by
  simp only [State.decideRelease, State.releaseBook, withRequest_saws, withRequest_infeedUser,
    modSaw_withRequest, ite_withRequest]
  rfl

@[simp] theorem orderEnd_withRequest (w) :
    (s.withRequest q).orderEnd w = (s.orderEnd w).withRequest q := by
  simp only [State.orderEnd, withRequest_queue, withRequest_saws, withRequest_bookCount,
    decideRelease_withRequest, ite_withRequest]

@[simp] theorem reloadBookTimer_withRequest (w) :
    (s.withRequest q).reloadBookTimer w = (s.reloadBookTimer w).withRequest q := rfl

@[simp] theorem leaveOverrun_withRequest (w) :
    (s.withRequest q).leaveOverrun w = (s.leaveOverrun w).withRequest q := by
  simp only [State.leaveOverrun, withRequest_saws, withRequest_bookCount, fallbackEmpty_withRequest,
    followReady_withRequest, reloadBookTimer_withRequest, enterInfeedBlocked_withRequest,
    ite_withRequest]
  rfl

@[simp] theorem recoverReturn_withRequest (w) :
    (s.withRequest q).recoverReturn w = (s.recoverReturn w).withRequest q := by
  simp only [State.recoverReturn, modSaw_withRequest, leaveOverrun_withRequest,
    handPermit_withRequest]

@[simp] theorem bookRemoved_withRequest (w) :
    (s.withRequest q).bookRemoved w = (s.bookRemoved w).withRequest q := by
  simp only [State.bookRemoved, withRequest_saws, modSaw_withRequest, openingNotice_withRequest,
    ← ite_withRequest, fallbackEmpty_withRequest]
  rfl

@[simp] theorem infeedDefined_withRequest (w) :
    (s.withRequest q).infeedDefined w = (s.infeedDefined w).withRequest q := by
  simp only [State.infeedDefined, withRequest_saws, enterInfeedBlocked_withRequest,
    fallbackEmpty_withRequest, followReady_withRequest, ite_withRequest]
  rfl

end

/-! ### A request taken at once, once more -/

section
variable {s u : State} {q : Request} {fields : List Byte} (h : s.takesAtOnce = true)
  (hp : parseRequest (Request.kind q) (Request.body q) = .request q)
include h hp

/-- An owner that accepts: the effect of the request, the notices of the step acted on. -/
theorem accepts_of_settle {t : State}
    (hr : (s.withRequest q).handle q = (t, .accept fields))
    (hsettle : t.settle = u.withRequest q) (hwait : u.link.waiting = []) :
    accepts q.command s u (Request.kind q) fields := by
  unfold accepts
  rw [exec_command, requestArrives_done s _ _ q _ h hp hr hsettle hwait]
  rfl

/-- An owner that accepts and leaves no notice. -/
theorem accepts_of_rested
    (hr : (s.withRequest q).handle q = (u.withRequest q, .accept fields)) (hrest : u.rested = true)
    (hwait : u.link.waiting = []) : accepts q.command s u (Request.kind q) fields :=
  accepts_of_settle h hp hr (settle_rested _ hrest) hwait

/-- An owner that accepts and leaves an examination with nothing to decide. -/
theorem accepts_of_noClaims
    (hr : (s.withRequest q).handle q = (u.withRequest q, .accept fields)) (hclaims : u.noClaims = true)
    (hblocked : u.todo.blocked = ⟨false, false⟩) (hwaits : u.todo.wait = ⟨false, false⟩)
    (hwait : u.link.waiting = []) :
    accepts q.command s { u with todo := Todo.none } (Request.kind q) fields :=
  accepts_of_settle h hp hr (settle_noClaims _ hclaims hblocked hwaits) hwait

end

end Sys2Proof.Machine
end

section
/-! What the end of a step reads, and the operations that leave it alone; the saw stations' operations
while neither carriage takes their notices; and the grip profiles and cell parameters (O24). -/

namespace Sys2Proof.Machine

/-! ### What the end of a step reads -/

/-- The notices, the claims, the carriage states and the waiting requests are as they were. -/
structure Unmoved (s u : State) : Prop where
  todo : u.todo = s.todo
  arb : u.arb = s.arb
  waiting : u.link.waiting = s.link.waiting
  car : ∀ c, (u.sq c).state = (s.sq c).state

namespace Unmoved
variable {s u v : State}

theorem refl (s : State) : Unmoved s s := ⟨rfl, rfl, rfl, fun _ => rfl⟩

theorem trans (h : Unmoved s u) (k : Unmoved u v) : Unmoved s v :=
  ⟨k.todo.trans h.todo, k.arb.trans h.arb, k.waiting.trans h.waiting,
    fun c => (k.car c).trans (h.car c)⟩

theorem rested (h : Unmoved s u) (hs : s.rested = true) : u.rested = true := by
  rwa [State.rested, h.todo]

theorem noClaims (h : Unmoved s u) (hs : s.noClaims = true) : u.noClaims = true := by
  rwa [State.noClaims, h.arb]

theorem noChoosers (h : Unmoved s u) (hs : s.noChoosers = true) : u.noChoosers = true := by
  rwa [State.noChoosers, h.car, h.car]

theorem link_waiting (h : Unmoved s u) (hs : s.link.waiting = []) : u.link.waiting = [] :=
  h.waiting.trans hs

/-! Any change of the other records. -/

theorem modSaw (h : Unmoved s u) (w f) : Unmoved s (u.modSaw w f) := ⟨h.1, h.2, h.3, h.4⟩
theorem modCell (h : Unmoved s u) (f) : Unmoved s (u.modCell f) := ⟨h.1, h.2, h.3, h.4⟩
theorem modCounters (h : Unmoved s u) (f) : Unmoved s (u.modCounters f) := ⟨h.1, h.2, h.3, h.4⟩
theorem modStack (h : Unmoved s u) (p f) : Unmoved s (u.modStack p f) := ⟨h.1, h.2, h.3, h.4⟩
theorem putStack (h : Unmoved s u) (p r) : Unmoved s (u.putStack p r) := ⟨h.1, h.2, h.3, h.4⟩
theorem modReturn (h : Unmoved s u) (w f) : Unmoved s (u.modReturn w f) := ⟨h.1, h.2, h.3, h.4⟩
theorem putReturn (h : Unmoved s u) (w r) : Unmoved s (u.putReturn w r) := ⟨h.1, h.2, h.3, h.4⟩
theorem mapOrders (h : Unmoved s u) (p f) : Unmoved s (u.mapOrders p f) := ⟨h.1, h.2, h.3, h.4⟩
theorem dropOrder (h : Unmoved s u) (n) : Unmoved s (u.dropOrder n) := ⟨h.1, h.2, h.3, h.4⟩
theorem modPort (h : Unmoved s u) (c f) : Unmoved s (u.modPort c f) := ⟨h.1, h.2, h.3, h.4⟩

/-- A change of a sequencer that keeps its state. -/
theorem modSeq (h : Unmoved s u) (c : Carriage) (f : Sequencer → Sequencer)
    (hf : ∀ q, (f q).state = q.state) : Unmoved s (u.modSeq c f) := by
  refine ⟨h.1, h.2, h.3, fun d => (Eq.trans ?_ (h.4 d))⟩
  rcases eq_or_other c d with rfl | rfl
  · rw [modSeq_sq_self, hf]
  · rw [modSeq_sq_other]

theorem workNotice (h : Unmoved s u) : Unmoved s u.workNotice := by
  rw [State.workNotice, noticeTo_eq, noticeTo_eq]
  exact (h.modSeq _ _ noticed_state).modSeq _ _ noticed_state

theorem requeueWhere (h : Unmoved s u) (f) : Unmoved s (u.requeueWhere f) := by
  unfold State.requeueWhere
  split
  · exact (h.mapOrders _ _).workNotice
  · exact h.mapOrders _ _

theorem raise (h : Unmoved s u) (kind src d) : Unmoved s (u.raise kind src d) := by
  have hwait := raise_link (fun l => l.waiting = s.link.waiting) (fun _ _ _ k => k) u kind src d h.3
  obtain ⟨l, v, k, heq⟩ := raise_frame u kind src d
  rw [heq] at hwait ⊢
  exact ⟨h.1, h.2, hwait, h.4⟩

theorem judge (h : Unmoved s u) (w) : Unmoved s (u.judge w) := by
  have htaken : Unmoved s { u with queue := u.queue.takeRank.2 } := ⟨h.1, h.2, h.3, h.4⟩
  unfold State.judge
  split
  · exact h
  · split
    · split
      · exact (htaken.modReturn _ _).workNotice
      · exact h
    · split
      · exact h
      · exact h.modReturn _ _
    · exact h

theorem handCount (h : Unmoved s u) (w n b) : Unmoved s (u.handCount w n b) :=
  (h.modReturn _ _).judge _

theorem handPermit (h : Unmoved s u) (w b) : Unmoved s (u.handPermit w b) :=
  (h.modReturn _ _).judge _

theorem setPermitHold (h : Unmoved s u) (w b) : Unmoved s (u.setPermitHold w b) := by
  unfold State.setPermitHold
  split
  · exact h
  · exact (h.modSaw _ _).handPermit _ _

theorem permitByCount (h : Unmoved s u) (w n) : Unmoved s (u.permitByCount w n) := by
  unfold State.permitByCount
  split
  · exact h.setPermitHold _ _
  · split
    · exact h
    · exact h.setPermitHold _ _

end Unmoved

/-! ### Notices that no carriage takes -/

theorem noChoosers_iff (s : State) :
    s.noChoosers = true ↔ ∀ c, (s.sq c).state.unmoved = true := by
  rw [State.noChoosers, Bool.and_eq_true]
  exact ⟨fun h c => by cases c <;> [exact h.1; exact h.2], fun h => ⟨h .A, h .B⟩⟩

/-- A return place hands on its piece count, and its saw's permit hold follows (R45, R165). -/
def State.handsOnCount (s : State) (p : Place) : State :=
  match s.kindAt p, s.cell.places[p].saw with
  | .return_, some w =>
    (s.handCount w (knownCount (s.runsAt p)) (s.stackState p = some .ready)).permitByCount w
      (knownCount (s.runsAt p))
  | _, _ => s

section
variable {s : State} (h : s.noChoosers = true)
include h

theorem not_blocked_of_noChoosers (c : Carriage) : (s.sq c).state ≠ .blocked := fun e => by
  have := (noChoosers_iff s).1 h c
  simp [e, CarState.unmoved] at this

theorem not_sawWait_of_noChoosers (c : Carriage) : (s.sq c).state ≠ .sawWait := fun e => by
  have := (noChoosers_iff s).1 h c
  simp [e, CarState.unmoved] at this

theorem not_held_of_noChoosers (c : Carriage) : (s.sq c).state ≠ .held := fun e => by
  have := (noChoosers_iff s).1 h c
  simp [e, CarState.unmoved] at this

theorem waitsAt_of_noChoosers (c : Carriage) (p : Place) : (s.sq c).waitsAt p = false :=
  Bool.eq_false_iff.2 fun k => not_sawWait_of_noChoosers h c (waitsAt_state k)

theorem contentNotice_noChoosers (p : Place) (c : Carriage) : s.contentNotice p c = s := by
  have htold : (s.sq c).toldContent = s.sq c := if_neg (not_held_of_noChoosers h c)
  rw [contentNotice_eq, htold, waitsAt_of_noChoosers h]
  simp [not_blocked_of_noChoosers h c, seq_set_sq]

/-- A content change with no carriage to take it requeues the STARVED orders, and a return place hands
on its count (R36, R45, R165). -/
theorem contentChange_noChoosers (p : Place) :
    s.contentChange p = s.requeueStarved.handsOnCount p := by
  have hrequeued : s.requeueStarved.noChoosers = true :=
    ((Unmoved.refl s).requeueWhere _).noChoosers h
  unfold State.contentChange
  rw [contentNotice_noChoosers hrequeued, contentNotice_noChoosers hrequeued]
  rfl

theorem openingNoticeTo_noChoosers (w : Saw) (c : Carriage) : s.openingNoticeTo w c = s := by
  unfold State.openingNoticeTo
  split
  · next hheld => exact absurd hheld (not_held_of_noChoosers h c)
  · rw [waitsAt_of_noChoosers h]
    rfl
  · rfl

theorem openingNotice_noChoosers (w : Saw) : s.openingNotice w = s := by
  rw [State.openingNotice, openingNoticeTo_noChoosers h, openingNoticeTo_noChoosers h]

end

theorem requeueWhere_cell (s : State) (f : OrderEntry → Bool) : (s.requeueWhere f).cell = s.cell := by
  obtain ⟨entries, v, heq, -⟩ := requeueWhere_frame s f
  rw [heq]

/-- A content change of a place that is no return place. -/
theorem contentChange_requeues {s : State} (h : s.noChoosers = true) {p : Place}
    (hkind : s.cell.places[p].kind ≠ .return_) :
    s.contentChange p = s.requeueWhere OrderEntry.isStarved := by
  have hcell : s.requeueStarved.kindAt p ≠ .return_ := by
    rw [State.requeueStarved, State.kindAt, requeueWhere_cell]
    exact hkind
  rw [contentChange_noChoosers h, State.handsOnCount]
  split
  · next hreturn _ => exact absurd hreturn hcell
  · rfl

/-! ### An infeed that opens or is blocked -/

theorem enterOpen_eq {s : State} (h : s.noChoosers = true) (w : Saw) : s.enterOpen w = opens s w := by
  have hopened : (opens s w).noChoosers = true :=
    (((Unmoved.refl s).modSaw _ _).requeueWhere _).noChoosers h
  exact openingNotice_noChoosers hopened w

theorem enterInfeedBlocked_eq (s : State) (w : Saw) (why : InfeedBlock) :
    s.enterInfeedBlocked w why = blocks s w why := by
  have hreason : orderBlockOf why = if why = .overrun then .overrun else .sawBlocked := by
    cases why <;> rfl
  unfold State.enterInfeedBlocked blocks
  cases s.saws[w].state
  case blocked => rfl
  all_goals
    simp only [State.blockOrders, State.mapOrders, hreason, Bool.and_eq_true, Bool.or_eq_true,
      decide_eq_true_eq]
    rfl

theorem fallback_iff (x : SawStation) : x.fallback = true ↔ fallbackHolds x := by
  simp [SawStation.fallback, fallbackHolds]

theorem followReady_opened {s : State} {w : Saw} (h : s.saws[w].state = .opened)
    (hready : s.saws[w].ready = true) : s.followReady w = s := by
  rw [State.followReady, if_pos hready, if_pos h]

theorem followReady_ready {s : State} {w : Saw} (h : s.noChoosers = true)
    (hstate : s.saws[w].state ≠ .opened) (hready : s.saws[w].ready = true) :
    s.followReady w = opens s w := by
  rw [State.followReady, if_pos hready, if_neg hstate, enterOpen_eq h]

theorem followReady_closes {s : State} {w : Saw} (hready : s.saws[w].ready = false) :
    s.followReady w = s.modSaw w fun x => { x with state := .closed, cutGo := false } := by
  rw [State.followReady, if_neg (by rw [hready]; exact Bool.false_ne_true)]
  rfl

theorem Unmoved.opensInfeed {s u : State} (h : Unmoved s u) (w) : Unmoved s (opens u w) :=
  (h.modSaw _ _).requeueWhere _

theorem Unmoved.blocksInfeed {s u : State} (h : Unmoved s u) (w why) :
    Unmoved s (blocks u w why) := by
  unfold blocks
  split
  · exact h.modSaw _ _
  · exact ⟨h.1, h.2, h.3, h.4⟩

/-! ### Fallback of an empty book, and leaving an overrun -/

theorem raise_saws (s : State) (kind src d) : (s.raise kind src d).saws = s.saws := by
  obtain ⟨l, v, k, heq⟩ := raise_frame s kind src d
  rw [heq]

theorem saws_modSaw_self (s : State) (w : Saw) (f : SawStation → SawStation) :
    (s.modSaw w f).saws[w] = f s.saws[w] := by
  simp [State.modSaw]

/-- The fallback outcome of an empty book, when no carriage takes an opening notice (R156). -/
theorem fallbackEmpty_eq {s : State} (h : s.noChoosers = true) (w : Saw) :
    s.fallbackEmpty w = emptyFallback s w (shownCause s.saws[w]) := by
  have hcause : ((s.saws[w].fallbackCause : Nat) : Int) = shownCause s.saws[w] := by
    unfold SawStation.fallbackCause shownCause
    split <;> rfl
  have hwarned := raise_saws s .sawFallback (.saw w) (shownCause s.saws[w])
  unfold State.fallbackEmpty State.raiseFallback State.emptyOutcome emptyFallback
  rw [hcause]
  have hmoved : Unmoved s (s.raise .sawFallback (.saw w) (shownCause s.saws[w])) :=
    (Unmoved.refl s).raise _ _ _
  generalize s.raise .sawFallback (.saw w) (shownCause s.saws[w]) = warned at *
  dsimp only
  rw [hwarned, enterInfeedBlocked_eq]
  split
  · rfl
  · have hbasic := (hmoved.modSaw w fun y => { y with
      mode := .basic, basicTaken := false, bookTimer := ⟨false, 0⟩ }).noChoosers h
    have hstate : (warned.modSaw w fun y => { y with
        mode := .basic, basicTaken := false, bookTimer := ⟨false, 0⟩ }).saws[w].state
        = s.saws[w].state := by rw [saws_modSaw_self, hwarned]
    have hready : (warned.modSaw w fun y => { y with
        mode := .basic, basicTaken := false, bookTimer := ⟨false, 0⟩ }).saws[w].ready
        = s.saws[w].ready := by rw [saws_modSaw_self, hwarned]
    split
    · next hr =>
      split
      · next ho => exact followReady_opened (hstate.trans ho) (hready.trans hr)
      · next ho => exact followReady_ready hbasic (fun e => ho (hstate.symm.trans e)) (hready.trans hr)
    · next hr => exact followReady_closes (hready.trans (Bool.eq_false_iff.2 hr))

theorem modSaw_congr {s : State} {w : Saw} {f g : SawStation → SawStation}
    (h : f s.saws[w] = g s.saws[w]) : s.modSaw w f = s.modSaw w g := by
  unfold State.modSaw
  rw [h]

theorem bookCount_congr {s u : State} (hcell : u.cell = s.cell) (hrecs : u.stackRecs = s.stackRecs)
    (w : Saw) : u.bookCount w = s.bookCount w := by
  cases s
  cases u
  dsimp only at hcell hrecs
  subst hcell hrecs
  rfl

/-- The records the book count of a saw is read from. -/
def SameStacks (s u : State) : Prop := u.cell = s.cell ∧ u.stackRecs = s.stackRecs

theorem sameStacks_opens (s : State) (w) : SameStacks s (opens s w) := by
  obtain ⟨entries, v, heq, -⟩ := requeueWhere_frame
    (s.modSaw w fun x => { x with state := .opened, cutGo := false })
    (fun e => e.isBlocked && e.saw = w)
  rw [SameStacks, opens, heq]
  exact ⟨rfl, rfl⟩

theorem sameStacks_raise (s : State) (kind src d) : SameStacks s (s.raise kind src d) := by
  obtain ⟨l, v, k, heq⟩ := raise_frame s kind src d
  rw [SameStacks, heq]
  exact ⟨rfl, rfl⟩

theorem sameStacks_blocks (s : State) (w why) : SameStacks s (blocks s w why) := by
  unfold blocks
  split <;> exact ⟨rfl, rfl⟩

theorem SameStacks.trans {s u v : State} (h : SameStacks s u) (k : SameStacks u v) :
    SameStacks s v :=
  ⟨k.1.trans h.1, k.2.trans h.2⟩

theorem sameStacks_emptyFallback (s : State) (w cause) : SameStacks s (emptyFallback s w cause) := by
  have hwarned := sameStacks_raise s .sawFallback (.saw w) cause
  unfold emptyFallback
  dsimp only
  split
  · exact hwarned.trans (sameStacks_blocks _ _ _)
  · split
    · split
      · exact hwarned
      · exact hwarned.trans (sameStacks_opens (State.modSaw _ w _) w)
    · exact hwarned

/-- Leaving BLOCKED, the book timer is loaded in full, by the book the saw had before (R147, R158). -/
theorem reloadBookTimer_eq {s u : State} (h : SameStacks s u) (w : Saw) :
    u.reloadBookTimer w = u.modSaw w fun y => { y with
      bookTimer := ⟨y.state = .opened && y.mode = .book && 1 ≤ s.bookCount w && 1 ≤ y.timeout,
        y.timeout * 1000⟩ } := by
  rw [State.reloadBookTimer, bookCount_congr h.1 h.2]
  exact modSaw_congr rfl

theorem Unmoved.fallsBack {s u : State} (h : Unmoved s u) (w cause) :
    Unmoved s (emptyFallback u w cause) := by
  have hbasic := ((h.raise .sawFallback (.saw w) cause).modSaw w fun y => { y with
      mode := .basic, basicTaken := false, bookTimer := ⟨false, 0⟩ })
  unfold emptyFallback
  dsimp only
  split
  · exact (h.raise _ _ _).blocksInfeed _ _
  · split
    · split
      · exact hbasic
      · exact hbasic.opensInfeed _
    · exact hbasic.modSaw _ _

theorem requeueWhere_saws (s : State) (f : OrderEntry → Bool) : (s.requeueWhere f).saws = s.saws := by
  obtain ⟨entries, v, heq, -⟩ := requeueWhere_frame s f
  rw [heq]

theorem opens_saws (s : State) (w : Saw) :
    (opens s w).saws[w] = { s.saws[w] with state := .opened, cutGo := false } := by
  rw [opens, requeueWhere_saws, saws_modSaw_self]

theorem blocks_saws (s : State) (w : Saw) (why : InfeedBlock) :
    (blocks s w why).saws[w].state = .blocked why := by
  have hblocked := congrArg SawStation.state (saws_modSaw_self s w fun x => { x with
    state := .blocked why, cutGo := false, bookTimer := ⟨false, x.bookTimer.ms⟩
    releasePending := false })
  unfold blocks
  split <;> exact hblocked

/-- The fallback outcome of an empty book blocks the infeed under the fallback lock, and leaves it OPEN or
CLOSED without it. -/
theorem emptyFallback_servable (s : State) (w : Saw) (cause : Int) :
    (emptyFallback s w cause).saws[w].servable = !s.saws[w].lock := by
  have hsaws := raise_saws s .sawFallback (.saw w) cause
  unfold emptyFallback
  dsimp only
  cases hlock : s.saws[w].lock with
  | true =>
    rw [if_pos rfl]
    simp only [SawStation.servable, blocks_saws]
    decide
  | false =>
    rw [if_neg Bool.false_ne_true]
    rw [Bool.not_false, servable_iff]
    split
    · split
      · next ho => exact .inl (by rw [saws_modSaw_self, hsaws]; exact ho)
      · exact .inl (by rw [opens_saws])
    · exact .inr (by rw [saws_modSaw_self])

/-- An infeed leaves its OVERRUN block (R158), when no carriage takes an opening notice. -/
theorem leaveOverrun_eq {s : State} (h : s.noChoosers = true) {w : Saw}
    (hstate : s.saws[w].state = .blocked .overrun) : s.leaveOverrun w = leavesOverrun s w := by
  have hfallback : (decide (s.saws[w].mode = .book) && s.saws[w].fallback) = true ↔
      s.saws[w].mode = .book ∧ fallbackHolds s.saws[w] := by
    rw [Bool.and_eq_true, decide_eq_true_eq, fallback_iff]
  rw [State.leaveOverrun, if_pos hstate]
  unfold leavesOverrun
  dsimp only
  rw [enterInfeedBlocked_eq, fallbackEmpty_eq h, emptyFallback_servable,
    reloadBookTimer_eq (sameStacks_emptyFallback s w _)]
  by_cases hfall : s.saws[w].mode = .book ∧ fallbackHolds s.saws[w]
  · rw [if_pos (hfallback.2 hfall), if_pos hfall]
    by_cases hempty : s.bookCount w = 0
    · rw [if_pos hempty, if_neg (not_not_intro hempty)]
      cases s.saws[w].lock <;> rfl
    · rw [if_neg hempty, if_pos hempty]
  · rw [if_neg (mt hfallback.1 hfall), if_neg hfall]
    by_cases hready : s.saws[w].ready = true
    · rw [if_pos hready, followReady_ready h (by rw [hstate]; exact InfeedState.noConfusion) hready,
        reloadBookTimer_eq (sameStacks_opens s w)]
    · rw [if_neg hready, followReady_closes (Bool.eq_false_iff.2 hready)]
      exact reloadBookTimer_eq ⟨rfl, rfl⟩ w

/-! ### Operations that tell only carriages that take no notice -/

namespace Unmoved
variable {s u : State} (h : Unmoved s u) (hs : s.noChoosers = true)
include h hs

theorem contentChange (p) : Unmoved s (u.contentChange p) := by
  have hrequeued := h.requeueWhere OrderEntry.isStarved
  rw [contentChange_noChoosers (h.noChoosers hs), State.handsOnCount]
  split
  · exact (hrequeued.handCount _ _ _).permitByCount _ _
  · exact hrequeued

theorem setStack (p st runs) : Unmoved s (u.setStack p st runs) := (h.modStack _ _).contentChange hs p

theorem openingNotice (w) : Unmoved s (u.openingNotice w) := by
  rwa [openingNotice_noChoosers (h.noChoosers hs)]

theorem enterOpen (w) : Unmoved s (u.enterOpen w) := by
  rw [enterOpen_eq (h.noChoosers hs)]
  exact h.opensInfeed w

omit hs in
theorem enterInfeedBlocked (w why) : Unmoved s (u.enterInfeedBlocked w why) := by
  rw [enterInfeedBlocked_eq]
  exact h.blocksInfeed w why

theorem followReady (w) : Unmoved s (u.followReady w) := by
  unfold State.followReady
  split
  · split
    · exact h
    · exact h.enterOpen hs w
  · exact h.modSaw _ _

theorem fallbackEmpty (w) : Unmoved s (u.fallbackEmpty w) := by
  rw [fallbackEmpty_eq (h.noChoosers hs)]
  exact h.fallsBack _ _

theorem infeedDefined (w) : Unmoved s (u.infeedDefined w) := by
  unfold State.infeedDefined
  split
  · exact h.enterInfeedBlocked _ _
  · split
    · exact h.fallbackEmpty hs _
    · exact h.followReady hs _

omit hs in
theorem reloadBookTimer (w) : Unmoved s (u.reloadBookTimer w) := by
  unfold State.reloadBookTimer
  exact h.modSaw _ _

theorem leaveOverrun (w) : Unmoved s (u.leaveOverrun w) := by
  unfold State.leaveOverrun
  split
  · split
    · split
      · dsimp only
        split
        · exact (h.fallbackEmpty hs w).reloadBookTimer w
        · exact h.fallbackEmpty hs w
      · exact h.enterInfeedBlocked _ _
    · exact (h.followReady hs w).reloadBookTimer w
  · exact h

theorem recoverReturn (w) : Unmoved s (u.recoverReturn w) :=
  ((h.modSaw _ _).leaveOverrun hs w).handPermit _ _

theorem bookRemoved (w) : Unmoved s (u.bookRemoved w) := by
  unfold State.bookRemoved
  dsimp only
  split
  · split
    · exact ((h.modSaw _ _).openingNotice hs _).fallbackEmpty hs _
    · exact (h.modSaw _ _).fallbackEmpty hs _
  · split
    · exact (h.modSaw _ _).openingNotice hs _
    · exact h.modSaw _ _

end Unmoved

/-! ### Grip profiles and cell parameters -/

section
variable {s : State} {p low high floor : Byte}

theorem doSetGripProfile_badNumber (hp : 8 ≤ p.toNat) :
    s.doSetGripProfile p low high floor = (s, .badValue 1) := by
  have hnone : profileOf p = none := fieldOf_above hp
  simp only [State.doSetGripProfile, hnone]

theorem doSetGripProfile_badVacuum {i : Nat} (hp : p.toNat < 8)
    (hbad : badVacuum 2 [low, high, floor] = some i) :
    s.doSetGripProfile p low high floor = (s, .badValue i) := by
  have hsome : profileOf p = some ⟨p.toNat, hp⟩ := fieldOf_val rfl
  simp only [State.doSetGripProfile, hsome, hbad]

theorem doSetGripProfile_inRange {k : Profile} (hp : p.toNat = k.val) (hlow : low.toNat ≤ 95)
    (hhigh : high.toNat ≤ 95) (hfloor : floor.toNat ≤ 95) :
    s.doSetGripProfile p low high floor
      = if low.toNat < floor.toNat then (s, .badValue 2)
        else if high.toNat < low.toNat then (s, .badValue 3)
        else (s.modCell fun m =>
          { m with profiles := m.profiles.set k.val ⟨low.toNat, high.toNat, floor.toNat⟩ }, .ok) := by
  have hsome : profileOf p = some k := fieldOf_val hp
  have hgood : badVacuum 2 [low, high, floor] = none := by
    simp only [badVacuum, hlow.not_gt, hhigh.not_gt, hfloor.not_gt, if_false]
  simp only [State.doSetGripProfile, hsome, hgood]

end

/-- The parameters of SET CELL PARAMETERS, put in the Cell Map. -/
def State.withParameters (s : State) (t d r : Byte) : State :=
  s.modCell fun m => { m with tolerance := t.toNat, digLimit := d.toNat, trigger := r.toNat }

/-- SET CELL PARAMETERS of values in range (R14, R15). -/
theorem doSetCellParameters_inRange {s : State} {t d r : Byte} (ht : 5 ≤ t.toNat ∧ t.toNat ≤ 50)
    (hd : d.toNat ≤ 120) (hr : 1 ≤ r.toNat ∧ r.toNat ≤ 4) :
    s.doSetCellParameters t d r
      = ((if s.cell.digLimit < d.toNat
          then (s.withParameters t d r).requeueWhere fun e => e.state = .starved .digLimit
          else s.withParameters t d r).judgeAll, .ok) := by
  rw [State.doSetCellParameters, if_neg (by omega), if_neg hd.not_gt, if_neg (by omega)]
  rfl

theorem judgeAll_eq (s : State) : s.judgeAll = (((s.judge 0).judge 1).judge 2).judge 3 := rfl

@[simp] theorem judgeAll_withRequest (s : State) (q : Request) :
    (s.withRequest q).judgeAll = s.judgeAll.withRequest q := by
  simp only [judgeAll_eq, judge_withRequest]

theorem Unmoved.judgesAll {s u : State} (h : Unmoved s u) : Unmoved s u.judgeAll :=
  (((h.judge 0).judge 1).judge 2).judge 3

/-- Accepted with an effect that leaves alone what the end of the step reads. -/
theorem accepts_of_unmoved {s u : State} {q : Request} {fields : List Byte}
    (h : s.takesAtOnce = true)
    (hp : parseRequest (Request.kind q) (Request.body q) = .request q)
    (hr : (s.withRequest q).handle q = (u.withRequest q, .accept fields)) (hu : Unmoved s u) :
    accepts q.command s u (Request.kind q) fields :=
  accepts_of_rested h hp hr (hu.rested (takesAtOnce_rested h))
    (hu.link_waiting (takesAtOnce_waiting h))

section
variable {s : State} {t d r : Byte} (h : s.takesAtOnce = true)
include h

theorem setGripProfile_refuses {p low high floor : Byte} {i : Nat}
    (hbad : ∀ u : State, u.doSetGripProfile p low high floor = (u, .badValue i)) :
    refuses (.setGripProfile p low high floor) s 5 3 (byte i) :=
  refuses_of_handle (q := .setGripProfile p low high floor) (why := .badValue) h rfl (hbad _)

theorem setCellParameters_refuses {i : Nat}
    (hbad : ∀ u : State, u.doSetCellParameters t d r = (u, .badValue i)) :
    refuses (.setCellParameters t d r) s 6 3 (byte i) :=
  refuses_of_handle (q := .setCellParameters t d r) (why := .badValue) h rfl (hbad _)

theorem setCellParameters_accepts (ht : 5 ≤ t.toNat ∧ t.toNat ≤ 50)
    (hd : d.toNat ≤ 120) (hr : 1 ≤ r.toNat ∧ r.toNat ≤ 4) :
    accepts (.setCellParameters t d r) s
      (if s.cell.digLimit < d.toNat
        then (s.withParameters t d r).requeueWhere fun e => e.state = .starved .digLimit
        else s.withParameters t d r).judgeAll 6 [] := by
  have hset : Unmoved s (s.withParameters t d r) := (Unmoved.refl s).modCell _
  refine accepts_of_unmoved (q := .setCellParameters t d r) h rfl
    ((doSetCellParameters_inRange ht hd hr).trans ?_) ?_
  · rw [← judgeAll_withRequest, ite_withRequest, ← requeueWhere_withRequest]
    rfl
  · split
    · exact (hset.requeueWhere _).judgesAll
    · exact hset.judgesAll

end

/-- Settles O24: the checks of SET GRIP PROFILE and SET CELL PARAMETERS in their order, and the effect of
values in range. -/
theorem parametersReplace : Obligations.ParametersReplace := by
  refine ⟨fun s p low high floor h => ?_, fun s t d r h => ?_⟩
  · refine ⟨fun hp => ?_, fun hp hlow => ?_, fun hp hlow hhigh => ?_,
      fun hp hlow hhigh hfloor => ?_, fun hp hlow hhigh hfloor hbelow => ?_,
      fun hp hhigh hrise hlow hbelow => ?_, fun k hk hrise hrise' hhigh => ?_⟩
    · exact setGripProfile_refuses (i := 1) h fun _ => doSetGripProfile_badNumber (by omega)
    · exact setGripProfile_refuses (i := 2) h fun _ =>
        doSetGripProfile_badVacuum (by omega) (by rw [badVacuum, if_pos hlow])
    · exact setGripProfile_refuses (i := 3) h fun _ =>
        doSetGripProfile_badVacuum (by omega)
          (by rw [badVacuum, if_neg hlow.not_gt, badVacuum, if_pos hhigh])
    · exact setGripProfile_refuses (i := 4) h fun _ =>
        doSetGripProfile_badVacuum (by omega)
          (by rw [badVacuum, if_neg hlow.not_gt, badVacuum, if_neg hhigh.not_gt, badVacuum,
            if_pos hfloor])
    · refine setGripProfile_refuses (i := 2) h fun _ => ?_
      rw [doSetGripProfile_inRange (k := ⟨p.toNat, by omega⟩) rfl hlow hhigh hfloor, if_pos hbelow]
    · refine setGripProfile_refuses (i := 3) h fun _ => ?_
      rw [doSetGripProfile_inRange (k := ⟨p.toNat, by omega⟩) rfl hlow hhigh (hrise.trans hlow),
        if_neg hrise.not_gt, if_pos hbelow]
    · refine accepts_of_handle_modCell (q := .setGripProfile p low high floor)
        (f := fun m => { m with
          profiles := m.profiles.set k.val ⟨low.toNat, high.toNat, floor.toNat⟩ }) h rfl
        (Eq.trans (doSetGripProfile_inRange hk (hrise'.trans hhigh) hhigh
          (hrise.trans (hrise'.trans hhigh))) ?_)
      rw [if_neg hrise.not_gt, if_neg hrise'.not_gt]
  · refine ⟨fun ht => ?_, fun ht hd => ?_, fun ht hd hr => ?_, fun ht hlimit hd hr => ?_,
      fun ht hlimit hd hr => ?_⟩
    · exact setCellParameters_refuses (i := 1) h fun _ => by
        rw [State.doSetCellParameters, if_pos (by omega)]
    · exact setCellParameters_refuses (i := 2) h fun _ => by
        rw [State.doSetCellParameters, if_neg (by omega), if_pos hd]
    · exact setCellParameters_refuses (i := 3) h fun _ => by
        rw [State.doSetCellParameters, if_neg (by omega), if_neg hd.not_gt, if_pos (by omega)]
    · have hset := setCellParameters_accepts h ht hd hr
      rwa [if_neg hlimit.not_gt] at hset
    · have hset := setCellParameters_accepts h ht hd hr
      rwa [if_pos hlimit] at hset

end Sys2Proof.Machine
end

section
/-! DEFINE PLACE: its refusals in order (O25) and the definitions it makes (O26). -/

namespace Sys2Proof.Machine

/-! ### Reading the fields -/

theorem kindOf_code {k : Byte} {kind : PlaceKind} (h : k.toNat = placeKindCode kind) :
    kindOf k = some kind := by
  rw [kindOf, h]
  cases kind <;> rfl

theorem kindOf_above {k : Byte} (h : 5 < k.toNat) : kindOf k = none := by
  unfold kindOf
  split
  iterate 6 omega
  rfl

theorem exists_kind {k : Byte} (h : 1 ≤ k.toNat) (h' : k.toNat ≤ 5) :
    ∃ kind, k.toNat = placeKindCode kind ∧ kind ≠ .unused := by
  have hcases : k.toNat = 1 ∨ k.toNat = 2 ∨ k.toNat = 3 ∨ k.toNat = 4 ∨ k.toNat = 5 := by omega
  rcases hcases with h | h | h | h | h <;> rw [h]
  · exact ⟨.stock, rfl, by decide⟩
  · exact ⟨.buffer, rfl, by decide⟩
  · exact ⟨.remnant, rfl, by decide⟩
  · exact ⟨.infeed, rfl, by decide⟩
  · exact ⟨.return_, rfl, by decide⟩

theorem ownLimit_iff (kind : PlaceKind) (h : kind ≠ .unused) :
    kind.ownLimit = true ↔ placeKindCode kind ≤ 3 := by
  revert h
  cases kind <;> decide

theorem hasSaw_iff (kind : PlaceKind) : kind.hasSaw = true ↔ 4 ≤ placeKindCode kind := by
  cases kind <;> decide

theorem servesSaw_eq (kind : PlaceKind) : servesSaw kind = kind.hasSaw := by
  cases kind <;> rfl

theorem not_infeed_of_noTable {kind : PlaceKind} (h : servesSaw kind = false) : kind ≠ .infeed := by
  rintro rfl
  cases h

theorem not_return_of_noTable {kind : PlaceKind} (h : servesSaw kind = false) :
    kind ≠ .return_ := by
  rintro rfl
  cases h

theorem sawOf_isNone (w : Byte) : (sawOf w).isNone = true ↔ 3 < w.toNat := by
  unfold sawOf
  split <;> simp <;> omega

/-! ### The checks -/

section
variable {kind : PlaceKind} {y b h : Half} {n w : Byte} (hkind : kind ≠ .unused)
include hkind

theorem badDefinition_y (hy : ¬y.toNat ≤ 8000) : badDefinition kind y b n h w = some 4 := by
  rw [badDefinition, if_neg hkind, if_pos (by omega)]

theorem badDefinition_base (hy : y.toNat ≤ 8000) (hb : ¬b.toNat ≤ 20000) :
    badDefinition kind y b n h w = some 5 := by
  rw [badDefinition, if_neg hkind, if_neg hy.not_gt, if_pos (by omega)]

theorem limitBad_iff : (kind.ownLimit && (decide (n.toNat < 1) || decide (Config.maxPieces < n.toNat))) = true
    ↔ ¬(3 < placeKindCode kind ∨ (1 ≤ n.toNat ∧ n.toNat ≤ 250)) := by
  rw [Bool.and_eq_true, ownLimit_iff kind hkind, Bool.or_eq_true, decide_eq_true_eq,
    decide_eq_true_eq]
  have hmax : Config.maxPieces = 250 := rfl
  omega

theorem badDefinition_limit (hy : y.toNat ≤ 8000) (hb : b.toNat ≤ 20000)
    (hn : ¬(3 < placeKindCode kind ∨ (1 ≤ n.toNat ∧ n.toNat ≤ 250))) :
    badDefinition kind y b n h w = some 6 := by
  rw [badDefinition, if_neg hkind, if_neg hy.not_gt, if_neg hb.not_gt,
    if_pos ((limitBad_iff hkind).2 hn)]

theorem badDefinition_height (hy : y.toNat ≤ 8000) (hb : b.toNat ≤ 20000)
    (hn : 3 < placeKindCode kind ∨ (1 ≤ n.toNat ∧ n.toNat ≤ 250))
    (hh : ¬(b.toNat + 30 ≤ h.toNat ∧ h.toNat ≤ 30000)) :
    badDefinition kind y b n h w = some 7 := by
  rw [badDefinition, if_neg hkind, if_neg hy.not_gt, if_neg hb.not_gt,
    if_neg (mt (limitBad_iff hkind).1 (not_not_intro hn)), if_pos (by omega)]

theorem badDefinition_saw (hy : y.toNat ≤ 8000) (hb : b.toNat ≤ 20000)
    (hn : 3 < placeKindCode kind ∨ (1 ≤ n.toNat ∧ n.toNat ≤ 250))
    (hh : b.toNat + 30 ≤ h.toNat ∧ h.toNat ≤ 30000) :
    badDefinition kind y b n h w
      = if placeKindCode kind < 4 ∨ w.toNat ≤ 3 then none else some 8 := by
  have hsaw : (kind.hasSaw && (sawOf w).isNone) = true ↔ ¬(placeKindCode kind < 4 ∨ w.toNat ≤ 3) := by
    rw [Bool.and_eq_true, hasSaw_iff, sawOf_isNone]
    omega
  rw [badDefinition, if_neg hkind, if_neg hy.not_gt, if_neg hb.not_gt,
    if_neg (mt (limitBad_iff hkind).1 (not_not_intro hn)), if_neg (by omega)]
  simp only [hsaw, ite_not]

end

theorem badDefinition_unused {y b h : Half} {n w : Byte} :
    badDefinition .unused y b n h w = none := rfl

theorem duplicatePlace_iff (s : State) (p : Place) (kind : PlaceKind) (w : Option Saw) :
    s.duplicatePlace p kind w = true ↔ servesSaw kind = true
      ∧ ∃ q, q ≠ p ∧ s.cell.places[q].kind = kind ∧ s.cell.places[q].saw = w := by
  rw [State.duplicatePlace, Bool.and_eq_true, servesSaw_eq, List.any_eq_true]
  simp only [allPlaces, List.mem_finRange, true_and, Bool.and_eq_true, decide_eq_true_eq, and_assoc,
    ne_eq]
  rfl

/-- The place has pieces, a user or a record of its saw that a new definition would break (R6). -/
def State.placeUsed (s : State) (place : Place) (kind : PlaceKind) : Prop :=
  (∃ r, s.stackRecs[place] = some r ∧ (r.state ≠ .empty ∨ r.user ≠ none))
    ∨ (∃ v, s.cell.places[place].kind = .infeed ∧ s.cell.places[place].saw = some v
        ∧ ((∃ e ∈ s.queue.entries, e.saw = v) ∨ s.saws[v].state = .cutting
          ∨ ∃ why, s.saws[v].state = .blocked why))
    ∨ (∃ v, s.cell.places[place].kind = .return_ ∧ s.cell.places[place].saw = some v
        ∧ s.saws[v].overrun = true)
    ∨ (s.cell.places[place].kind = .buffer ∧ kind ≠ .buffer
        ∧ ∃ e ∈ s.queue.entries, e.divert = some place)

theorem infeedBlocked_isSome (s : State) (w : Saw) :
    (s.infeedBlocked w).isSome = true ↔ ∃ why, s.saws[w].state = .blocked why := by
  unfold State.infeedBlocked
  split
  · next why h => exact ⟨fun _ => ⟨why, h⟩, fun _ => rfl⟩
  · next h => exact ⟨fun k => absurd k Bool.false_ne_true, fun ⟨why, k⟩ => absurd k (h why)⟩

theorem placeInUse_iff (s : State) (p : Place) (kind : PlaceKind) :
    s.placeInUse p kind = true ↔ s.placeUsed p kind := by
  have hkindAt : s.kindAt p = s.cell.places[p].kind := rfl
  unfold State.placeInUse State.placeUsed
  rw [Bool.or_eq_true]
  refine or_congr ?_ ?_
  · cases s.stackRecs[p] with
    | none => simp
    | some r => simp [Option.isSome_iff_ne_none]
  · rw [hkindAt]
    cases hk : s.cell.places[p].kind <;> cases hw : s.cell.places[p].saw <;>
      simp [infeedBlocked_isSome, or_assoc]

/-! ### What DEFINE PLACE answers -/

section
variable {s : State} {p k n w : Byte} {x y b h : Half}

theorem doDefinePlace_badPlace (hp : 32 ≤ p.toNat) :
    s.doDefinePlace p k x y b n h w = (s, .badValue 1) := by
  have hnone : placeOf p = none := fieldOf_above hp
  simp only [State.doDefinePlace, hnone]

theorem doDefinePlace_badKind (hp : p.toNat < 32) (hk : 5 < k.toNat) :
    s.doDefinePlace p k x y b n h w = (s, .badValue 2) := by
  have hsome : placeOf p = some ⟨p.toNat, hp⟩ := fieldOf_val rfl
  simp only [State.doDefinePlace, hsome, kindOf_above hk]

variable {place : Place} {kind : PlaceKind} (hp : p.toNat = place.val)
  (hk : k.toNat = placeKindCode kind)
include hp hk

theorem doDefinePlace_badField {i : Nat} (hbad : badDefinition kind y b n h w = some i) :
    s.doDefinePlace p k x y b n h w = (s, .badValue i) := by
  have hsome : placeOf p = some place := fieldOf_val hp
  simp only [State.doDefinePlace, hsome, kindOf_code hk, hbad]

theorem doDefinePlace_inRange (hgood : badDefinition kind y b n h w = none) :
    s.doDefinePlace p k x y b n h w
      = let v := if kind.hasSaw then sawOf w else none
        if s.duplicatePlace place kind v then (s, .refuse .duplicate 0)
        else if s.placeInUse place kind then (s, .refuse .inUse 0)
        else (s.redefine place
          ⟨kind, x.toNat, y.toNat, b.toNat, kind.limit n.toNat, h.toNat, v⟩, .ok) := by
  have hsome : placeOf p = some place := fieldOf_val hp
  simp only [State.doDefinePlace, hsome, kindOf_code hk, hgood]

end

section
variable {s : State} {p k n w : Byte} {x y b h : Half} (hs : s.takesAtOnce = true)
include hs

theorem definePlace_refuses {why : Reason} {i : Nat}
    (hbad : (s.withRequest (.definePlace p k x y b n h w)).doDefinePlace p k x y b n h w
      = (s.withRequest (.definePlace p k x y b n h w), .refuse why i)) :
    refuses (.definePlace p k x y b n h w) s 7 (reasonCode why) (byte i) :=
  refuses_of_handle (q := .definePlace p k x y b n h w) hs (parseRequest_definePlace p k x y b n h w)
    hbad

end

theorem badDefinition_good {kind : PlaceKind} {y b h : Half} {n w : Byte}
    (hgood : kind = .unused ∨ (y.toNat ≤ 8000 ∧ b.toNat ≤ 20000
      ∧ (3 < placeKindCode kind ∨ (1 ≤ n.toNat ∧ n.toNat ≤ 250))
      ∧ (b.toNat + 30 ≤ h.toNat ∧ h.toNat ≤ 30000) ∧ (placeKindCode kind < 4 ∨ w.toNat ≤ 3))) :
    badDefinition kind y b n h w = none := by
  by_cases hkind : kind = .unused
  · subst hkind
    rfl
  · obtain ⟨hy, hb, hn, hh, hw⟩ := hgood.resolve_left hkind
    rw [badDefinition_saw hkind hy hb hn hh, if_pos hw]

@[simp] theorem duplicatePlace_withRequest (s : State) (q : Request) (p k w) :
    (s.withRequest q).duplicatePlace p k w = s.duplicatePlace p k w := rfl

@[simp] theorem placeInUse_withRequest (s : State) (q : Request) (p k) :
    (s.withRequest q).placeInUse p k = s.placeInUse p k := rfl

/-- Another place serves the saw of the request already (R6). -/
theorem duplicate_iff (s : State) (p : Place) (kind : PlaceKind) (w : Byte) :
    s.duplicatePlace p kind (if kind.hasSaw then sawOf w else none) = true
      ↔ servesSaw kind = true
        ∧ ∃ q, q ≠ p ∧ s.cell.places[q].kind = kind ∧ s.cell.places[q].saw = sawOf w := by
  rw [duplicatePlace_iff]
  refine and_congr_right fun hserves => ?_
  rw [if_pos (servesSaw_eq kind ▸ hserves)]

/-- Settles O25: the checks of DEFINE PLACE, each reached when those before it pass. -/
theorem definePlaceRefused : Obligations.DefinePlaceRefused := by
  intro s p k n w x y b h hs
  have hrefuse := fun i => definePlace_refuses (p := p) (k := k) (n := n) (w := w) (x := x) (y := y)
    (b := b) (h := h) hs (why := .badValue) (i := i)
  refine ⟨fun hp => ?_, fun hp hk => ?_, fun ⟨hp, hk1, hk5⟩ hy => ?_,
    fun ⟨hp, hk1, hk5⟩ hy hb => ?_, fun ⟨hp, hk1, hk5⟩ hy hb hn => ?_,
    fun ⟨hp, hk1, hk5⟩ hy hb hn hh => ?_, fun ⟨hp, hk1, hk5⟩ hy hb hn hh hw => ?_,
    fun place kind hp hk hgood => ?_⟩
  · exact hrefuse 1 (doDefinePlace_badPlace (by omega))
  · exact hrefuse 2 (doDefinePlace_badKind (by omega) hk)
  · obtain ⟨kind, hk, hused⟩ := exists_kind hk1 hk5
    exact hrefuse 4 (doDefinePlace_badField (place := ⟨p.toNat, by omega⟩) rfl hk
      (badDefinition_y hused hy))
  · obtain ⟨kind, hk, hused⟩ := exists_kind hk1 hk5
    exact hrefuse 5 (doDefinePlace_badField (place := ⟨p.toNat, by omega⟩) rfl hk
      (badDefinition_base hused hy hb))
  · obtain ⟨kind, hk, hused⟩ := exists_kind hk1 hk5
    exact hrefuse 6 (doDefinePlace_badField (place := ⟨p.toNat, by omega⟩) rfl hk
      (badDefinition_limit hused hy hb (hk ▸ hn)))
  · obtain ⟨kind, hk, hused⟩ := exists_kind hk1 hk5
    exact hrefuse 7 (doDefinePlace_badField (place := ⟨p.toNat, by omega⟩) rfl hk
      (badDefinition_height hused hy hb (hk ▸ hn) hh))
  · obtain ⟨kind, hk, hused⟩ := exists_kind hk1 hk5
    refine hrefuse 8 (doDefinePlace_badField (place := ⟨p.toNat, by omega⟩) rfl hk ?_)
    rw [badDefinition_saw hused hy hb (hk ▸ hn) hh, if_neg (hk ▸ hw)]
  · have hchecks := doDefinePlace_inRange (s := s.withRequest (.definePlace p k x y b n h w))
      (x := x) hp hk (badDefinition_good (hk ▸ hgood))
    dsimp only at hchecks
    rw [duplicatePlace_withRequest, placeInUse_withRequest] at hchecks
    refine ⟨fun hserves hdup => ?_, fun hdup hused => ?_⟩
    · rw [if_pos ((duplicate_iff s place kind w).2 ⟨hserves, hdup⟩)] at hchecks
      exact definePlace_refuses (i := 0) hs hchecks
    · rw [if_neg (mt (duplicate_iff s place kind w).1 hdup),
        if_pos ((placeInUse_iff s place kind).2 hused)] at hchecks
      exact definePlace_refuses (i := 0) hs hchecks

/-! ### A new definition takes effect -/

@[simp] theorem infeedUndefined_withRequest (s : State) (q : Request) (w) :
    (s.withRequest q).infeedUndefined w = (s.infeedUndefined w).withRequest q := rfl

@[simp] theorem loseTable_withRequest (s : State) (q : Request) (old new) :
    (s.withRequest q).loseTable old new = (s.loseTable old new).withRequest q := by
  unfold State.loseTable
  split
  · rw [ite_withRequest]
    rfl
  · rw [ite_withRequest]
    rfl
  · rfl

@[simp] theorem gainTable_withRequest (s : State) (q : Request) (p old new) :
    (s.withRequest q).gainTable p old new = (s.gainTable p old new).withRequest q := by
  unfold State.gainTable
  split
  · rw [ite_withRequest, infeedDefined_withRequest]
  · rw [ite_withRequest]
    rfl
  · rfl

@[simp] theorem redefine_withRequest (s : State) (q : Request) (p new) :
    (s.withRequest q).redefine p new = (s.redefine p new).withRequest q := by
  simp only [State.redefine, withRequest_cell, loseTable_withRequest, modCell_withRequest,
    putStack_withRequest, gainTable_withRequest, contentChange_withRequest, ite_withRequest]

theorem Unmoved.gainsTable {s u : State} (h : Unmoved s u) (hs : s.noChoosers = true) (p old new) :
    Unmoved s (u.gainTable p old new) := by
  unfold State.gainTable
  split
  · split
    · exact h
    · exact h.infeedDefined hs _
  · split
    · exact h
    · exact (h.modSaw _ _).putReturn _ _
  · exact h

theorem Unmoved.redefines {s : State} (hs : s.noChoosers = true) (p new) :
    Unmoved s (s.redefine p new) := by
  have hlost : Unmoved s (s.loseTable s.cell.places[p] new) := by
    unfold State.loseTable
    split
    · split
      · exact .refl s
      · exact (Unmoved.refl s).modSaw _ _
    · split
      · exact .refl s
      · exact ((Unmoved.refl s).modSaw _ _).putReturn _ _
    · exact .refl s
  have hdefined := (hlost.modCell fun m => { m with places := m.places.set p.val new }).putStack p
    (if new.kind = .unused then none else some ⟨.empty, none, []⟩)
  have hgained := hdefined.gainsTable hs p s.cell.places[p] new
  unfold State.redefine
  dsimp only
  split
  · exact hgained
  · exact hgained.contentChange hs p

theorem definePlace_accepts {s t : State} {p k n w : Byte} {x y b h : Half} {place : Place}
    {kind : PlaceKind} (hs : s.takesAtOnce = true) (hp : p.toNat = place.val)
    (hk : k.toNat = placeKindCode kind) (hgood : badDefinition kind y b n h w = none)
    (hdup : ¬(servesSaw kind = true
      ∧ ∃ q, q ≠ place ∧ s.cell.places[q].kind = kind ∧ s.cell.places[q].saw = sawOf w))
    (hused : ¬s.placeUsed place kind)
    (ht : s.redefine place ⟨kind, x.toNat, y.toNat, b.toNat, kind.limit n.toNat, h.toNat,
      if kind.hasSaw then sawOf w else none⟩ = t)
    (hquiet : s.noChoosers = true) :
    accepts (.definePlace p k x y b n h w) s t 7 [] := by
  have hchecks := doDefinePlace_inRange (s := s.withRequest (.definePlace p k x y b n h w))
    (x := x) hp hk hgood
  dsimp only at hchecks
  rw [duplicatePlace_withRequest, placeInUse_withRequest,
    if_neg (mt (duplicate_iff s place kind w).1 hdup),
    if_neg (mt (placeInUse_iff s place kind).1 hused), redefine_withRequest, ht] at hchecks
  exact accepts_of_unmoved (q := .definePlace p k x y b n h w) hs
    (parseRequest_definePlace p k x y b n h w) hchecks (ht ▸ Unmoved.redefines hquiet _ _)

/-- The definition and the stack record of a place are replaced (R7). -/
def State.defined (s : State) (p : Place) (new : PlaceDef) : State :=
  (s.modCell fun m => { m with places := m.places.set p.val new }).putStack p
    (if new.kind = .unused then none else some ⟨.empty, none, []⟩)

theorem defined_kind (s : State) (p : Place) (new : PlaceDef) :
    (s.defined p new).cell.places[p] = new := by
  simp [State.defined, State.modCell]

theorem Unmoved.defines {s u : State} (h : Unmoved s u) (p new) : Unmoved s (u.defined p new) :=
  (h.modCell _).putStack _ _

theorem redefine_eq (s : State) (p : Place) (new : PlaceDef) :
    s.redefine p new
      = if s.cell.places[p].kind = .unused ∧ new.kind = .unused
        then ((s.loseTable s.cell.places[p] new).defined p new).gainTable p s.cell.places[p] new
        else (((s.loseTable s.cell.places[p] new).defined p new).gainTable p s.cell.places[p]
          new).contentChange p := rfl

section
variable {s : State} {p : Place} {new : PlaceDef} {w : Saw} (h : s.noChoosers = true)
include h

/-- A saw loses its INFEED place (R7, R145). -/
theorem redefine_losesInfeed (hkind : s.cell.places[p].kind = .infeed)
    (hsaw : s.cell.places[p].saw = some w) (hnew : new.kind = .unused) :
    s.redefine p new = ((s.infeedUndefined w).defined p new).requeueWhere OrderEntry.isStarved := by
  have hlose : s.loseTable s.cell.places[p] new = s.infeedUndefined w := by
    simp only [State.loseTable, hkind, hsaw, hnew]
    rfl
  have hgain : ∀ u : State, u.gainTable p s.cell.places[p] new = u := fun u => by
    simp only [State.gainTable, hnew]
  rw [redefine_eq, if_neg (by rw [hkind]; simp), hlose, hgain]
  refine contentChange_requeues ((((Unmoved.refl s).modSaw w _).defines p new).noChoosers h) ?_
  rw [defined_kind, hnew]
  exact PlaceKind.noConfusion

/-- A saw loses its RETURN place (R7, R161). -/
theorem redefine_losesReturn (hkind : s.cell.places[p].kind = .return_)
    (hsaw : s.cell.places[p].saw = some w) (hnew : new.kind = .unused) :
    s.redefine p new = ((((s.modSaw w fun x => { x with permitHold := false }).putReturn w
      none).defined p new)).requeueWhere OrderEntry.isStarved := by
  have hlose : s.loseTable s.cell.places[p] new
      = (s.modSaw w fun x => { x with permitHold := false }).putReturn w none := by
    simp only [State.loseTable, hkind, hsaw, hnew]
    rfl
  have hgain : ∀ u : State, u.gainTable p s.cell.places[p] new = u := fun u => by
    simp only [State.gainTable, hnew]
  rw [redefine_eq, if_neg (by rw [hkind]; simp), hlose, hgain]
  refine contentChange_requeues
    (((((Unmoved.refl s).modSaw w _).putReturn w _).defines p new).noChoosers h) ?_
  rw [defined_kind, hnew]
  exact PlaceKind.noConfusion

omit h in
/-- The place served no saw. -/
theorem loseTable_of_noTable (hold : servesSaw s.cell.places[p].kind = false) :
    s.loseTable s.cell.places[p] new = s := by
  unfold State.loseTable
  split
  · next hkind _ => exact absurd hkind (not_infeed_of_noTable hold)
  · next hkind _ => exact absurd hkind (not_return_of_noTable hold)
  · rfl

omit h in
theorem gainTable_of_noTable {u : State} {old : PlaceDef} (hnew : servesSaw new.kind = false) :
    u.gainTable p old new = u := by
  unfold State.gainTable
  split
  · next hkind _ => exact absurd hkind (not_infeed_of_noTable hnew)
  · next hkind _ => exact absurd hkind (not_return_of_noTable hnew)
  · rfl

/-- A place without a table takes a definition without one (R7). -/
theorem redefine_noTable (hold : servesSaw s.cell.places[p].kind = false)
    (hnew : servesSaw new.kind = false) :
    s.redefine p new = if s.cell.places[p].kind = .unused ∧ new.kind = .unused then s.defined p new
      else (s.defined p new).requeueWhere OrderEntry.isStarved := by
  rw [redefine_eq, loseTable_of_noTable hold, gainTable_of_noTable hnew,
    contentChange_requeues (((Unmoved.refl s).defines p new).noChoosers h)
      (by rw [defined_kind]; exact not_return_of_noTable hnew)]

omit h in
/-- A saw gains its INFEED place, with no overrun and no fallback of BOOK mode (R145). -/
theorem redefine_gainsInfeed (hold : servesSaw s.cell.places[p].kind = false)
    (hnew : new.kind = .infeed) (hsaw : new.saw = some w) (hoverrun : s.saws[w].overrun = false)
    (hfallback : ¬(s.saws[w].mode = .book ∧ fallbackHolds s.saws[w])) :
    s.redefine p new = ((s.defined p new).followReady w).contentChange p := by
  have hinfeed : (s.defined p new).infeedDefined w = (s.defined p new).followReady w := by
    have hover : (s.defined p new).saws[w].overrun ≠ true :=
      fun e => Bool.false_ne_true (hoverrun.symm.trans e)
    have hfall : ¬(decide ((s.defined p new).saws[w].mode = .book)
        && (s.defined p new).saws[w].fallback) = true := fun e => by
      rw [Bool.and_eq_true, decide_eq_true_eq, fallback_iff] at e
      exact hfallback e
    rw [State.infeedDefined, if_neg hover, if_neg hfall]
  have hgain : (s.defined p new).gainTable p s.cell.places[p] new
      = (s.defined p new).followReady w := by
    simp only [State.gainTable, hnew, hsaw]
    rw [if_neg fun e => not_infeed_of_noTable hold e.1, hinfeed]
  rw [redefine_eq, if_neg (by rw [hnew]; simp), loseTable_of_noTable hold, hgain]

omit h in
/-- A saw gains its RETURN place: its entry counts no piece and is not due (R161). -/
theorem redefine_gainsReturn (hold : servesSaw s.cell.places[p].kind = false)
    (hnew : new.kind = .return_) (hsaw : new.saw = some w) :
    s.redefine p new = (((s.defined p new).modSaw w fun x => { x with permitHold := false }).putReturn
      w (some ⟨p, 0, false, false, .notDue⟩)).contentChange p := by
  have hgain : (s.defined p new).gainTable p s.cell.places[p] new
      = ((s.defined p new).modSaw w fun x => { x with permitHold := false }).putReturn w
        (some ⟨p, 0, false, false, .notDue⟩) := by
    simp only [State.gainTable, hnew, hsaw]
    rw [if_neg fun e => not_return_of_noTable hold e.1]
  rw [redefine_eq, if_neg (by rw [hnew]; simp), loseTable_of_noTable hold, hgain]

end

theorem modReturn_fixed {s : State} {w : Saw} {f : ReturnEntry → ReturnEntry}
    (h : s.queue.returns[w].map f = s.queue.returns[w]) : s.modReturn w f = s := by
  have hset : s.queue.returns.set w.val s.queue.returns[w] = s.queue.returns :=
    Vector.set_getElem_self _
  rw [State.modReturn, h, hset]

/-- The count of an empty return place changes nothing of an entry that counts no piece. -/
theorem handCount_zero {s : State} {w : Saw} {p : Place} {b : Bool}
    (h : s.queue.returns[w] = some ⟨p, 0, false, b, .notDue⟩) : s.handCount w 0 false = s := by
  have hsame : s.modReturn w (fun r => { r with count := 0, ready := false }) = s :=
    modReturn_fixed (by rw [h]; rfl)
  rw [State.handCount, hsame]
  exact judge_staysNotDue h rfl rfl

/-- No piece lies on the return place and the permit hold is NO already. -/
theorem permitByCount_zero {s : State} {w : Saw} (h : s.saws[w].permitHold = false) :
    s.permitByCount w 0 = s := by
  have hlimit : ¬Config.returnLimit ≤ 0 := by decide
  rw [State.permitByCount, if_neg hlimit]
  split
  · rfl
  · rw [State.setPermitHold, if_pos h]

/-- A content change of an empty return place whose entry counts no piece requeues and does no more. -/
theorem contentChange_emptyReturn {s : State} (h : s.noChoosers = true) {p : Place} {w : Saw}
    {b : Bool} (hkind : s.cell.places[p].kind = .return_) (hsaw : s.cell.places[p].saw = some w)
    (hrec : s.stackRecs[p] = some ⟨.empty, none, []⟩)
    (hentry : s.queue.returns[w] = some ⟨p, 0, false, b, .notDue⟩)
    (hhold : s.saws[w].permitHold = false) :
    s.contentChange p = s.requeueWhere OrderEntry.isStarved := by
  obtain ⟨entries, v, heq, -⟩ := requeueWhere_frame s OrderEntry.isStarved
  rw [contentChange_noChoosers h, State.requeueStarved, heq]
  simp only [State.handsOnCount, State.kindAt, hkind, hsaw, State.runsAt, State.stackState, hrec]
  have hcount : State.handCount { s with queue := { s.queue with entries := entries }, seq := v } w 0
      false = { s with queue := { s.queue with entries := entries }, seq := v } :=
    handCount_zero hentry
  exact (congrArg (fun u => State.permitByCount u w 0) hcount).trans (permitByCount_zero hhold)

/-- A saw that has gained its RETURN place. -/
theorem redefine_gainedReturn {s : State} (h : s.noChoosers = true) {p : Place} {new : PlaceDef}
    {w : Saw} (hold : servesSaw s.cell.places[p].kind = false) (hnew : new.kind = .return_)
    (hsaw : new.saw = some w) :
    s.redefine p new = ((((s.defined p new).modSaw w fun x => { x with permitHold := false }).putReturn
      w (some ⟨p, 0, false, false, .notDue⟩)).requeueWhere OrderEntry.isStarved) := by
  rw [redefine_gainsReturn hold hnew hsaw]
  refine contentChange_emptyReturn (w := w) (b := false)
    (((((Unmoved.refl s).defines p new).modSaw w _).putReturn w _).noChoosers h) ?_ ?_ ?_ ?_ ?_
  · rw [putReturn_cell, modSaw_cell, defined_kind, hnew]
  · rw [putReturn_cell, modSaw_cell, defined_kind, hsaw]
  · simp [State.defined, State.putStack, hnew]
  · simp [State.putReturn]
  · rw [putReturn_saws, saws_modSaw_self]

section
variable {s : State} (h : s.noChoosers = true) {p : Place} {new : PlaceDef} {w : Saw}
  (hold : servesSaw s.cell.places[p].kind = false) (hnew : new.kind = .infeed)
  (hsaw : new.saw = some w) (hoverrun : s.saws[w].overrun = false)
  (hfallback : ¬(s.saws[w].mode = .book ∧ fallbackHolds s.saws[w]))
include h hold hnew hsaw hoverrun hfallback

theorem redefine_closedInfeed (hready : s.saws[w].ready = false) :
    s.redefine p new = ((s.defined p new).modSaw w fun x =>
      { x with state := .closed, cutGo := false }).requeueWhere OrderEntry.isStarved := by
  rw [redefine_gainsInfeed hold hnew hsaw hoverrun hfallback,
    followReady_closes (s := s.defined p new) hready]
  refine contentChange_requeues ((((Unmoved.refl s).defines p new).modSaw w _).noChoosers h) ?_
  rw [modSaw_cell, defined_kind, hnew]
  exact PlaceKind.noConfusion

theorem redefine_openedInfeed (hstate : s.saws[w].state ≠ .opened) (hready : s.saws[w].ready = true) :
    s.redefine p new = (opens (s.defined p new) w).requeueWhere OrderEntry.isStarved := by
  rw [redefine_gainsInfeed hold hnew hsaw hoverrun hfallback,
    followReady_ready (s := s.defined p new) h hstate hready]
  refine contentChange_requeues
    ((((Unmoved.refl s).defines p new).opensInfeed w).noChoosers h) ?_
  rw [(sameStacks_opens _ w).1, defined_kind, hnew]
  exact PlaceKind.noConfusion

end

/-! ### Definitions in range -/

theorem ofNat_val {n : Nat} (hn : n ≤ 256) (k : Fin n) : (BitVec.ofNat 8 k.val).toNat = k.val := by
  simp only [BitVec.toNat_ofNat]
  omega

theorem ofNat_kindCode (kind : PlaceKind) :
    (BitVec.ofNat 8 (placeKindCode kind)).toNat = placeKindCode kind := by
  cases kind <;> rfl

theorem sawOf_val (w : Saw) : sawOf (BitVec.ofNat 8 w.val) = some w :=
  fieldOf_val (ofNat_val (by decide) w)

theorem limit_eq (kind : PlaceKind) (n : Nat) :
    kind.limit n = if kind = .infeed then 8 else if kind = .return_ then 4 else n := by
  cases kind <;> rfl

theorem atEase_iff (s : State) :
    s.atEase = true ↔ s.takesAtOnce = true ∧ s.noClaims = true ∧ s.noChoosers = true := by
  simp [State.atEase, and_assoc]

/-- An empty place with no user, and no table, is not in use; a BUFFER place under the condition that no
order is diverted to it (R6). -/
theorem not_placeUsed {s : State} {place : Place} {kind : PlaceKind}
    (hrec : ∀ r, s.stackRecs[place] = some r → r.state = .empty ∧ r.user = none)
    (hinfeed : ∀ v, s.cell.places[place].kind = .infeed → s.cell.places[place].saw = some v →
      (∀ e ∈ s.queue.entries, e.saw ≠ v) ∧ (s.saws[v].state = .opened ∨ s.saws[v].state = .closed))
    (hreturn : ∀ v, s.cell.places[place].kind = .return_ → s.cell.places[place].saw = some v →
      s.saws[v].overrun = false)
    (hbuffer : s.cell.places[place].kind = .buffer → ∀ e ∈ s.queue.entries, e.divert ≠ some place) :
    ¬s.placeUsed place kind := by
  rintro (⟨r, hr, hstate | huser⟩ | ⟨v, hkind, hsaw, hbusy⟩ | ⟨v, hkind, hsaw, hover⟩
    | ⟨hkind, -, e, he, hdivert⟩)
  · exact hstate (hrec r hr).1
  · exact huser (hrec r hr).2
  · obtain ⟨hnone, hstate⟩ := hinfeed v hkind hsaw
    rcases hbusy with ⟨e, he, hev⟩ | hcut | ⟨why, hblocked⟩
    · exact hnone e he hev
    · rcases hstate with h | h <;> exact InfeedState.noConfusion (h.symm.trans hcut)
    · rcases hstate with h | h <;> exact InfeedState.noConfusion (h.symm.trans hblocked)
  · exact Bool.false_ne_true ((hreturn v hkind hsaw).symm.trans hover)
  · exact hbuffer hkind e he hdivert

/-- A place made UNUSED. -/
theorem undefine_accepts {s t : State} {place : Place} {x y b h : Half} {n v : Byte}
    (hs : s.takesAtOnce = true) (hquiet : s.noChoosers = true)
    (hused : ¬s.placeUsed place .unused)
    (ht : s.redefine place ⟨.unused, x.toNat, y.toNat, b.toNat, n.toNat, h.toNat, none⟩ = t) :
    accepts (.definePlace (BitVec.ofNat 8 place.val) 0 x y b n h v) s t 7 [] :=
  definePlace_accepts (kind := .unused) hs (ofNat_val (by decide) place) rfl badDefinition_unused
    (fun hdup => Bool.false_ne_true hdup.1) hused ht hquiet

/-- A place with a definition in range. -/
theorem define_accepts {s t : State} {place : Place} {kind : PlaceKind} {w : Saw} {x y b h : Half}
    {n : Byte} (hs : s.takesAtOnce = true) (hquiet : s.noChoosers = true)
    (hy : y.toNat ≤ 8000) (hb : b.toNat ≤ 20000) (hn : 1 ≤ n.toNat) (hn' : n.toNat ≤ 250)
    (hh : b.toNat + 30 ≤ h.toNat) (hh' : h.toNat ≤ 30000)
    (hdup : ∀ q, q ≠ place → s.cell.places[q].kind = kind → s.cell.places[q].saw ≠ some w)
    (hused : ¬s.placeUsed place kind)
    (ht : s.redefine place ⟨kind, x.toNat, y.toNat, b.toNat,
      if kind = .infeed then 8 else if kind = .return_ then 4 else n.toNat, h.toNat,
      if servesSaw kind then some w else none⟩ = t) :
    accepts (.definePlace (BitVec.ofNat 8 place.val) (BitVec.ofNat 8 (placeKindCode kind)) x y b n h
      (BitVec.ofNat 8 w.val)) s t 7 [] := by
  have hgood : badDefinition kind y b n h (BitVec.ofNat 8 w.val) = none :=
    badDefinition_good (.inr ⟨hy, hb, .inr ⟨hn, hn'⟩, ⟨hh, hh'⟩,
      .inr (by rw [ofNat_val (by decide) w]; omega)⟩)
  refine definePlace_accepts hs (ofNat_val (by decide) place) (ofNat_kindCode kind) hgood ?_ hused ?_
    hquiet
  · rintro ⟨-, q, hq, hkind, hsaw⟩
    exact hdup q hq hkind (hsaw.trans (sawOf_val w))
  · rw [sawOf_val, limit_eq, ← servesSaw_eq]
    exact ht

/-- Settles O26: the places that lose a table, and the places that get a new definition, by its kind. -/
theorem definePlaceDefines : Obligations.DefinePlaceDefines := by
  refine ⟨fun s place w x y b h n v hease hrec hsaw => ?_,
    fun s place kind w n x y b h hease hy hb hn hn' hh hh' hdup hrec hold hbuffer => ?_⟩
  · obtain ⟨hs, -, hquiet⟩ := (atEase_iff s).1 hease
    have hempty : ∀ r, s.stackRecs[place] = some r → r.state = .empty ∧ r.user = none := fun r hr => by
      cases hrec.symm.trans hr
      exact ⟨rfl, rfl⟩
    refine ⟨fun hkind hqueue hstate => ?_, fun hkind hover => ?_⟩
    · refine undefine_accepts hs hquiet (not_placeUsed hempty (fun u _ hu => ?_)
        (fun u hk _ => absurd (hkind.symm.trans hk) (by decide))
        fun hk => absurd (hkind.symm.trans hk) (by decide))
        (redefine_losesInfeed hquiet hkind hsaw rfl)
      cases hsaw.symm.trans hu
      exact ⟨hqueue, hstate⟩
    · refine undefine_accepts hs hquiet (not_placeUsed hempty
        (fun u hk _ => absurd (hkind.symm.trans hk) (by decide)) (fun u _ hu => ?_)
        fun hk => absurd (hkind.symm.trans hk) (by decide))
        (redefine_losesReturn hquiet hkind hsaw rfl)
      cases hsaw.symm.trans hu
      exact hover
  · obtain ⟨hs, -, hquiet⟩ := (atEase_iff s).1 hease
    have htable : servesSaw s.cell.places[place].kind = false := by
      rcases hold with h | h
      · revert h
        cases s.cell.places[place].kind <;> decide
      · rw [h]
        rfl
    have hused : ¬s.placeUsed place kind := not_placeUsed hrec
      (fun _ hk _ => absurd hk (not_infeed_of_noTable htable))
      (fun _ hk _ => absurd hk (not_return_of_noTable htable)) hbuffer
    have haccepts := fun t => define_accepts (t := t) (x := x) hs hquiet hy hb hn hn' hh hh' hdup hused
    refine ⟨fun hkind => ?_, fun hkind hwas => ?_, fun hkind hwas => ?_, fun hkind => ?_,
      fun hkind hover hstate hfall hready => ?_, fun hkind hover hstate hfall hready => ?_⟩
    · have hnew : servesSaw kind = false := by
        revert hkind
        cases kind <;> decide
      have hused' : kind ≠ .unused := fun e => by
        subst e
        exact Bool.false_ne_true hkind
      exact haccepts _ ((redefine_noTable hquiet htable hnew).trans (if_neg fun e => hused' e.2))
    · subst hkind
      exact haccepts _ ((redefine_noTable hquiet htable rfl).trans (if_neg fun e => hwas e.1))
    · subst hkind
      exact haccepts _ ((redefine_noTable hquiet htable rfl).trans (if_pos ⟨hwas, rfl⟩))
    · subst hkind
      exact haccepts _ (redefine_gainedReturn hquiet htable rfl rfl)
    · subst hkind
      exact haccepts _ (redefine_closedInfeed hquiet htable rfl rfl hover hfall hready)
    · subst hkind
      have hclosed : s.saws[w].state ≠ .opened := by
        rw [hstate]
        exact InfeedState.noConfusion
      exact haccepts _ (redefine_openedInfeed hquiet htable rfl rfl hover hfall hclosed hready)

end Sys2Proof.Machine
end

section
/-! SAW CONFIG (O27): its checks in order, and the settings it puts into effect. -/

namespace Sys2Proof.Machine

/-! ### Reading the settings -/

theorem modeOf_code {m : Byte} {mode : SawMode} (h : m.toNat = modeCode mode) :
    modeOf m = some mode := by
  rw [modeOf, h]
  cases mode <;> rfl

theorem modeOf_above {m : Byte} (h : 1 < m.toNat) : modeOf m = none := by
  unfold modeOf
  split
  · omega
  · omega
  · rfl

theorem exists_mode {m : Byte} (h : m.toNat ≤ 1) : ∃ mode, m.toNat = modeCode mode := by
  have hcases : m.toNat = 0 ∨ m.toNat = 1 := by omega
  rcases hcases with h | h
  · exact ⟨.book, h⟩
  · exact ⟨.basic, h⟩

theorem flagOf_bool {b : Byte} {x : Bool} (h : b.toNat = if x then 1 else 0) : flagOf b = some x := by
  rw [flagOf, h]
  cases x <;> rfl

theorem flagOf_above {b : Byte} (h : 1 < b.toNat) : flagOf b = none := by
  unfold flagOf
  split
  · omega
  · omega
  · rfl

section
variable {m n lk : Byte} {t l : Half}

theorem readSettings_badMode (h : ¬m.toNat ≤ 1) : readSettings m n t l lk = .inr 2 := by
  rw [readSettings, modeOf_above (by omega)]

variable {mode : SawMode} (hm : m.toNat = modeCode mode)
include hm

theorem readSettings_badThreshold (hn : ¬(1 ≤ n.toNat ∧ n.toNat ≤ 8)) :
    readSettings m n t l lk = .inr 3 := by
  simp only [readSettings, modeOf_code hm]
  rw [if_pos (by omega)]

variable (hn : 1 ≤ n.toNat ∧ n.toNat ≤ 8)
include hn

theorem readSettings_badTimeout (ht : ¬t.toNat ≤ 300) : readSettings m n t l lk = .inr 4 := by
  simp only [readSettings, modeOf_code hm]
  rw [if_neg (by omega), if_pos (by omega)]

variable (ht : t.toNat ≤ 300)
include ht

theorem readSettings_badWait (hl : ¬(5 ≤ l.toNat ∧ l.toNat ≤ 600)) :
    readSettings m n t l lk = .inr 5 := by
  simp only [readSettings, modeOf_code hm]
  rw [if_neg (by omega), if_neg (by omega), if_pos (by omega)]

variable (hl : 5 ≤ l.toNat ∧ l.toNat ≤ 600)
include hl

theorem readSettings_badLock (hlk : 1 < lk.toNat) : readSettings m n t l lk = .inr 6 := by
  simp only [readSettings, modeOf_code hm, flagOf_above hlk]
  rw [if_neg (by omega), if_neg (by omega), if_neg (by omega)]

theorem readSettings_good {lock : Bool} (hlk : lk.toNat = if lock then 1 else 0) :
    readSettings m n t l lk = .inl ⟨mode, n.toNat, t.toNat, l.toNat, lock⟩ := by
  simp only [readSettings, modeOf_code hm, flagOf_bool hlk]
  rw [if_neg (by omega), if_neg (by omega), if_neg (by omega)]

end

/-! ### The checks against the saw's state -/

/-- The state refuses the settings NOT NOW (R146). -/
def State.settingsConflict (s : State) (w : Saw) (x : SawSettings) : Prop :=
  (s.saws[w].state = .cutting ∧ x.mode ≠ s.saws[w].mode)
    ∨ (x.mode = .book ∧ x.threshold < s.bookCount w)
    ∨ (x.mode = .book ∧ s.infeedUser w ≠ none ∧ x.threshold = s.bookCount w)
    ∨ (x.mode = .basic ∧ 0 < s.bookCount w)

theorem settingsNotNow_iff (s : State) (w : Saw) (x : SawSettings) :
    s.settingsNotNow w x = true ↔ s.settingsConflict w x := by
  simp [State.settingsNotNow, State.settingsConflict, Option.isSome_iff_ne_none, or_assoc, and_assoc]

section
variable {s : State} {b m n lk : Byte} {t l : Half}

theorem doSawConfig_badSaw (hb : 4 ≤ b.toNat) : s.doSawConfig b m n t l lk = (s, .badValue 1) := by
  have hnone : sawOf b = none := fieldOf_above hb
  simp only [State.doSawConfig, hnone]

variable {w : Saw} (hb : b.toNat = w.val)
include hb

theorem doSawConfig_badField {i : Nat} (hbad : readSettings m n t l lk = .inr i) :
    s.doSawConfig b m n t l lk = (s, .badValue i) := by
  have hsome : sawOf b = some w := fieldOf_val hb
  simp only [State.doSawConfig, hsome, hbad]

theorem doSawConfig_inRange {x : SawSettings} (hgood : readSettings m n t l lk = .inl x) :
    s.doSawConfig b m n t l lk
      = if x.mode = .book ∧ s.saws[w].fallback = true then (s, .refuse .sawNotAuto 0)
        else if s.settingsNotNow w x then (s, .refuse .notNow 0)
        else (s.applySettings w x, .ok) := by
  have hsome : sawOf b = some w := fieldOf_val hb
  simp only [State.doSawConfig, hsome, hgood]

end

@[simp] theorem settingsNotNow_withRequest (s : State) (q : Request) (w x) :
    (s.withRequest q).settingsNotNow w x = s.settingsNotNow w x := rfl

theorem infeedUser_congr {s u : State} (hcell : u.cell = s.cell) (hrecs : u.stackRecs = s.stackRecs)
    (w : Saw) : u.infeedUser w = s.infeedUser w := by
  cases s
  cases u
  dsimp only at hcell hrecs
  subst hcell hrecs
  rfl

/-- A FALLBACK or STRANDED BOOK block is left (R147). -/
theorem leaveFallback_eq (s : State) (w : Saw) :
    s.leaveFallback w = if s.saws[w].state = .blocked .fallback
      ∨ s.saws[w].state = .blocked .strandedBook then s.followReady w else s := by
  unfold State.leaveFallback
  split
  · next h => rw [if_pos (.inl h)]
  · next h => rw [if_pos (.inr h)]
  · next h h' => rw [if_neg (not_or.2 ⟨h, h'⟩)]

@[simp] theorem leaveFallback_withRequest (s : State) (q : Request) (w) :
    (s.withRequest q).leaveFallback w = (s.leaveFallback w).withRequest q := by
  rw [leaveFallback_eq, leaveFallback_eq, ite_withRequest, followReady_withRequest]
  rfl

@[simp] theorem applySettings_withRequest (s : State) (q : Request) (w x) :
    (s.withRequest q).applySettings w x = (s.applySettings w x).withRequest q := by
  simp only [State.applySettings, modSaw_withRequest, leaveFallback_withRequest,
    reloadBookTimer_withRequest, decideRelease_withRequest, withRequest_saws, withRequest_bookCount,
    ite_withRequest]

theorem sawConfig_refuses {s : State} {b m n lk : Byte} {t l : Half} (hs : s.takesAtOnce = true)
    {why : Reason} {i : Nat}
    (hbad : (s.withRequest (.sawConfig b m n t l lk)).doSawConfig b m n t l lk
      = (s.withRequest (.sawConfig b m n t l lk), .refuse why i)) :
    refuses (.sawConfig b m n t l lk) s 8 (reasonCode why) (byte i) :=
  refuses_of_handle (q := .sawConfig b m n t l lk) hs (parseRequest_sawConfig b m n t l lk) hbad

/-! ### The settings take effect -/

/-- The settings stand in the saw's record. -/
def State.withSettings (s : State) (w : Saw) (x : SawSettings) : State :=
  s.modSaw w fun y => { y with
    mode := x.mode, threshold := x.threshold, timeout := x.timeout, waitLimit := x.waitLimit
    lock := x.lock
    basicTaken := if s.saws[w].mode = .basic ∧ x.mode = .book then false else y.basicTaken }

/-- A FALLBACK or STRANDED BOOK block is left under the new settings. -/
def State.leftFallback (s : State) (w : Saw) (x : SawSettings) : State :=
  if s.saws[w].state = .blocked .fallback ∨ s.saws[w].state = .blocked .strandedBook then
    if s.saws[w].ready = true then opens (s.withSettings w x) w
    else (s.withSettings w x).modSaw w fun y => { y with state := .closed, cutGo := false }
  else s.withSettings w x

/-- The book timer is loaded anew under the new settings. -/
def State.retimed (s : State) (w : Saw) (x : SawSettings) : State :=
  (s.leftFallback w x).modSaw w fun y => { y with
    bookTimer := ⟨(s.leftFallback w x).saws[w].state = .opened && x.mode = .book
      && 1 ≤ s.bookCount w && 0 < x.timeout, x.timeout * 1000⟩ }

/-- A book that has the new threshold is released under the new settings. -/
def State.settingsRelease (s : State) (w : Saw) (x : SawSettings) : Prop :=
  x.mode = .book
    ∧ ((s.leftFallback w x).saws[w].state = .opened ∨ (s.leftFallback w x).saws[w].state = .closed)
    ∧ 1 ≤ s.bookCount w ∧ s.bookCount w = x.threshold ∧ s.saws[w].releasePending = false

section
variable (s : State) (w : Saw) (x : SawSettings)

theorem withSettings_saws : (s.withSettings w x).saws[w] = { s.saws[w] with
    mode := x.mode, threshold := x.threshold, timeout := x.timeout, waitLimit := x.waitLimit
    lock := x.lock
    basicTaken := if s.saws[w].mode = .basic ∧ x.mode = .book then false
      else s.saws[w].basicTaken } :=
  saws_modSaw_self _ _ _

/-- Leaving the block changes the saw's state and CUT GO alone. -/
theorem leftFallback_saws : ∃ st go, (s.leftFallback w x).saws[w]
    = { (s.withSettings w x).saws[w] with state := st, cutGo := go } := by
  unfold State.leftFallback
  split
  · split
    · exact ⟨_, _, opens_saws _ w⟩
    · exact ⟨_, _, saws_modSaw_self _ _ _⟩
  · exact ⟨_, _, rfl⟩

theorem sameStacks_leftFallback : SameStacks s (s.leftFallback w x) := by
  unfold State.leftFallback
  split
  · split
    · exact (show SameStacks s (s.withSettings w x) from ⟨rfl, rfl⟩).trans (sameStacks_opens _ w)
    · exact ⟨rfl, rfl⟩
  · exact ⟨rfl, rfl⟩

theorem Unmoved.leavesFallback : Unmoved s (s.leftFallback w x) := by
  have hset : Unmoved s (s.withSettings w x) := (Unmoved.refl s).modSaw _ _
  unfold State.leftFallback
  split
  · split
    · exact hset.opensInfeed w
    · exact hset.modSaw _ _
  · exact hset

variable {s}

theorem leaveFallback_settings (hquiet : s.noChoosers = true) :
    (s.withSettings w x).leaveFallback w = s.leftFallback w x := by
  have hset : Unmoved s (s.withSettings w x) := (Unmoved.refl s).modSaw _ _
  have hstate : (s.withSettings w x).saws[w].state = s.saws[w].state := by rw [withSettings_saws]
  have hready : (s.withSettings w x).saws[w].ready = s.saws[w].ready := by rw [withSettings_saws]
  rw [leaveFallback_eq, State.leftFallback, hstate]
  by_cases hblocked : s.saws[w].state = .blocked .fallback ∨ s.saws[w].state = .blocked .strandedBook
  · rw [if_pos hblocked, if_pos hblocked]
    by_cases hr : s.saws[w].ready = true
    · rw [if_pos hr, followReady_ready (hset.noChoosers hquiet) _ (hready.trans hr)]
      rw [hstate]
      rcases hblocked with h | h <;> rw [h] <;> exact InfeedState.noConfusion
    · rw [if_neg hr, followReady_closes (hready.trans (Bool.eq_false_iff.2 hr))]
  · rw [if_neg hblocked, if_neg hblocked]

theorem reloadBookTimer_settings : (s.leftFallback w x).reloadBookTimer w = s.retimed w x := by
  obtain ⟨st, go, hsaws⟩ := leftFallback_saws s w x
  rw [reloadBookTimer_eq (sameStacks_leftFallback s w x), State.retimed]
  refine modSaw_congr ?_
  rw [hsaws, withSettings_saws]
  rfl

theorem applySettings_eq (hquiet : s.noChoosers = true) :
    s.applySettings w x
      = if x.mode = .book ∧ (s.retimed w x).saws[w].servable = true ∧ 1 ≤ s.bookCount w
          ∧ s.bookCount w = x.threshold then (s.retimed w x).decideRelease w
        else s.retimed w x := by
  have hset : (s.modSaw w fun y => { y with
      mode := x.mode, threshold := x.threshold, timeout := x.timeout, waitLimit := x.waitLimit
      lock := x.lock
      basicTaken := if y.mode = .basic ∧ x.mode = .book then false else y.basicTaken })
      = s.withSettings w x := modSaw_congr rfl
  have hcount : (s.retimed w x).bookCount w = s.bookCount w :=
    bookCount_congr (sameStacks_leftFallback s w x).1 (sameStacks_leftFallback s w x).2 w
  simp only [State.applySettings, hset, leaveFallback_settings w x hquiet,
    reloadBookTimer_settings, hcount]

/-- The timer is no condition of a release. -/
theorem settingsRelease_iff : s.settingsRelease w x ↔
    (x.mode = .book ∧ (s.retimed w x).saws[w].servable = true ∧ 1 ≤ s.bookCount w
      ∧ s.bookCount w = x.threshold) ∧ (s.retimed w x).saws[w].releasePending = false := by
  obtain ⟨st, go, hsaws⟩ := leftFallback_saws s w x
  have hpending : (s.leftFallback w x).saws[w].releasePending = s.saws[w].releasePending := by
    rw [hsaws, withSettings_saws]
  rw [servable_iff, State.retimed, saws_modSaw_self]
  dsimp only
  rw [hpending, State.settingsRelease]
  simp only [and_assoc]

/-- The settings take effect and no book is released (R147). -/
theorem applySettings_stays (hquiet : s.noChoosers = true) (h : ¬s.settingsRelease w x) :
    s.applySettings w x = s.retimed w x := by
  rw [applySettings_eq w x hquiet]
  rw [settingsRelease_iff] at h
  split
  · next hrelease =>
    have hpending : (s.retimed w x).saws[w].releasePending = true := by
      by_contra hnot
      exact h ⟨hrelease, Bool.eq_false_iff.2 hnot⟩
    exact decideRelease_of_pending _ _ hpending
  · rfl

/-- A book with the new threshold, on an infeed without a user, is released (R147, R151). -/
theorem applySettings_releases (hquiet : s.noChoosers = true) (h : s.settingsRelease w x)
    (huser : s.infeedUser w = none) :
    s.applySettings w x = (s.retimed w x).releaseBook w := by
  obtain ⟨hrelease, hpending⟩ := (settingsRelease_iff w x).1 h
  have hstacks := sameStacks_leftFallback s w x
  have huser' : (s.retimed w x).infeedUser w = none := by
    rw [← huser]
    exact infeedUser_congr hstacks.1 hstacks.2 w
  rw [applySettings_eq w x hquiet, if_pos hrelease, State.decideRelease,
    if_neg (by rw [hpending]; exact Bool.false_ne_true), if_neg (by rw [huser']; exact Bool.false_ne_true)]

end

/-- SAW CONFIG that passes its checks. -/
theorem sawConfig_accepts {s t' : State} {b m n lk : Byte} {t l : Half} {w : Saw} {x : SawSettings}
    (hs : s.takesAtOnce = true) (hb : b.toNat = w.val) (hgood : readSettings m n t l lk = .inl x)
    (hauto : ¬(x.mode = .book ∧ fallbackHolds s.saws[w])) (hnow : ¬s.settingsConflict w x)
    (ht : s.applySettings w x = t') (hmoved : Unmoved s t') :
    accepts (.sawConfig b m n t l lk) s t' 8 [] := by
  have hchecks := doSawConfig_inRange (s := s.withRequest (.sawConfig b m n t l lk)) hb hgood
  rw [settingsNotNow_withRequest, applySettings_withRequest, withRequest_saws,
    if_neg fun e => hauto ⟨e.1, (fallback_iff _).1 e.2⟩, if_neg (mt (settingsNotNow_iff s w x).1 hnow),
    ht] at hchecks
  exact accepts_of_unmoved (q := .sawConfig b m n t l lk) hs (parseRequest_sawConfig b m n t l lk)
    hchecks hmoved

/-- Settles O27: the checks in their order, then the settings' effect with and without a release. -/
theorem sawConfigApplies : Obligations.SawConfigApplies := by
  intro s b m n lk t l hs
  have hrefuse := fun i => sawConfig_refuses (b := b) (m := m) (n := n) (lk := lk) (t := t) (l := l) hs
    (why := .badValue) (i := i)
  refine ⟨fun hb => ?_, fun hb hm => ?_, fun hb hm hn => ?_, fun hb hm hn ht => ?_,
    fun hb hm hn ht hl => ?_, fun hb hm hn ht hl hlk => ?_, fun w mode lock hb hm hn ht hl hlk => ?_⟩
  · exact hrefuse 1 (doSawConfig_badSaw (by omega))
  · exact hrefuse 2 (doSawConfig_badField (w := ⟨b.toNat, by omega⟩) rfl (readSettings_badMode hm))
  · obtain ⟨mode, hm⟩ := exists_mode hm
    exact hrefuse 3 (doSawConfig_badField (w := ⟨b.toNat, by omega⟩) rfl
      (readSettings_badThreshold hm hn))
  · obtain ⟨mode, hm⟩ := exists_mode hm
    exact hrefuse 4 (doSawConfig_badField (w := ⟨b.toNat, by omega⟩) rfl
      (readSettings_badTimeout hm hn ht))
  · obtain ⟨mode, hm⟩ := exists_mode hm
    exact hrefuse 5 (doSawConfig_badField (w := ⟨b.toNat, by omega⟩) rfl
      (readSettings_badWait hm hn ht hl))
  · obtain ⟨mode, hm⟩ := exists_mode hm
    exact hrefuse 6 (doSawConfig_badField (w := ⟨b.toNat, by omega⟩) rfl
      (readSettings_badLock hm hn ht hl hlk))
  · have hgood := readSettings_good hm hn ht hl hlk
    have hchecks := doSawConfig_inRange (s := s.withRequest (.sawConfig b m n t l lk)) hb hgood
    rw [settingsNotNow_withRequest, withRequest_saws] at hchecks
    have hmoved := Unmoved.leavesFallback s w ⟨mode, n.toNat, t.toNat, l.toNat, lock⟩
    refine ⟨fun hauto => ?_, fun hauto hnow => ?_, fun hauto hnow hease hrelease => ?_,
      fun hauto hnow hease hrelease => ?_⟩
    · rw [if_pos ⟨hauto.1, (fallback_iff _).2 hauto.2⟩] at hchecks
      exact sawConfig_refuses (i := 0) hs hchecks
    · rw [if_neg fun e => hauto ⟨e.1, (fallback_iff _).1 e.2⟩,
        if_pos ((settingsNotNow_iff s w ⟨mode, n.toNat, t.toNat, l.toNat, lock⟩).2 hnow)] at hchecks
      exact sawConfig_refuses (i := 0) hs hchecks
    · exact sawConfig_accepts hs hb hgood hauto hnow
        (applySettings_stays w _ ((atEase_iff s).1 hease).2.2 hrelease) (hmoved.modSaw _ _)
    · have huser : s.infeedUser w = none := by
        by_contra huser
        exact hnow (.inr (.inr (.inl ⟨hrelease.1, huser, hrelease.2.2.2.1.symm⟩)))
      exact sawConfig_accepts hs hb hgood hauto hnow
        (applySettings_releases w _ ((atEase_iff s).1 hease).2.2 hrelease huser)
        ((hmoved.modSaw _ _).modSaw _ _)

end Sys2Proof.Machine
end

section
/-! The stock requests: the fields of LOAD STACK and ADD RUNS (O28), and what they declare (O29). -/

namespace Sys2Proof.Machine

/-! ### Reading runs -/

theorem profileOf_eq_none {b : Byte} (h : 7 < b.toNat) : profileOf b = none :=
  fieldOf_above (n := 8) (by omega)

theorem profileOf_inRange {b : Byte} (h : ¬7 < b.toNat) : ∃ p, profileOf b = some p :=
  ⟨_, fieldOf_val (k := ⟨b.toNat, by omega⟩) rfl⟩

theorem sizeOf?_above {b : Byte} (h : 3 < b.toNat) : sizeOf? b = none := by
  unfold sizeOf?
  split
  iterate 4 omega
  rfl

theorem sizeOf?_inRange {b : Byte} (h : ¬3 < b.toNat) : ∃ z, sizeOf? b = some z := by
  have hcases : b.toNat = 0 ∨ b.toNat = 1 ∨ b.toNat = 2 ∨ b.toNat = 3 := by omega
  rcases hcases with h | h | h | h <;> rw [sizeOf?, h] <;> exact ⟨_, rfl⟩

/-- The fields of a run are judged in their order; the first bad one is named. -/
theorem readRun_bad {zeroOk : Bool} {r : WireRun} {j : Nat}
    (hbad : (fieldsBad zeroOk r)[j]? = some true)
    (hfirst : ∀ b ∈ (fieldsBad zeroOk r).take j, b = false) : readRun zeroOk r = .inr j := by
  obtain _ | _ | _ | _ | _ | j := j
  · have h0 := Option.some.inj hbad
    rw [readRun, if_pos h0]
  · have h1 := Option.some.inj hbad
    have h0 := hfirst _ (List.mem_cons_self ..)
    rw [readRun, if_neg (Bool.eq_false_iff.1 h0), if_pos h1]
  · have h2 := of_decide_eq_true (Option.some.inj hbad)
    simp only [fieldsBad, List.take_succ_cons, List.take_zero, List.forall_mem_cons] at hfirst
    obtain ⟨h0, h1, -⟩ := hfirst
    rw [readRun, if_neg (Bool.eq_false_iff.1 h0), if_neg (Bool.eq_false_iff.1 h1),
      profileOf_eq_none h2]
  · have h3 := of_decide_eq_true (Option.some.inj hbad)
    simp only [fieldsBad, List.take_succ_cons, List.take_zero, List.forall_mem_cons] at hfirst
    obtain ⟨h0, h1, h2, -⟩ := hfirst
    obtain ⟨p, hp⟩ := profileOf_inRange (of_decide_eq_false h2)
    rw [readRun, if_neg (Bool.eq_false_iff.1 h0), if_neg (Bool.eq_false_iff.1 h1), hp,
      sizeOf?_above h3]
  · have h4 := Option.some.inj hbad
    simp only [fieldsBad, List.take_succ_cons, List.take_zero, List.forall_mem_cons] at hfirst
    obtain ⟨h0, h1, h2, h3, -⟩ := hfirst
    obtain ⟨p, hp⟩ := profileOf_inRange (of_decide_eq_false h2)
    obtain ⟨z, hz⟩ := sizeOf?_inRange (of_decide_eq_false h3)
    rw [readRun, if_neg (Bool.eq_false_iff.1 h0), if_neg (Bool.eq_false_iff.1 h1), hp, hz]
    exact if_pos h4
  · cases hbad

theorem readRun_good {zeroOk : Bool} {r : WireRun} (hgood : ∀ b ∈ fieldsBad zeroOk r, b = false) :
    ∃ run, readRun zeroOk r = .inl run := by
  simp only [fieldsBad, List.forall_mem_cons] at hgood
  obtain ⟨h0, h1, h2, h3, h4, -⟩ := hgood
  obtain ⟨p, hp⟩ := profileOf_inRange (of_decide_eq_false h2)
  obtain ⟨z, hz⟩ := sizeOf?_inRange (of_decide_eq_false h3)
  rw [readRun, if_neg (Bool.eq_false_iff.1 h0), if_neg (Bool.eq_false_iff.1 h1), hp, hz]
  exact ⟨_, if_neg (Bool.eq_false_iff.1 h4)⟩

/-- The first bad field of a run list is named, five fields to a run. -/
theorem readRunList_bad {zeroOk : Bool} {runs : List WireRun} {i j : Nat}
    (h : firstBadField zeroOk runs i j) (k : Nat) :
    readRunList zeroOk k runs = .inr (k + 5 * i + j) := by
  obtain ⟨r, hr, hbad, hbefore, hfirst⟩ := h
  induction runs generalizing i k r with
  | nil => cases hr
  | cons q rest ih =>
    cases i with
    | zero =>
      cases Option.some.inj hr
      simp only [readRunList, readRun_bad hbad hfirst, Nat.mul_zero, Nat.add_zero]
    | succ i =>
      rw [List.take_succ_cons, List.forall_mem_cons] at hbefore
      obtain ⟨run, hrun⟩ := readRun_good hbefore.1
      have hrest := ih (i := i) (k + 5) r hr hbad hbefore.2 hfirst
      simp only [readRunList, hrun, hrest]
      congr 1
      omega

theorem readHold_above {hold : Byte} {runs : List WireRun} (h : 1 < hold.toNat) :
    readHold hold runs = none := by
  rw [readHold, flagOf_above h]

/-- A run of unknown count. -/
theorem any_zero_iff (runs : List WireRun) :
    (runs.any fun r => r.count.toNat = 0) = true ↔ ∃ r ∈ runs, r.count = 0 := by
  simp only [List.any_eq_true, decide_eq_true_eq]
  exact exists_congr fun r => and_congr_right fun _ => BitVec.toNat_inj (y := 0)

theorem readHold_zero {runs : List WireRun} (h : ∃ r ∈ runs, r.count = 0) :
    readHold 1 runs = none := by
  have hflag : flagOf 1 = some true := rfl
  rw [readHold, hflag]
  exact if_pos ((any_zero_iff runs).2 h)

theorem readHold_good {hold : Byte} {runs : List WireRun} {x : Bool}
    (hflag : hold.toNat = if x then 1 else 0) (h : x = true → ¬∃ r ∈ runs, r.count = 0) :
    readHold hold runs = some x := by
  rw [readHold, flagOf_bool hflag]
  cases x with
  | false => rfl
  | true => exact if_neg (mt (any_zero_iff runs).1 (h rfl))

/-! ### The BAD VALUE refusals -/

section
variable {s : State} {p hold : Byte} {runs : List WireRun}

theorem doLoadStack_badPlace (hp : 32 ≤ p.toNat) : s.doLoadStack p hold runs = (s, .badValue 1) := by
  have hnone : placeOf p = none := fieldOf_above hp
  simp only [State.doLoadStack, hnone]

theorem doLoadStack_badHold (hp : p.toNat < 32) (hhold : readHold hold runs = none) :
    s.doLoadStack p hold runs = (s, .badValue 2) := by
  have hsome : placeOf p = some ⟨p.toNat, hp⟩ := fieldOf_val rfl
  simp only [State.doLoadStack, hsome, hhold]

theorem doLoadStack_badRun (hp : p.toNat < 32) {x : Bool} (hhold : readHold hold runs = some x)
    {i : Nat} (hbad : readRunList (runs.length = 1) 4 runs = .inr i) :
    s.doLoadStack p hold runs = (s, .badValue i) := by
  have hsome : placeOf p = some ⟨p.toNat, hp⟩ := fieldOf_val rfl
  simp only [State.doLoadStack, hsome, hhold, hbad]

theorem doAddRuns_badPlace (hp : 32 ≤ p.toNat) : s.doAddRuns p runs = (s, .badValue 1) := by
  have hnone : placeOf p = none := fieldOf_above hp
  simp only [State.doAddRuns, hnone]

theorem doAddRuns_badRun (hp : p.toNat < 32) {i : Nat} (hbad : readRunList false 3 runs = .inr i) :
    s.doAddRuns p runs = (s, .badValue i) := by
  have hsome : placeOf p = some ⟨p.toNat, hp⟩ := fieldOf_val rfl
  simp only [State.doAddRuns, hsome, hbad]

variable (hs : s.takesAtOnce = true) (h1 : 1 ≤ runs.length) (h8 : runs.length ≤ 8)
include hs h1 h8

theorem loadStack_refuses {why : Reason} {i : Nat}
    (hbad : (s.withRequest (.loadStack p hold runs)).doLoadStack p hold runs
      = (s.withRequest (.loadStack p hold runs), .refuse why i)) :
    refuses (.loadStack p hold runs) s 9 (reasonCode why) (byte i) :=
  refuses_of_handle (q := .loadStack p hold runs) hs (parseRequest_loadStack h1 h8 p hold) hbad

theorem addRuns_refuses {why : Reason} {i : Nat}
    (hbad : (s.withRequest (.addRuns p runs)).doAddRuns p runs
      = (s.withRequest (.addRuns p runs), .refuse why i)) :
    refuses (.addRuns p runs) s 10 (reasonCode why) (byte i) :=
  refuses_of_handle (q := .addRuns p runs) hs (parseRequest_addRuns h1 h8 p) hbad

end

/-- Settles O28: the bad fields of LOAD STACK and ADD RUNS in the order of their checks. -/
theorem stockFieldsRefused : Obligations.StockFieldsRefused := by
  intro s p hold runs hs h1 h8
  have hload := fun i => loadStack_refuses (p := p) (hold := hold) hs h1 h8 (why := .badValue) (i := i)
  have hadd := fun i => addRuns_refuses (p := p) hs h1 h8 (why := .badValue) (i := i)
  refine ⟨fun hp => ?_, fun hp hbad => ?_, fun i j hp hhold hzero hbad => ?_, fun i j hp hbad => ?_⟩
  · exact ⟨hload 1 (doLoadStack_badPlace (by omega)), hadd 1 (doAddRuns_badPlace (by omega))⟩
  · refine hload 2 (doLoadStack_badHold (by omega) ?_)
    rcases hbad with h | ⟨rfl, hzero⟩
    · exact readHold_above h
    · exact readHold_zero hzero
  · refine hload _ (doLoadStack_badRun (x := decide (hold = 1)) (by omega)
      (readHold_good ?_ ?_) (readRunList_bad hbad 4))
    · by_cases h : hold = 1
      · subst h
        rfl
      · rw [decide_eq_false h]
        have hne : hold.toNat ≠ 1 := fun e => h (BitVec.eq_of_toNat_eq e)
        simp only [Bool.false_eq_true, if_false]
        omega
    · exact fun h hz => hzero ⟨of_decide_eq_true h, hz⟩
  · exact hadd _ (doAddRuns_badRun (by omega) (readRunList_bad hbad 3))

/-! ### Runs in range -/

/-- A run of Table 2-2 in range; its count may be unknown where `zeroOk`. -/
def runInRange (zeroOk : Bool) (r : Run) : Prop :=
  1 ≤ r.piece.material ∧ r.piece.material ≤ 4095 ∧ 30 ≤ r.piece.thickness
    ∧ r.piece.thickness ≤ 600 ∧ 1 - zeroOk.toNat ≤ r.count.getD 0 ∧ r.count.getD 0 ≤ 250
    ∧ r.count ≠ some 0

theorem runInRange_of_known {r : Run} (h : knownRun r) (zeroOk : Bool) : runInRange zeroOk r := by
  obtain ⟨hm, hm', ht, ht', n, hn, hlow, hhigh⟩ := h
  refine ⟨hm, hm', ht, ht', ?_, ?_, ?_⟩ <;> rw [hn]
  · simp only [Option.getD_some]
    omega
  · exact hhigh
  · simp only [ne_eq, Option.some.injEq]
    omega

theorem sizeOf?_code (z : Option SizeClass) : sizeOf? (BitVec.ofNat 8 (sizeCode z)) = some z := by
  rcases z with _ | _ | _ | _ <;> rfl

theorem ofNat16_toNat {n : Nat} (h : n < 65536) : (BitVec.ofNat 16 n).toNat = n := by
  rw [BitVec.toNat_ofNat]
  exact Nat.mod_eq_of_lt h

theorem ofNat8_toNat {n : Nat} (h : n < 256) : (BitVec.ofNat 8 n).toNat = n := by
  rw [BitVec.toNat_ofNat]
  exact Nat.mod_eq_of_lt h

theorem readRun_onWire {zeroOk : Bool} {r : Run} (h : runInRange zeroOk r) :
    readRun zeroOk (onWire r) = .inl r := by
  obtain ⟨hm, hm', ht, ht', hlow, hhigh, hzero⟩ := h
  have hmaterial : (onWire r).material.toNat = r.piece.material := ofNat16_toNat (by omega)
  have hthickness : (onWire r).thickness.toNat = r.piece.thickness := ofNat16_toNat (by omega)
  have hprofile : profileOf (onWire r).profile = some r.piece.profile :=
    fieldOf_val (ofNat8_toNat (by omega))
  have hsize : sizeOf? (onWire r).size = some r.piece.size := sizeOf?_code _
  have hcount : (onWire r).count.toNat = r.count.getD 0 := ofNat8_toNat (by omega)
  have hcountOk : (decide (Config.maxPieces < r.count.getD 0)
      || (decide (r.count.getD 0 = 0) && !zeroOk)) = false := by
    have hmax : Config.maxPieces = 250 := rfl
    rw [Bool.or_eq_false_iff, decide_eq_false_iff_not, Bool.and_eq_false_iff,
      decide_eq_false_iff_not]
    refine ⟨by omega, ?_⟩
    cases zeroOk with
    | false => exact .inl (by simp only [Bool.toNat_false] at hlow; omega)
    | true => exact .inr rfl
  have hread : (if r.count.getD 0 = 0 then none else some (r.count.getD 0)) = r.count := by
    rcases hc : r.count with _ | n
    · rfl
    · have hn : n ≠ 0 := fun e => hzero (by rw [hc, e])
      rw [Option.getD_some, if_neg hn]
  rw [readRun, hmaterial, hthickness, hprofile, hsize, hcount, hcountOk, hread]
  simp [hm.not_gt, hm'.not_gt, ht.not_gt, ht'.not_gt]

theorem readRunList_onWire {zeroOk : Bool} {runs : List Run} (h : ∀ r ∈ runs, runInRange zeroOk r)
    (k : Nat) : readRunList zeroOk k (runs.map onWire) = .inl runs := by
  induction runs generalizing k with
  | nil => rfl
  | cons r rest ih =>
    rw [List.forall_mem_cons] at h
    simp only [List.map_cons, readRunList, readRun_onWire h.1, ih h.2]

theorem known_of_knownRun {runs : List Run} (h : ∀ r ∈ runs, knownRun r) : Known runs :=
  fun r hr => by
    obtain ⟨-, -, -, -, n, hn, -⟩ := h r hr
    exact hn ▸ Option.some_ne_none n

theorem count_onWire_ne_zero {runs : List Run} (h : ∀ r ∈ runs, knownRun r) :
    ¬∃ r ∈ runs.map onWire, r.count = 0 := by
  rintro ⟨_, hmem, hzero⟩
  obtain ⟨r, hr, rfl⟩ := List.mem_map.1 hmem
  obtain ⟨-, -, -, -, n, hn, hlow, hhigh⟩ := h r hr
  have hcount : (onWire r).count.toNat = n := by
    rw [onWire, hn]
    exact ofNat8_toNat (show n < 256 by omega)
  rw [hzero] at hcount
  exact absurd hcount (show 0 ≠ n by omega)

/-! ### The checks against the place -/

theorem hostStock_eq (kind : PlaceKind) : kind.hostStock = holdsStock kind := by
  cases kind <;> rfl

theorem overLimits_iff (s : State) (p : Place) (runs : List Run) :
    s.overLimits p runs = true ↔ breaksLimits s p runs := by
  unfold State.overLimits breaksLimits
  cases pieceCount runs <;> cases runsHeight runs <;> simp

theorem userAt_isSome_iff {s : State} {p : Place} :
    ((s.userAt p).isSome = true ∨ s.stackState p ≠ some .empty)
      ↔ (s.stackRecs[p].map (·.user) ≠ some none ∨ s.stackState p ≠ some .empty) := by
  rw [State.userAt, State.stackState]
  cases s.stackRecs[p] with
  | none => simp
  | some r => simp [Option.isSome_iff_ne_none]

section
variable {s : State} {p hold : Byte} {place : Place} {runs : List WireRun} {given : List Run}
  (hp : p.toNat = place.val)
include hp

theorem doLoadStack_inRange {x : Bool} (hhold : readHold hold runs = some x)
    (hgood : readRunList (runs.length = 1) 4 runs = .inl given) :
    s.doLoadStack p hold runs
      = if holdsStock s.cell.places[place].kind = false then (s, .refuse .notDefined 0)
        else if s.stackRecs[place].map (·.user) ≠ some none ∨ s.stackState place ≠ some .empty then
          (s, .refuse .inUse 0)
        else if s.overLimits place (layRuns given []) = true then (s, .refuse .full 0)
        else ((s.modCounters fun k => { k with
          loaded := countUp k.loaded (knownCount (layRuns given [])) }).setStack place
            (loadedState x (layRuns given [])) (layRuns given []), .ok) := by
  have hsome : placeOf p = some place := fieldOf_val hp
  simp only [State.doLoadStack, hsome, hhold, hgood, hostStock_eq, State.kindAt, Bool.not_eq_true',
    userAt_isSome_iff]

theorem doAddRuns_inRange (hgood : readRunList false 3 runs = .inl given) {r : StackRec}
    (hr : s.stackRecs[place] = some r) :
    s.doAddRuns p runs
      = if holdsStock s.cell.places[place].kind = false then (s, .refuse .notDefined 0)
        else if r.user ≠ none then (s, .refuse .inUse 0)
        else if r.state ≠ .ready then (s, .refuse .notNow 0)
        else if 8 < (layRuns given r.runs).length ∨ s.overLimits place (layRuns given r.runs) = true then
          (s, .refuse .full 0)
        else ((s.modCounters fun k => { k with
          loaded := countUp k.loaded (knownCount given) }).setStack place .ready
            (layRuns given r.runs), .ok) := by
  have hsome : placeOf p = some place := fieldOf_val hp
  simp only [State.doAddRuns, hsome, hgood, hostStock_eq, State.kindAt, Bool.not_eq_true',
    userAt_eq hr, State.stackState, hr, State.runsAt, Option.map_some,
    Option.isSome_iff_ne_none, ne_eq, Option.some.injEq]
  rfl

end

@[simp] theorem overLimits_withRequest (s : State) (q : Request) (p runs) :
    (s.withRequest q).overLimits p runs = s.overLimits p runs := rfl

theorem loadedState_known {runs : List Run} (h : Known runs) (hold : Bool) :
    loadedState hold runs = if hold then .locked .host else .ready := by
  rw [loadedState, pieceCount_known h]

theorem knownCount_known {runs : List Run} (h : Known runs) :
    knownCount runs = (piecesOf runs).length := by
  rw [knownCount, pieceCount_known h]
  rfl

theorem known_nil : Known [] := fun _ hr => nomatch hr

theorem knownCount_layRuns {runs : List Run} (h : Known runs) :
    knownCount (layRuns runs []) = (piecesOf runs).length := by
  rw [knownCount_known (layRuns_known h known_nil), piecesOf_layRuns h known_nil]
  exact congrArg List.length (List.append_nil _)

/-- The account of pieces loaded goes up, and the record of the place is set (R24, R25). -/
def State.declared (s : State) (p : Place) (n : Nat) (st : StackState) (runs : List Run) : State :=
  (s.modCounters fun k => { k with loaded := countUp k.loaded n }).setStack p st runs

@[simp] theorem declared_withRequest (s : State) (q : Request) (p n st runs) :
    (s.withRequest q).declared p n st runs = (s.declared p n st runs).withRequest q := by
  simp only [State.declared, modCounters_withRequest, setStack_withRequest]

theorem Unmoved.declares {s : State} (h : s.noChoosers = true) (p n st runs) :
    Unmoved s (s.declared p n st runs) := ((Unmoved.refl s).modCounters _).setStack h p st runs

/-- Nothing is counted, and the counts hold at their maximum. -/
theorem declared_zero {s : State} (h : s.counters.ok = true) (p st runs) :
    s.declared p 0 st runs = s.setStack p st runs := by
  have hload : countUp s.counters.loaded 0 = s.counters.loaded :=
    Nat.min_eq_left ((countersOk_iff _).1 h).1
  rw [State.declared, State.modCounters, hload]

section
variable {s : State} {place : Place} (hs : s.takesAtOnce = true)
include hs

/-- LOAD STACK of runs in range (R23). -/
theorem loadStack_checked {hold : Byte} {x : Bool} {runs : List Run} (h1 : 1 ≤ runs.length)
    (h8 : runs.length ≤ 8) (hhold : readHold hold (runs.map onWire) = some x)
    (hgood : ∀ r ∈ runs, runInRange (runs.length = 1) r) :
    let c : Instr := .loadStack (BitVec.ofNat 8 place.val) hold (runs.map onWire)
    let laid := layRuns runs []
    let used := s.stackRecs[place].map (·.user) ≠ some none ∨ s.stackState place ≠ some .empty
    (holdsStock s.cell.places[place].kind = false → refuses c s 9 10 0)
      ∧ (holdsStock s.cell.places[place].kind = true → used → refuses c s 9 6 0)
      ∧ (holdsStock s.cell.places[place].kind = true → ¬used → breaksLimits s place laid →
          refuses c s 9 7 0)
      ∧ (holdsStock s.cell.places[place].kind = true → ¬used → ¬breaksLimits s place laid →
          s.noChoosers = true →
          accepts c s (s.declared place (knownCount laid) (loadedState x laid) laid) 9 []) := by
  have hlen : (runs.map onWire).length = runs.length := List.length_map _
  have hread : readRunList ((runs.map onWire).length = 1) 4 (runs.map onWire) = .inl runs := by
    rw [hlen]
    exact readRunList_onWire hgood 4
  have h1' : 1 ≤ (runs.map onWire).length := hlen ▸ h1
  have h8' : (runs.map onWire).length ≤ 8 := hlen ▸ h8
  have hchecks := doLoadStack_inRange
    (s := s.withRequest (.loadStack (BitVec.ofNat 8 place.val) hold (runs.map onWire)))
    (ofNat_val (by decide) place) hhold hread
  rw [withRequest_cell, withRequest_stackRecs, withRequest_stackState, overLimits_withRequest]
    at hchecks
  refine ⟨fun hkind => ?_, fun hkind hused => ?_, fun hkind hused hfull => ?_,
    fun hkind hused hfull hquiet => ?_⟩
  · rw [if_pos hkind] at hchecks
    exact loadStack_refuses hs h1' h8' (i := 0) hchecks
  · rw [if_neg (by rw [hkind]; exact Bool.noConfusion), if_pos hused] at hchecks
    exact loadStack_refuses hs h1' h8' (i := 0) hchecks
  · rw [if_neg (by rw [hkind]; exact Bool.noConfusion), if_neg hused,
      if_pos ((overLimits_iff _ _ _).2 hfull)] at hchecks
    exact loadStack_refuses hs h1' h8' (i := 0) hchecks
  · rw [if_neg (by rw [hkind]; exact Bool.noConfusion), if_neg hused,
      if_neg (mt (overLimits_iff _ _ _).1 hfull)] at hchecks
    refine accepts_of_unmoved
      (q := .loadStack (BitVec.ofNat 8 place.val) hold (runs.map onWire)) hs
      (parseRequest_loadStack h1' h8' _ _) (hchecks.trans ?_) (Unmoved.declares hquiet _ _ _ _)
    rw [← declared_withRequest]
    rfl

/-- ADD RUNS of runs in range (R25). -/
theorem addRuns_checked {runs : List Run} (h1 : 1 ≤ runs.length) (h8 : runs.length ≤ 8)
    (hgood : ∀ r ∈ runs, runInRange false r) {r : StackRec} (hr : s.stackRecs[place] = some r) :
    let c : Instr := .addRuns (BitVec.ofNat 8 place.val) (runs.map onWire)
    let kind := s.cell.places[place].kind
    let laid := layRuns runs r.runs
    let full := 8 < laid.length ∨ breaksLimits s place laid
    (holdsStock kind = true → r.user ≠ none → refuses c s 10 6 0)
      ∧ (holdsStock kind = true → r.user = none → r.state ≠ .ready → refuses c s 10 5 0)
      ∧ (holdsStock kind = true → r.user = none → r.state = .ready → full → refuses c s 10 7 0)
      ∧ (holdsStock kind = true → r.user = none → r.state = .ready → ¬full → s.noChoosers = true →
          accepts c s (s.declared place (knownCount runs) .ready laid) 10 []) := by
  have hlen : (runs.map onWire).length = runs.length := List.length_map _
  have h1' : 1 ≤ (runs.map onWire).length := hlen ▸ h1
  have h8' : (runs.map onWire).length ≤ 8 := hlen ▸ h8
  have hchecks := doAddRuns_inRange
    (s := s.withRequest (.addRuns (BitVec.ofNat 8 place.val) (runs.map onWire)))
    (ofNat_val (by decide) place) (readRunList_onWire hgood 3) hr
  rw [withRequest_cell, overLimits_withRequest] at hchecks
  have hfull : (8 < (layRuns runs r.runs).length ∨ s.overLimits place (layRuns runs r.runs) = true)
      ↔ (8 < (layRuns runs r.runs).length ∨ breaksLimits s place (layRuns runs r.runs)) :=
    or_congr Iff.rfl (overLimits_iff _ _ _)
  refine ⟨fun hkind huser => ?_, fun hkind huser hstate => ?_, fun hkind huser hstate hover => ?_,
    fun hkind huser hstate hover hquiet => ?_⟩
  all_goals rw [if_neg (by rw [hkind]; exact Bool.noConfusion)] at hchecks
  · rw [if_pos huser] at hchecks
    exact addRuns_refuses hs h1' h8' (i := 0) hchecks
  · rw [if_neg (not_not_intro huser), if_pos hstate] at hchecks
    exact addRuns_refuses hs h1' h8' (i := 0) hchecks
  · rw [if_neg (not_not_intro huser), if_neg (not_not_intro hstate), if_pos (hfull.2 hover)]
      at hchecks
    exact addRuns_refuses hs h1' h8' (i := 0) hchecks
  · rw [if_neg (not_not_intro huser), if_neg (not_not_intro hstate), if_neg (mt hfull.1 hover)]
      at hchecks
    refine accepts_of_unmoved (q := .addRuns (BitVec.ofNat 8 place.val) (runs.map onWire)) hs
      (parseRequest_addRuns h1' h8' _) (hchecks.trans ?_) (Unmoved.declares hquiet _ _ _ _)
    rw [← declared_withRequest]
    rfl

end

/-- ADD RUNS on a place that holds no stock (R25). -/
theorem addRuns_undefined {s : State} {place : Place} {runs : List Run} (hs : s.takesAtOnce = true)
    (h1 : 1 ≤ runs.length) (h8 : runs.length ≤ 8) (hgood : ∀ r ∈ runs, runInRange false r)
    (hkind : holdsStock s.cell.places[place].kind = false) :
    refuses (.addRuns (BitVec.ofNat 8 place.val) (runs.map onWire)) s 10 10 0 := by
  have hlen : (runs.map onWire).length = runs.length := List.length_map _
  have hsome : placeOf (BitVec.ofNat 8 place.val) = some place :=
    fieldOf_val (ofNat_val (by decide) place)
  refine addRuns_refuses (why := .notDefined) (i := 0) hs (hlen ▸ h1) (hlen ▸ h8) ?_
  simp only [State.doAddRuns, hsome, readRunList_onWire hgood 3, hostStock_eq]
  exact if_pos (Bool.not_eq_true' _ ▸ hkind)

/-- A single run of unknown count sets no limit and counts no piece (R23, R24). -/
theorem unknownRun_limits (s : State) (p : Place) (x : Piece) :
    ¬breaksLimits s p (layRuns [⟨x, none⟩] []) := by
  rintro (⟨n, hn, -⟩ | ⟨h, hh, -⟩)
  · cases hn
  · cases hh

/-- Settles O29: LOAD STACK and ADD RUNS by their checks, and the record each declares. -/
theorem stockDeclared : Obligations.StockDeclared := by
  refine ⟨fun s p hold runs hs h1 h8 hknown => ?_, fun s p runs hs h1 h8 hknown => ?_⟩
  · have hgood : ∀ r ∈ runs, runInRange (runs.length = 1) r :=
      fun r hr => runInRange_of_known (hknown r hr) _
    have hhold : readHold (if hold then 1 else 0) (runs.map onWire) = some hold :=
      readHold_good (by cases hold <;> rfl) fun _ => count_onWire_ne_zero hknown
    obtain ⟨hundefined, hused, hfull, hloads⟩ := loadStack_checked (place := p) hs h1 h8 hhold hgood
    refine ⟨hundefined, hused, hfull, fun hkind hfree hlimits hquiet => ?_,
      fun r hr hkind hfree hquiet hcounts => ?_⟩
    · have hlaid := hloads hkind hfree hlimits hquiet
      rwa [knownCount_layRuns (known_of_knownRun hknown),
        loadedState_known (layRuns_known (known_of_knownRun hknown) known_nil)] at hlaid
    · subst hr
      obtain ⟨hm, hm', ht, ht', -⟩ := hknown r (List.mem_singleton_self r)
      obtain ⟨-, -, -, hloads⟩ := loadStack_checked (place := p) (hold := 0) (x := false)
        (runs := [{ r with count := none }]) hs (Nat.le_refl 1) (Nat.le_of_ble_eq_true rfl) rfl
        (fun q hq => by
          cases List.mem_singleton.1 hq
          exact ⟨hm, hm', ht, ht', Nat.zero_le _, Nat.zero_le _, by simp⟩)
      have hlaid := hloads hkind hfree (unknownRun_limits s p r.piece) hquiet
      have hzero := declared_zero hcounts p .measure [{ r with count := none }]
      rw [← hzero]
      exact hlaid
  · have hgood : ∀ r ∈ runs, runInRange false r := fun r hr => runInRange_of_known (hknown r hr) _
    refine ⟨addRuns_undefined hs h1 h8 hgood, fun r hr => ?_⟩
    have hadds := addRuns_checked hs h1 h8 hgood hr
    rw [knownCount_known (known_of_knownRun hknown)] at hadds
    exact hadds

end Sys2Proof.Machine
end

section
/-! UNLOAD PLACE and UNLOCK PLACE (O30). -/

namespace Sys2Proof.Machine

/-! ### What a content change leaves of the saw stations -/

/-- Of every saw station at most the permit hold is another. -/
def SawsButHold (s u : State) : Prop :=
  ∀ v : Saw, ∃ hold, u.saws[v] = { s.saws[v] with permitHold := hold }

theorem SawsButHold.of_eq {s u : State} (h : u.saws = s.saws) : SawsButHold s u := fun v =>
  ⟨s.saws[v].permitHold, by rw [h]⟩

theorem SawsButHold.trans {s u v : State} (h : SawsButHold s u) (k : SawsButHold u v) :
    SawsButHold s v := fun w => by
  obtain ⟨hold, hw⟩ := h w
  obtain ⟨hold', kw⟩ := k w
  exact ⟨hold', by rw [kw, hw]⟩

theorem workNotice_saws (s : State) : s.workNotice.saws = s.saws := by
  rw [workNotice_eq]

theorem judge_saws (s : State) (w : Saw) : (s.judge w).saws = s.saws := by
  unfold State.judge
  split
  · rfl
  · split
    · split
      · rw [workNotice_saws]
        rfl
      · rfl
    · split <;> rfl
    · rfl

theorem handCount_saws (s : State) (w n b) : (s.handCount w n b).saws = s.saws := judge_saws _ w

theorem handPermit_saws (s : State) (w b) : (s.handPermit w b).saws = s.saws := judge_saws _ w

theorem sawsButHold_setHold (s : State) (w : Saw) (hold : Bool) :
    SawsButHold s (s.modSaw w fun x => { x with permitHold := hold }) := fun v => by
  by_cases h : w.val = v.val
  · cases Fin.ext h
    exact ⟨hold, saws_modSaw_self _ _ _⟩
  · refine ⟨s.saws[v].permitHold, ?_⟩
    simp only [State.modSaw, Fin.getElem_fin]
    rw [Vector.getElem_set_ne _ _ h]

theorem sawsButHold_setPermitHold (s : State) (w hold) : SawsButHold s (s.setPermitHold w hold) := by
  unfold State.setPermitHold
  split
  · exact .of_eq rfl
  · exact (sawsButHold_setHold s w hold).trans (.of_eq (handPermit_saws _ _ _))

theorem sawsButHold_permitByCount (s : State) (w n) : SawsButHold s (s.permitByCount w n) := by
  unfold State.permitByCount
  split
  · exact sawsButHold_setPermitHold s w true
  · split
    · exact .of_eq rfl
    · exact sawsButHold_setPermitHold s w false

theorem sawsButHold_contentChange {s : State} (h : s.noChoosers = true) (p : Place) :
    SawsButHold s (s.contentChange p) := by
  have hrequeued : SawsButHold s s.requeueStarved := .of_eq (requeueWhere_saws s _)
  rw [contentChange_noChoosers h, State.handsOnCount]
  split
  · exact (hrequeued.trans (.of_eq (handCount_saws _ _ _ _))).trans (sawsButHold_permitByCount _ _ _)
  · exact hrequeued

theorem sawsButHold_setStack {s : State} (h : s.noChoosers = true) (p st runs) :
    SawsButHold s (s.setStack p st runs) :=
  sawsButHold_contentChange (((Unmoved.refl s).modStack p _).noChoosers h) p

/-! ### UNLOAD PLACE -/

theorem noTable_of_stock {kind : PlaceKind} (h : holdsStock kind = true) : servesSaw kind = false := by
  revert h
  cases kind <;> decide

@[simp] theorem tellUnloaded_withRequest (s : State) (q : Request) (p had) :
    (s.withRequest q).tellUnloaded p had = (s.tellUnloaded p had).withRequest q := by
  unfold State.tellUnloaded
  simp only [withRequest_kindAt, withRequest_cell, bookRemoved_withRequest,
    recoverReturn_withRequest]
  cases s.kindAt p <;> cases s.cell.places[p].saw <;> cases had <;> rfl

@[simp] theorem unload_withRequest (s : State) (q : Request) (p) :
    (s.withRequest q).unload p = (s.unload p).withRequest q := by
  simp only [State.unload, withRequest_stackState, withRequest_runsAt, modCounters_withRequest,
    emptyStack_withRequest, tellUnloaded_withRequest, ite_withRequest]

theorem underSaw_iff (s : State) (p : Place) : s.underSaw p = true ↔
    ∃ w, s.cell.places[p].kind = .infeed ∧ s.cell.places[p].saw = some w
      ∧ s.saws[w].state = .cutting := by
  have hkindAt : s.kindAt p = s.cell.places[p].kind := rfl
  unfold State.underSaw
  rw [hkindAt]
  cases s.cell.places[p].kind <;> cases s.cell.places[p].saw <;> simp

@[simp] theorem underSaw_withRequest (s : State) (q : Request) (p) :
    (s.withRequest q).underSaw p = s.underSaw p := rfl

section
variable {s : State} {b : Byte} {p : Place} {r : StackRec} (hb : b.toNat = p.val)
include hb

theorem doUnloadPlace_unused (hkind : s.cell.places[p].kind = .unused) :
    s.doUnloadPlace b = (s, .refuse .notDefined 0) := by
  have hsome : placeOf b = some p := fieldOf_val hb
  simp only [State.doUnloadPlace, hsome]
  exact if_pos hkind

theorem doUnloadPlace_defined (hkind : s.cell.places[p].kind ≠ .unused)
    (hr : s.stackRecs[p] = some r) :
    s.doUnloadPlace b = if r.user ≠ none then (s, .refuse .inUse 0)
      else if s.underSaw p = true then (s, .refuse .notNow 0) else (s.unload p, .ok) := by
  have hsome : placeOf b = some p := fieldOf_val hb
  have hdefined : ¬s.kindAt p = .unused := hkind
  simp only [State.doUnloadPlace, hsome, userAt_eq hr, Option.isSome_iff_ne_none]
  rw [if_neg hdefined]

end

/-- A place with its pieces gone and counted as unloaded (R26). -/
def State.emptied (s : State) (p : Place) (r : StackRec) : State :=
  (s.modCounters fun k =>
    { k with unloaded := countUp k.unloaded (knownCount r.runs) }).setStack p .empty []

section
variable {s : State} {p : Place} {r : StackRec}

theorem stackState_eq (hr : s.stackRecs[p] = some r) : s.stackState p = some r.state := by
  rw [State.stackState, hr]
  rfl

theorem runsAt_eq (hr : s.stackRecs[p] = some r) : s.runsAt p = r.runs := by
  rw [State.runsAt, hr]

theorem unload_empty (hr : s.stackRecs[p] = some r) (hstate : r.state = .empty) :
    s.unload p = s.tellUnloaded p false := by
  rw [State.unload, stackState_eq hr, hstate, if_pos rfl]

theorem unload_pieces (hr : s.stackRecs[p] = some r) (hstate : r.state ≠ .empty) :
    s.unload p = (s.emptied p r).tellUnloaded p true := by
  rw [State.unload, stackState_eq hr, if_neg fun e => hstate (Option.some.inj e), runsAt_eq hr]
  rfl

theorem tellUnloaded_stock (h : holdsStock s.cell.places[p].kind = true) (had : Bool) :
    s.tellUnloaded p had = s := by
  unfold State.tellUnloaded
  split
  · next hkind _ => exact absurd hkind (not_infeed_of_noTable (noTable_of_stock h))
  · next hkind _ => exact absurd hkind (not_return_of_noTable (noTable_of_stock h))
  · rfl

theorem tellUnloaded_infeed {w : Saw} (hkind : s.cell.places[p].kind = .infeed)
    (hsaw : s.cell.places[p].saw = some w) (had : Bool) :
    s.tellUnloaded p had = if had then s.bookRemoved w else s := by
  simp only [State.tellUnloaded, State.kindAt, hkind, hsaw]

theorem tellUnloaded_return {w : Saw} (hkind : s.cell.places[p].kind = .return_)
    (hsaw : s.cell.places[p].saw = some w) (had : Bool) :
    s.tellUnloaded p had = s.recoverReturn w := by
  simp only [State.tellUnloaded, State.kindAt, hkind, hsaw]

/-- The Cell Map stands a change of content. -/
theorem contentChange_cell (s : State) (p : Place) : (s.contentChange p).cell = s.cell :=
  (Stable.outside fun _ m _ => m = s.cell).contentChange p rfl

theorem emptied_cell (s : State) (p : Place) (r : StackRec) : (s.emptied p r).cell = s.cell :=
  contentChange_cell _ p

theorem Unmoved.empties (h : s.noChoosers = true) (p r) : Unmoved s (s.emptied p r) :=
  ((Unmoved.refl s).modCounters _).setStack h p _ _

/-- Nothing waits for the book of the saw (R159). -/
def State.bookless (s : State) (w : Saw) : State :=
  s.modSaw w fun x =>
    { x with bookTimer := ⟨false, 0⟩, releasePending := false, basicTaken := false }

/-- The book of an infeed is removed, with no carriage to take an opening notice (R159). -/
theorem bookRemoved_eq (h : s.noChoosers = true) (w : Saw) :
    s.bookRemoved w = if s.saws[w].state = .blocked .strandedBook
      then emptyFallback (s.bookless w) w (shownCause s.saws[w]) else s.bookless w := by
  have hbare : (s.bookless w).noChoosers = true := ((Unmoved.refl s).modSaw w _).noChoosers h
  have hopening : (s.bookless w).openingNotice w = s.bookless w := openingNotice_noChoosers hbare w
  have hcause : shownCause (s.bookless w).saws[w] = shownCause s.saws[w] := by
    rw [State.bookless, saws_modSaw_self]
    rfl
  have hunfold : s.bookRemoved w = (let again := s.saws[w].state = .opened
      && (s.saws[w].releasePending || (s.saws[w].mode = .basic && s.saws[w].basicTaken))
    let s2 := if again then (s.bookless w).openingNotice w else s.bookless w
    if s.saws[w].state = .blocked .strandedBook then s2.fallbackEmpty w else s2) := rfl
  rw [hunfold, hopening]
  simp only [ite_self, fallbackEmpty_eq hbare, hcause]

/-- A return table is recovered, with no carriage to take an opening notice (R158, R166). -/
theorem recoverReturn_eq (h : s.noChoosers = true) (w : Saw) :
    s.recoverReturn w = (let bare := s.modSaw w fun x =>
        { x with overrun := false, overrunCount := 0, permitHold := false }
      (if s.saws[w].state = .blocked .overrun then leavesOverrun bare w else bare).handPermit w
        false) := by
  have hbare : (s.modSaw w fun x => { x with
      overrun := false, overrunCount := 0, permitHold := false }).noChoosers = true :=
    ((Unmoved.refl s).modSaw w _).noChoosers h
  have hstate : (s.modSaw w fun x => { x with
      overrun := false, overrunCount := 0, permitHold := false }).saws[w].state = s.saws[w].state := by
    rw [saws_modSaw_self]
  unfold State.recoverReturn
  dsimp only
  refine congrArg (fun u => State.handPermit u w false) ?_
  split
  · next hover => exact leaveOverrun_eq hbare (hstate.trans hover)
  · next hover => exact if_neg fun e => hover (hstate.symm.trans e)

theorem bookless_congr {t : State} (h : SawsButHold s t) (w : Saw) :
    shownCause t.saws[w] = shownCause s.saws[w] ∧ t.saws[w].state = s.saws[w].state := by
  obtain ⟨hold, hw⟩ := h w
  rw [hw]
  exact ⟨rfl, rfl⟩

variable (hquiet : s.noChoosers = true)
include hquiet

theorem sawsButHold_emptied (p r) : SawsButHold s (s.emptied p r) :=
  sawsButHold_setStack (((Unmoved.refl s).modCounters _).noChoosers hquiet) p _ _

/-- A book is unloaded (R26, R159). -/
theorem unload_book {w : Saw} (hr : s.stackRecs[p] = some r) (hkind : s.cell.places[p].kind = .infeed)
    (hsaw : s.cell.places[p].saw = some w) (hstate : r.state ≠ .empty) :
    s.unload p = if s.saws[w].state = .blocked .strandedBook
      then emptyFallback ((s.emptied p r).bookless w) w (shownCause s.saws[w])
      else (s.emptied p r).bookless w := by
  have hcell := emptied_cell s p r
  have hsame := bookless_congr (sawsButHold_emptied hquiet p r) w
  rw [unload_pieces hr hstate, tellUnloaded_infeed (hcell ▸ hkind) (hcell ▸ hsaw), if_pos rfl,
    bookRemoved_eq ((Unmoved.empties hquiet p r).noChoosers hquiet), hsame.1, hsame.2]

/-- A return table is unloaded (R26, R166). -/
theorem unload_return {w : Saw} (hr : s.stackRecs[p] = some r)
    (hkind : s.cell.places[p].kind = .return_) (hsaw : s.cell.places[p].saw = some w) :
    s.unload p = (let bare := (if r.state = .empty then s else s.emptied p r).modSaw w fun x =>
        { x with overrun := false, overrunCount := 0, permitHold := false }
      (if s.saws[w].state = .blocked .overrun then leavesOverrun bare w else bare).handPermit w
        false) := by
  by_cases hstate : r.state = .empty
  · rw [unload_empty hr hstate, tellUnloaded_return hkind hsaw, recoverReturn_eq hquiet,
      if_pos hstate]
  · have hcell := emptied_cell s p r
    rw [unload_pieces hr hstate, tellUnloaded_return (hcell ▸ hkind) (hcell ▸ hsaw),
      recoverReturn_eq ((Unmoved.empties hquiet p r).noChoosers hquiet), if_neg hstate,
      (bookless_congr (sawsButHold_emptied hquiet p r) w).2]

end

theorem Unmoved.tellsUnloaded {s u : State} (h : Unmoved s u) (hs : s.noChoosers = true) (p had) :
    Unmoved s (u.tellUnloaded p had) := by
  unfold State.tellUnloaded
  split
  · split
    · exact h.bookRemoved hs _
    · exact h
  · exact h.recoverReturn hs _
  · exact h

theorem Unmoved.unloads {s : State} (hs : s.noChoosers = true) (p) : Unmoved s (s.unload p) := by
  unfold State.unload
  split
  · exact (Unmoved.refl s).tellsUnloaded hs _ _
  · exact (((Unmoved.refl s).modCounters _).setStack hs _ _ _).tellsUnloaded hs _ _

section
variable {s : State} {b : Byte} (hs : s.takesAtOnce = true)
include hs

theorem unloadPlace_refuses {why : Reason} {i : Nat}
    (hbad : (s.withRequest (.unloadPlace b)).doUnloadPlace b
      = (s.withRequest (.unloadPlace b), .refuse why i)) :
    refuses (.unloadPlace b) s 11 (reasonCode why) (byte i) :=
  refuses_of_handle (q := .unloadPlace b) hs rfl hbad

variable {p : Place} {r : StackRec} (hb : b.toNat = p.val)
  (hkind : s.cell.places[p].kind ≠ .unused) (hr : s.stackRecs[p] = some r) (huser : r.user = none)
include hb hkind hr huser

/-- UNLOAD PLACE of a defined place that no carriage uses and no saw cuts from (R26). -/
theorem unloadPlace_accepts {t : State} (hsaw : s.underSaw p = false) (ht : s.unload p = t)
    (hmoved : Unmoved s (s.unload p)) : accepts (.unloadPlace b) s t 11 [] := by
  subst ht
  have hchecks := doUnloadPlace_defined (s := s.withRequest (.unloadPlace b)) hb hkind hr
  rw [if_neg (not_not_intro huser), underSaw_withRequest,
    if_neg (by rw [hsaw]; exact Bool.false_ne_true), unload_withRequest] at hchecks
  exact accepts_of_unmoved (q := .unloadPlace b) hs rfl hchecks hmoved

theorem unloadPlace_underSaw (hsaw : s.underSaw p = true) : refuses (.unloadPlace b) s 11 5 0 := by
  have hchecks := doUnloadPlace_defined (s := s.withRequest (.unloadPlace b)) hb hkind hr
  rw [if_neg (not_not_intro huser), underSaw_withRequest, if_pos hsaw] at hchecks
  exact unloadPlace_refuses hs (i := 0) hchecks

end

theorem underSaw_stock {s : State} {p : Place} (h : holdsStock s.cell.places[p].kind = true) :
    s.underSaw p = false := by
  rw [← Bool.not_eq_true, underSaw_iff]
  rintro ⟨-, hkind, -⟩
  exact not_infeed_of_noTable (noTable_of_stock h) hkind

theorem underSaw_return {s : State} {p : Place} (h : s.cell.places[p].kind = .return_) :
    s.underSaw p = false := by
  rw [← Bool.not_eq_true, underSaw_iff]
  rintro ⟨-, hkind, -⟩
  exact PlaceKind.noConfusion (h.symm.trans hkind)

theorem underSaw_infeed {s : State} {p : Place} {w : Saw} (hsaw : s.cell.places[p].saw = some w)
    (hstate : s.saws[w].state ≠ .cutting) : s.underSaw p = false := by
  rw [← Bool.not_eq_true, underSaw_iff]
  rintro ⟨v, -, hv, hcut⟩
  cases hsaw.symm.trans hv
  exact hstate hcut

/-! ### UNLOCK PLACE -/

section
variable {s : State} {b : Byte} {p : Place} {r : StackRec}

theorem unlockedState_eq (runs : List Run) : unlockedState runs
    = if pieceCount runs = none then .measure else if pieceCount runs = some 0 then .empty
      else .ready := by
  unfold unlockedState
  cases pieceCount runs with
  | none => rfl
  | some n => simp

theorem isLocked_iff (st : StackState) : st.isLocked = true ↔ ∃ why, st = .locked why := by
  cases st <;> simp [StackState.isLocked]

theorem doUnlockPlace_unused (hb : b.toNat = p.val) (hkind : s.cell.places[p].kind = .unused) :
    s.doUnlockPlace b = (s, .refuse .notDefined 0) := by
  have hsome : placeOf b = some p := fieldOf_val hb
  simp only [State.doUnlockPlace, hsome]
  exact if_pos hkind

theorem doUnlockPlace_defined (hb : b.toNat = p.val) (hkind : s.cell.places[p].kind ≠ .unused)
    (hr : s.stackRecs[p] = some r) :
    s.doUnlockPlace b = if r.user ≠ none then (s, .refuse .inUse 0)
      else if r.state.isLocked = false then (s, .refuse .notNow 0)
      else (s.setStack p (unlockedState r.runs) r.runs, .ok) := by
  have hsome : placeOf b = some p := fieldOf_val hb
  have hdefined : ¬s.kindAt p = .unused := hkind
  simp only [State.doUnlockPlace, hsome, userAt_eq hr, Option.isSome_iff_ne_none, State.lockedAt,
    stackState_eq hr, runsAt_eq hr, Bool.not_eq_true']
  rw [if_neg hdefined]

theorem unlockPlace_refuses (hs : s.takesAtOnce = true) {why : Reason} {i : Nat}
    (hbad : (s.withRequest (.unlockPlace b)).doUnlockPlace b
      = (s.withRequest (.unlockPlace b), .refuse why i)) :
    refuses (.unlockPlace b) s 12 (reasonCode why) (byte i) :=
  refuses_of_handle (q := .unlockPlace b) hs rfl hbad

end

/-- Settles O30: UNLOAD PLACE by the kind of the place, and UNLOCK PLACE by the record. -/
theorem placesUnloadAndUnlock : Obligations.PlacesUnloadAndUnlock := by
  refine ⟨fun s b hs => ⟨fun hb => ?_, fun p hb => ⟨fun hkind => ?_, fun r hkind hr => ?_⟩⟩,
    fun s b hs => ⟨fun hb => ?_, fun p hb => ⟨fun hkind => ?_, fun r hkind hr => ?_⟩⟩⟩
  · have hnone : placeOf b = none := fieldOf_above (n := 32) (by omega)
    exact unloadPlace_refuses hs (why := .badValue) (i := 1) (by simp only [State.doUnloadPlace, hnone]; rfl)
  · exact unloadPlace_refuses hs (i := 0) (doUnloadPlace_unused hb hkind)
  · have haccepts := fun t huser => unloadPlace_accepts (t := t) hs hb hkind hr huser
    refine ⟨fun huser => ?_, fun huser hcut => ?_, fun huser hstock hempty => ?_,
      fun huser hstock hempty hquiet => ?_, fun w huser hinfeed hsaw hempty hquiet hcut hstrand => ?_,
      fun w huser hinfeed hsaw hempty hcut => ?_,
      fun w huser hinfeed hsaw hempty hquiet hstrand => ?_,
      fun w huser hreturn hsaw hquiet => ?_⟩
    · have hchecks := doUnloadPlace_defined (s := s.withRequest (.unloadPlace b)) hb hkind hr
      rw [if_pos huser] at hchecks
      exact unloadPlace_refuses hs (i := 0) hchecks
    · exact unloadPlace_underSaw hs hb hkind hr huser ((underSaw_iff s p).2 hcut)
    · have hunload := (unload_empty hr hempty).trans (tellUnloaded_stock hstock false)
      exact haccepts s huser (underSaw_stock hstock) hunload (hunload.symm ▸ .refl s)
    · have hcell := emptied_cell s p r
      exact haccepts (s.emptied p r) huser (underSaw_stock hstock)
        ((unload_pieces hr hempty).trans (tellUnloaded_stock (hcell ▸ hstock) true))
        (.unloads hquiet p)
    · have hunload := (unload_book hquiet hr hinfeed hsaw hempty).trans (if_neg hstrand)
      exact haccepts _ huser (underSaw_infeed hsaw hcut) hunload (.unloads hquiet p)
    · have hunload := (unload_empty hr hempty).trans (tellUnloaded_infeed hinfeed hsaw false)
      exact haccepts s huser (underSaw_infeed hsaw hcut) hunload (hunload.symm ▸ .refl s)
    · have hunload := (unload_book hquiet hr hinfeed hsaw hempty).trans (if_pos hstrand)
      refine haccepts _ huser (underSaw_infeed hsaw ?_) hunload (.unloads hquiet p)
      rw [hstrand]
      exact InfeedState.noConfusion
    · have hunload := unload_return hquiet hr hreturn hsaw
      exact haccepts _ huser (underSaw_return hreturn) hunload (.unloads hquiet p)
  · have hnone : placeOf b = none := fieldOf_above (n := 32) (by omega)
    exact unlockPlace_refuses hs (why := .badValue) (i := 1) (by simp only [State.doUnlockPlace, hnone]; rfl)
  · exact unlockPlace_refuses hs (i := 0) (doUnlockPlace_unused hb hkind)
  · have hchecks := doUnlockPlace_defined (s := s.withRequest (.unlockPlace b)) hb hkind hr
    have hlocked := isLocked_iff r.state
    refine ⟨fun huser => ?_, fun huser hopen => ?_, fun huser hlock hquiet => ?_⟩
    · rw [if_pos huser] at hchecks
      exact unlockPlace_refuses hs (i := 0) hchecks
    · rw [if_neg (not_not_intro huser), if_pos (Bool.eq_false_iff.2 (mt hlocked.1 hopen))] at hchecks
      exact unlockPlace_refuses hs (i := 0) hchecks
    · rw [if_neg (not_not_intro huser), if_neg (by rw [hlocked.2 hlock]; exact Bool.noConfusion),
        setStack_withRequest, unlockedState_eq] at hchecks
      exact accepts_of_unmoved (q := .unlockPlace b) hs rfl hchecks
        ((Unmoved.refl s).setStack hquiet _ _ _)

end Sys2Proof.Machine
end

section
/-! ORDER (O31), and CANCEL ORDER and FLUSH ORDERS (O32). -/

namespace Sys2Proof.Machine

/-! ### Reading an order -/

theorem workClassOf_code {k : Byte} {cls : WorkClass} (h : k.toNat = workClassCode cls) :
    workClassOf k = some cls := by
  rw [workClassOf, h]
  cases cls <;> rfl

theorem workClassOf_above {k : Byte} (h : 2 < k.toNat) : workClassOf k = none := by
  unfold workClassOf
  split
  iterate 3 omega
  rfl

theorem exists_workClass {k : Byte} (h : k.toNat ≤ 2) : ∃ cls, k.toNat = workClassCode cls := by
  have hcases : k.toNat = 0 ∨ k.toNat = 1 ∨ k.toNat = 2 := by omega
  rcases hcases with h | h | h
  · exact ⟨.normal, h⟩
  · exact ⟨.priority, h⟩
  · exact ⟨.rush, h⟩

/-- A divert place field spells this place, or NONE. -/
def spellsDivert (d : Byte) : Option Place → Prop
  | none => d = 0xFF
  | some p => d.toNat = p.val

theorem divertOf?_spelled {d : Byte} {divert : Option Place} (h : spellsDivert d divert) :
    divertOf? d = some divert := by
  cases divert with
  | none =>
    cases h
    rfl
  | some p =>
    have hplace : placeOf d = some p := fieldOf_val h
    have habsent : ¬d = absent := by
      rintro rfl
      exact absurd p.isLt (by rw [← (h : _ = p.val)]; decide)
    rw [divertOf?, if_neg habsent, hplace]
    rfl

theorem divertOf?_above {d : Byte} (h : 31 < d.toNat) (h' : d ≠ 0xFF) : divertOf? d = none := by
  have hplace : placeOf d = none := fieldOf_above (n := 32) h
  rw [divertOf?, if_neg (show ¬d = absent from h'), hplace]
  rfl

section
variable {n m t q : Half} {b k d : Byte}

theorem readOrder_badNumber (hn : n = 0) : readOrder n b m t k q d = .inr 1 := by
  subst hn
  rfl

variable (hn : n ≠ 0)
include hn

theorem number_pos : ¬n.toNat < 1 := by
  have hne : n.toNat ≠ 0 := fun e => hn (BitVec.eq_of_toNat_eq e)
  omega

theorem readOrder_badSaw (hb : 3 < b.toNat) : readOrder n b m t k q d = .inr 2 := by
  have hnone : sawOf b = none := fieldOf_above (n := 4) hb
  rw [readOrder, if_neg (number_pos hn), hnone]

variable {w : Saw} (hb : b.toNat = w.val)
include hb

theorem readOrder_badMaterial (hm : ¬(1 ≤ m.toNat ∧ m.toNat ≤ 4095)) :
    readOrder n b m t k q d = .inr 3 := by
  have hsome : sawOf b = some w := fieldOf_val hb
  rw [readOrder, if_neg (number_pos hn), hsome]
  exact if_pos (by omega)

variable (hm : 1 ≤ m.toNat ∧ m.toNat ≤ 4095)
include hm

theorem readOrder_badThickness (ht : ¬(30 ≤ t.toNat ∧ t.toNat ≤ 600)) :
    readOrder n b m t k q d = .inr 4 := by
  have hsome : sawOf b = some w := fieldOf_val hb
  simp only [readOrder, hsome]
  rw [if_neg (number_pos hn), if_neg (by omega), if_pos (by omega)]

variable (ht : 30 ≤ t.toNat ∧ t.toNat ≤ 600)
include ht

theorem readOrder_badClass (hk : 2 < k.toNat) : readOrder n b m t k q d = .inr 5 := by
  have hsome : sawOf b = some w := fieldOf_val hb
  simp only [readOrder, hsome, workClassOf_above hk]
  rw [if_neg (number_pos hn), if_neg (by omega), if_neg (by omega)]

variable {cls : WorkClass} (hk : k.toNat = workClassCode cls)
include hk

theorem readOrder_badQuantity (hq : ¬(1 ≤ q.toNat ∧ q.toNat ≤ 999)) :
    readOrder n b m t k q d = .inr 6 := by
  have hsome : sawOf b = some w := fieldOf_val hb
  simp only [readOrder, hsome, workClassOf_code hk]
  rw [if_neg (number_pos hn), if_neg (by omega), if_neg (by omega), if_pos (by omega)]

variable (hq : 1 ≤ q.toNat ∧ q.toNat ≤ 999)
include hq

theorem readOrder_badDivert (hd : 31 < d.toNat) (hd' : d ≠ 0xFF) :
    readOrder n b m t k q d = .inr 7 := by
  have hsome : sawOf b = some w := fieldOf_val hb
  simp only [readOrder, hsome, workClassOf_code hk, divertOf?_above hd hd']
  rw [if_neg (number_pos hn), if_neg (by omega), if_neg (by omega), if_neg (by omega)]

theorem readOrder_good {divert : Option Place} (hd : spellsDivert d divert) :
    readOrder n b m t k q d
      = .inl ⟨n.toNat, w, m.toNat, t.toNat, cls, q.toNat, divert⟩ := by
  have hsome : sawOf b = some w := fieldOf_val hb
  simp only [readOrder, hsome, workClassOf_code hk, divertOf?_spelled hd]
  rw [if_neg (number_pos hn), if_neg (by omega), if_neg (by omega), if_neg (by omega)]

end

/-! ### ORDER -/

theorem infeedPlace_isNone_iff (s : State) (w : Saw) : (s.infeedPlace w).isNone = true ↔
    ∀ p : Place, s.cell.places[p].kind = .infeed → s.cell.places[p].saw ≠ some w := by
  rw [State.infeedPlace, Option.isNone_iff_eq_none, List.find?_eq_none]
  simp only [allPlaces, List.mem_finRange, true_implies, Bool.and_eq_true, decide_eq_true_eq, not_and,
    ne_eq]
  exact Iff.rfl

theorem badDivert_iff (s : State) (divert : Option Place) : s.badDivert divert = true ↔
    ∃ p : Place, divert = some p ∧ s.cell.places[p].kind ≠ .buffer := by
  cases divert with
  | none => simp [State.badDivert]
  | some p =>
    simp only [State.badDivert, decide_eq_true_eq, Option.some.injEq, exists_eq_left']
    rfl

theorem orderOf_isSome_iff (s : State) (n : Nat) : (s.orderOf n).isSome = true ↔
    ∃ e ∈ s.queue.entries, e.number = n := by
  simp [State.orderOf, List.find?_isSome]

theorem doOrder_inRange {s : State} {n m t q : Half} {b k d : Byte} {f : OrderFields}
    (hread : readOrder n b m t k q d = .inl f) :
    s.doOrder n b m t k q d
      = if (s.infeedPlace f.saw).isNone ∨ s.badDivert f.divert = true then
          (s, .refuse .notDefined 0)
        else if (s.orderOf f.number).isSome then (s, .refuse .duplicate 0)
        else if 32 ≤ s.queue.entries.length then (s, .refuse .full 0)
        else ((s.admitOrder f).1, .accept (num16 f.number ++ num32 (s.admitOrder f).2)) := by
  simp only [State.doOrder, hread]
  rfl

@[simp] theorem badDivert_withRequest (s : State) (q : Request) (d) :
    (s.withRequest q).badDivert d = s.badDivert d := rfl

@[simp] theorem orderOf_withRequest (s : State) (q : Request) (n) :
    (s.withRequest q).orderOf n = s.orderOf n := rfl

theorem order_refuses {s : State} {n m t q : Half} {b k d : Byte} (hs : s.takesAtOnce = true)
    {why : Reason} {i : Nat}
    (hbad : (s.withRequest (.order n b m t k q d)).doOrder n b m t k q d
      = (s.withRequest (.order n b m t k q d), .refuse why i)) :
    refuses (.order n b m t k q d) s 13 (reasonCode why) (byte i) :=
  refuses_of_handle (q := .order n b m t k q d) hs (parseRequest_order n b m t k q d) hbad

theorem order_badField {s : State} {n m t q : Half} {b k d : Byte} (hs : s.takesAtOnce = true) {i : Nat}
    (hread : readOrder n b m t k q d = .inr i) :
    refuses (.order n b m t k q d) s 13 3 (byte i) :=
  order_refuses (why := .badValue) hs (by simp only [State.doOrder, hread]; rfl)

/-- An order is admitted: it takes the next rank and enters by a requeue (R44). -/
theorem admitOrder_withRequest (s : State) (q : Request) (f : OrderFields) :
    (s.withRequest q).admitOrder f = ((s.admitOrder f).1.withRequest q, (s.admitOrder f).2) :=
  Prod.ext (requeueWhere_withRequest { s with queue := { s.queue.takeRank.2 with
    entries := s.queue.takeRank.2.entries ++ [f.entry s.queue.takeRank.1] } } q _) rfl

theorem Unmoved.admits (s : State) (f : OrderFields) : Unmoved s (s.admitOrder f).1 := by
  have hentered : Unmoved s { s with queue := { s.queue.takeRank.2 with
    entries := s.queue.takeRank.2.entries ++ [f.entry s.queue.takeRank.1] } } :=
    ⟨rfl, rfl, rfl, fun _ => rfl⟩
  exact hentered.requeueWhere _

/-- Settles O31: the fields of ORDER in their order, then the checks against the cell and the queue. -/
theorem orderAdmits : Obligations.OrderAdmits := by
  intro s n m t q b k d hs
  refine ⟨fun hn => ?_, fun hn hb => ?_, fun hn hb hm => ?_, fun hn hb hm ht => ?_,
    fun hn hb hm ht hk => ?_, fun hn hb hm ht hk hq => ?_, fun hn hb hm ht hk hq hd hd' => ?_,
    fun w cls divert hn hb hm ht hk hq hd => ?_⟩
  · exact order_badField (i := 1) hs (readOrder_badNumber hn)
  · exact order_badField (i := 2) hs (readOrder_badSaw hn hb)
  · exact order_badField (i := 3) hs
      (readOrder_badMaterial hn (w := ⟨b.toNat, by omega⟩) rfl hm)
  · exact order_badField (i := 4) hs
      (readOrder_badThickness hn (w := ⟨b.toNat, by omega⟩) rfl hm ht)
  · exact order_badField (i := 5) hs
      (readOrder_badClass hn (w := ⟨b.toNat, by omega⟩) rfl hm ht hk)
  · obtain ⟨cls, hk⟩ := exists_workClass hk
    exact order_badField (i := 6) hs
      (readOrder_badQuantity hn (w := ⟨b.toNat, by omega⟩) rfl hm ht hk hq)
  · obtain ⟨cls, hk⟩ := exists_workClass hk
    exact order_badField (i := 7) hs
      (readOrder_badDivert hn (w := ⟨b.toNat, by omega⟩) rfl hm ht hk hq hd hd')
  · have hspelled : spellsDivert d divert := by cases divert <;> exact hd
    have hchecks := doOrder_inRange (s := s.withRequest (.order n b m t k q d))
      (readOrder_good hn hb hm ht hk hq hspelled)
    rw [withRequest_infeedPlace, badDivert_withRequest, orderOf_withRequest, withRequest_queue]
      at hchecks
    have hundefined := or_congr (infeedPlace_isNone_iff s w) (badDivert_iff s divert)
    have hknown := orderOf_isSome_iff s n.toNat
    refine ⟨fun hbad => ?_, fun hdef hdup => ?_, fun hdef hdup hfull => ?_,
      fun hdef hdup hroom => ?_⟩
    · rw [if_pos (hundefined.2 hbad)] at hchecks
      exact order_refuses (i := 0) hs hchecks
    · rw [if_neg (mt hundefined.1 hdef), if_pos (hknown.2 hdup)] at hchecks
      exact order_refuses (i := 0) hs hchecks
    · rw [if_neg (mt hundefined.1 hdef), if_neg (mt hknown.1 hdup), if_pos hfull] at hchecks
      exact order_refuses (i := 0) hs hchecks
    · rw [if_neg (mt hundefined.1 hdef), if_neg (mt hknown.1 hdup), if_neg hroom.not_ge,
        admitOrder_withRequest] at hchecks
      exact accepts_of_unmoved (q := .order n b m t k q d) hs (parseRequest_order n b m t k q d)
        hchecks (.admits s ⟨n.toNat, w, m.toNat, t.toNat, cls, q.toNat, divert⟩)

/-! ### Order end notices -/

/-- What an order end notice makes of a saw station: `left` says that an order of the saw still counts,
`count` is its book count, `user` the user of its infeed (R56, R152). -/
def endBook (left : Bool) (count : Nat) (user : Option Carriage) (x : SawStation) : SawStation :=
  if left = false ∧ x.mode = .book ∧ (x.state = .opened ∨ x.state = .closed) ∧ 1 ≤ count
      ∧ x.releasePending = false then
    if user = none then
      { x with cutGo := true, state := .cutting, bookTimer := ⟨false, 0⟩, releasePending := false }
    else { x with releasePending := true, bookTimer := ⟨false, x.bookTimer.ms⟩ }
  else x

/-- An order of the saw counts for its order end notice (R56). -/
def State.ordersLeft (s : State) (w : Saw) : Bool :=
  s.queue.entries.any fun e => e.saw = w && !e.isStarved

theorem afterOrderEnd_eq (s : State) (w : Saw) :
    afterOrderEnd s w = endBook (s.ordersLeft w) (s.bookCount w) (s.infeedUser w) s.saws[w] := rfl

theorem endBook_left (count : Nat) (user : Option Carriage) (x : SawStation) :
    endBook true count user x = x := if_neg fun h => Bool.noConfusion h.1

/-- A second order end notice of the saw changes nothing: the book is released, or its release is
pending (R151). -/
theorem endBook_endBook (count : Nat) (user : Option Carriage) (x : SawStation) :
    endBook false count user (endBook false count user x) = endBook false count user x := by
  by_cases h : x.mode = .book ∧ (x.state = .opened ∨ x.state = .closed) ∧ 1 ≤ count
      ∧ x.releasePending = false
  · by_cases huser : user = none
    · have hreleased : endBook false count user x = { x with
          cutGo := true, state := .cutting, bookTimer := ⟨false, 0⟩, releasePending := false } :=
        (if_pos ⟨rfl, h⟩).trans (if_pos huser)
      rw [hreleased]
      refine if_neg ?_
      rintro ⟨-, -, hstate, -⟩
      rcases hstate with e | e <;> cases e
    · have hpending : endBook false count user x = { x with
          releasePending := true, bookTimer := ⟨false, x.bookTimer.ms⟩ } :=
        (if_pos ⟨rfl, h⟩).trans (if_neg huser)
      rw [hpending]
      exact if_neg fun e => Bool.noConfusion e.2.2.2.2
  · have hsame : endBook false count user x = x := if_neg fun e => h e.2
    rw [hsame, hsame]

theorem endCounted_eq (w : Saw) (e : OrderEntry) :
    endCounted w e = (decide (e.saw = w) && !e.isStarved) := by
  unfold endCounted OrderEntry.isStarved
  cases e.state <;> rfl

theorem ordersLeft_iff (s : State) (w : Saw) :
    (s.queue.entries.filter (endCounted w)).length = 0 ↔ s.ordersLeft w = false := by
  rw [List.length_eq_zero_iff, List.filter_eq_nil_iff, State.ordersLeft, List.any_eq_false]
  simp only [endCounted_eq]

theorem decideRelease_eq (s : State) (w : Saw) (h : s.saws[w].releasePending = false) :
    s.decideRelease w = s.modSaw w fun x => if s.infeedUser w = none then
        { x with cutGo := true, state := .cutting, bookTimer := ⟨false, 0⟩, releasePending := false }
      else { x with releasePending := true, bookTimer := ⟨false, x.bookTimer.ms⟩ } := by
  rw [State.decideRelease, if_neg (by rw [h]; exact Bool.false_ne_true)]
  by_cases huser : s.infeedUser w = none
  · rw [if_neg (by rw [huser]; exact Bool.false_ne_true)]
    simp only [if_pos huser]
    rfl
  · rw [if_pos (Option.isSome_iff_ne_none.2 huser)]
    simp only [if_neg huser]
    rfl

theorem modSaw_fixed {s : State} {w : Saw} {f : SawStation → SawStation} (h : f s.saws[w] = s.saws[w]) :
    s.modSaw w f = s := by
  have hset : s.saws.set w.val s.saws[w] = s.saws := Vector.set_getElem_self _
  rw [State.modSaw, h, hset]

/-- The order end notice changes the record of its saw station alone (R56). -/
theorem orderEnd_eq (s : State) (w : Saw) :
    s.orderEnd w = s.modSaw w fun _ => afterOrderEnd s w := by
  rw [afterOrderEnd_eq, State.orderEnd]
  by_cases h : s.ordersLeft w = false ∧ s.saws[w].mode = .book
      ∧ (s.saws[w].state = .opened ∨ s.saws[w].state = .closed) ∧ 1 ≤ s.bookCount w
  · obtain ⟨hleft, hmode, hstate, hcount⟩ := h
    rw [if_pos ⟨(ordersLeft_iff s w).2 hleft, hmode, (servable_iff _).2 hstate, hcount⟩]
    cases hpending : s.saws[w].releasePending with
    | true =>
      rw [decideRelease_of_pending s w hpending]
      refine (modSaw_fixed ?_).symm
      exact if_neg fun e => Bool.noConfusion (hpending.symm.trans e.2.2.2.2)
    | false =>
      rw [decideRelease_eq s w hpending]
      exact modSaw_congr (if_pos ⟨hleft, hmode, hstate, hcount, hpending⟩).symm
  · rw [if_neg fun e => h ⟨(ordersLeft_iff s w).1 e.1, e.2.1, (servable_iff _).1 e.2.2.1, e.2.2.2⟩]
    refine (modSaw_fixed ?_).symm
    exact if_neg fun e => h ⟨e.1, e.2.1, e.2.2.1, e.2.2.2.1⟩

theorem Unmoved.orderEnds {s u : State} (h : Unmoved s u) (w) : Unmoved s (u.orderEnd w) := by
  rw [orderEnd_eq]
  exact h.modSaw _ _

/-! ### CANCEL ORDER -/

/-- No order has the number. -/
def State.noOrder (n : Nat) (s : State) : Prop := ∀ x ∈ s.queue.entries, x.number ≠ n

theorem noOrder_stable (n : Nat) : Stable (State.noOrder n) where
  seq _ _ h := h
  port _ _ h := h
  arb _ _ h := h
  todo _ _ h := h
  free _ _ h := h
  saw _ _ _ _ h := h
  stack _ _ _ h := h
  orders s p f hf h x hx := by
    obtain ⟨e, he, rfl⟩ := List.mem_map.1 hx
    split
    · next hp => rw [(hf e hp).1]; exact h e he
    · exact h e he
  drop s k h x hx := h x (List.mem_of_mem_filter hx)
  returns _ _ h := h
  rank s h x hx := by
    dsimp only [OrderQueue.takeRank] at hx
    split at hx
    · exact h x hx
    · obtain ⟨e, he, rfl⟩ := List.mem_map.1 hx
      exact h e he
  counters _ _ _ h := h
  raise s k src d _ h := by
    obtain ⟨l, u, m, e⟩ := raise_frame s k src d
    rw [e]
    exact h
  clear _ _ h := h

theorem dropOrder_noOrder (s : State) (n : Nat) : (s.dropOrder n).noOrder n := fun x hx => by
  have hne := (List.mem_filter.1 hx).2
  simpa using hne

theorem dropOrder_dropOrder (s : State) (n : Nat) :
    (s.dropOrder n).dropOrder n = s.dropOrder n := by
  simp [State.dropOrder, List.filter_filter]

theorem cancelEntry_noOrder (s : State) (e : OrderEntry) : (s.cancelEntry e).noOrder e.number := by
  have hsame : (s.dropOrder e.number).cancelEntry e = s.cancelEntry e := by
    simp only [State.cancelEntry, dropOrder_dropOrder]
  rw [← hsame]
  exact (noOrder_stable e.number).cancelEntry e (dropOrder_noOrder s e.number)

theorem doCancelOrder_known {s : State} {n : Half} {e : OrderEntry} (hok : s.queue.ok = true)
    (he : e ∈ s.queue.entries) (hn : e.number = n.toNat) :
    s.doCancelOrder n = (s.cancelEntry e, .accept (num16 e.number
      ++ [byte (orderStateCode e.state)] ++ num16 e.placed ++ num16 e.remaining)) := by
  obtain ⟨-, -, hentries⟩ := (Stable.queueOk_iff _).1 hok
  have hpos : ¬n.toNat = 0 := by
    have hentry := hentries e he
    simp only [OrderEntry.ok, Bool.and_eq_true, decide_eq_true_eq] at hentry
    omega
  rw [State.doCancelOrder, if_neg hpos, ← hn, orderOf_mem hok he]

theorem cancelOrder_refuses {s : State} {n : Half} (hs : s.takesAtOnce = true) {why : Reason} {i : Nat}
    (hbad : (s.withRequest (.cancelOrder n)).doCancelOrder n
      = (s.withRequest (.cancelOrder n), .refuse why i)) :
    refuses (.cancelOrder n) s 14 (reasonCode why) (byte i) :=
  refuses_of_handle (q := .cancelOrder n) hs (parseRequest_cancelOrder n) hbad

/-- The order is gone and its saw has its order end notice (R60). -/
def State.endedWithout (s : State) (e : OrderEntry) : State :=
  (s.dropOrder e.number).modSaw e.saw fun _ => afterOrderEnd (s.dropOrder e.number) e.saw

theorem orderEnd_dropOrder (s : State) (e : OrderEntry) :
    (s.dropOrder e.number).orderEnd e.saw = s.endedWithout e := orderEnd_eq _ _

/-- What a sequencer holds back is nothing to an order end notice. -/
theorem orderEnd_modSeq (s : State) (c : Carriage) (f : Sequencer → Sequencer) (w : Saw) :
    (s.modSeq c f).orderEnd w = (s.orderEnd w).modSeq c f := by
  rw [orderEnd_eq, orderEnd_eq]
  rfl

section
variable {s : State} {e : OrderEntry}

theorem cancelEntry_waiting
    (h : e.state = .queued ∨ e.isStarved = true ∨ e.isBlocked = true) :
    s.cancelEntry e = s.endedWithout e := by
  rw [← orderEnd_dropOrder]
  unfold State.cancelEntry
  split
  · next hst => simp [hst, OrderEntry.isStarved, OrderEntry.isBlocked] at h
  · next hst => simp [hst, OrderEntry.isStarved, OrderEntry.isBlocked] at h
  · rfl

theorem cancelEntry_suspended {k : Carriage} (h : e.state = .suspended k) :
    s.cancelEntry e = (s.endedWithout e).modSeq k fun q =>
      { q with suspended := q.suspended.filter fun r => r.ref ≠ .order e.number } := by
  have hfilter : (fun r : Suspended => !r.ofOrder e.number)
      = fun r => decide (r.ref ≠ .order e.number) := by
    funext r
    simp [Suspended.ofOrder]
  simp only [State.cancelEntry, h, orderEnd_modSeq, orderEnd_dropOrder, hfilter]

theorem cancelEntry_inStep {k : Carriage} (h : e.state = .active k)
    (hk : (s.sq k).state = .moving ∨ (s.sq k).state = .held) :
    s.cancelEntry e = (s.endedWithout e).modSeq k fun q => { q with cancelPending := true } := by
  have hstate : (((s.endedWithout e).modSeq k fun q => { q with cancelPending := true }).sq k).state
      = (s.sq k).state := by
    rw [modSeq_sq_self]
    rfl
  simp only [State.cancelEntry, h, orderEnd_modSeq, orderEnd_dropOrder]
  rcases hk with hk | hk <;> rw [State.cancelNow, hstate, hk]

end

/-- CANCEL ORDER of a known order (R60). -/
theorem cancelOrder_accepts {s t : State} {n : Half} {e : OrderEntry} (hs : s.takesAtOnce = true)
    (hok : s.queue.ok = true) (he : e ∈ s.queue.entries) (hn : e.number = n.toNat)
    (ht : (s.withRequest (.cancelOrder n)).cancelEntry e = t.withRequest (.cancelOrder n))
    (hmoved : Unmoved s t) :
    accepts (.cancelOrder n) s t 14 (num16 e.number ++ [byte (orderStateCode e.state)]
      ++ num16 e.placed ++ num16 e.remaining) := by
  have hchecks := doCancelOrder_known (s := s.withRequest (.cancelOrder n)) hok he hn
  rw [ht] at hchecks
  exact accepts_of_unmoved (q := .cancelOrder n) hs (parseRequest_cancelOrder n) hchecks hmoved

/-- A request that is taken at once answers last, and what its owner and the end of the step keep is
kept. -/
theorem exec_answers {P : State → Prop} (hlink : ∀ s l, P s → P { s with link := l })
    (hstable : Stable P) {s : State} {q : Request} {r : Reply} (hs : s.takesAtOnce = true)
    (hp : parseRequest (Request.kind q) (Request.body q) = .request q)
    {u : State} (hr : (s.withRequest q).handle q = (u, r)) (hu : P u) :
    ∃ t, exec q.command s = .next t ∧ P t
      ∧ t.link.outbound.getLast? = some (r.frame (Request.kind q)) := by
  rw [exec_command, requestArrives_takesAtOnce s q hs hp, hr]
  refine ⟨_, rfl, hlink _ _ (hlink _ _ (hstable.settle hu)), ?_⟩
  exact List.getLast?_concat

/-- CANCEL ORDER by the state of the order (R60). -/
theorem cancelOrderLeaves (s : State) (n : Half) (hs : s.takesAtOnce = true)
    (hok : s.queue.ok = true) {e : OrderEntry} (he : e ∈ s.queue.entries)
    (hn : e.number = n.toNat) :
    let reply := num16 e.number ++ [byte (orderStateCode e.state)] ++ num16 e.placed
      ++ num16 e.remaining
    (e.state = .queued ∨ e.isStarved = true ∨ e.isBlocked = true →
        accepts (.cancelOrder n) s (s.endedWithout e) 14 reply)
      ∧ (∀ k, e.state = .suspended k →
          accepts (.cancelOrder n) s ((s.endedWithout e).modSeq k fun q =>
            { q with suspended := q.suspended.filter fun r => r.ref ≠ .order e.number }) 14 reply)
      ∧ (∀ k, e.state = .active k → (s.sq k).state = .moving ∨ (s.sq k).state = .held →
          accepts (.cancelOrder n) s
            ((s.endedWithout e).modSeq k fun q => { q with cancelPending := true }) 14 reply)
      ∧ ∃ t, exec (.cancelOrder n) s = .next t ∧ t.noOrder n.toNat
          ∧ t.link.outbound.getLast? = some ⟨0x80, 14 :: reply⟩ := by
  have hended : Unmoved s (s.endedWithout e) := ((Unmoved.refl s).dropOrder _).modSaw _ _
  refine ⟨fun hstate => ?_, fun k hstate => ?_, fun k hstate hk => ?_, ?_⟩
  · exact cancelOrder_accepts hs hok he hn (cancelEntry_waiting hstate) hended
  · exact cancelOrder_accepts hs hok he hn (cancelEntry_suspended hstate)
      (hended.modSeq k _ fun _ => rfl)
  · exact cancelOrder_accepts hs hok he hn
      (cancelEntry_inStep (s := s.withRequest (.cancelOrder n)) hstate hk)
      (hended.modSeq k _ fun _ => rfl)
  · exact exec_answers (q := .cancelOrder n) (fun _ _ h => h) (noOrder_stable n.toNat) hs
      (parseRequest_cancelOrder n)
      (doCancelOrder_known (s := s.withRequest (.cancelOrder n)) hok he hn)
      (hn ▸ cancelEntry_noOrder _ e)

/-! ### FLUSH ORDERS -/

/-- Orders leave the queue. -/
def State.dropOrders (s : State) (l : List OrderEntry) : State :=
  { s with
    queue := { s.queue with
      entries := s.queue.entries.filter fun x => l.all fun e => e.number ≠ x.number } }

/-- Orders leave the queue, and each saw that loses one has its order end notice. -/
def State.flushedOf (s : State) (l : List OrderEntry) : State :=
  { s.dropOrders l with
    saws := Vector.ofFn fun w : Saw =>
      if l.any fun e => e.saw = w then afterOrderEnd (s.dropOrders l) w else s.saws[w] }

theorem mem_dropOrders {s : State} {l : List OrderEntry} {x : OrderEntry} :
    x ∈ (s.dropOrders l).queue.entries
      ↔ x ∈ s.queue.entries ∧ ∀ e ∈ l, e.number ≠ x.number := by
  simp [State.dropOrders]

theorem dropOrders_nil (s : State) : s.dropOrders [] = s := by
  simp [State.dropOrders]

theorem dropOrders_append (s : State) (l : List OrderEntry) (e : OrderEntry) :
    (s.dropOrders l).dropOrder e.number = s.dropOrders (l ++ [e]) := by
  have hpred : (fun x : OrderEntry => decide (x.number ≠ e.number) && l.all fun e => e.number ≠ x.number)
      = fun x => (l ++ [e]).all fun e => e.number ≠ x.number := by
    funext x
    rw [List.all_append, Bool.and_comm]
    simp [eq_comm]
  simp only [State.dropOrders, State.dropOrder, List.filter_filter, hpred]

theorem ordersLeft_mono {s u : State} {w : Saw} (h : ∀ x ∈ u.queue.entries, x ∈ s.queue.entries)
    (hs : s.ordersLeft w = false) : u.ordersLeft w = false := by
  rw [State.ordersLeft, List.any_eq_false] at hs ⊢
  exact fun x hx => hs x (h x hx)

theorem number_unique {s : State} (hok : s.queue.ok = true) {x e : OrderEntry}
    (hx : x ∈ s.queue.entries) (he : e ∈ s.queue.entries) (h : x.number = e.number) : x = e := by
  have hxo := orderOf_mem hok hx
  rw [h, orderOf_mem hok he] at hxo
  exact (Option.some.inj hxo).symm

/-- The order end count of a saw does not see an order of another saw leave. -/
theorem ordersLeft_otherSaw {s : State} (hok : s.queue.ok = true) {l : List OrderEntry}
    {e : OrderEntry} (he : e ∈ s.queue.entries) {w : Saw} (hw : e.saw ≠ w) :
    (s.dropOrders (l ++ [e])).ordersLeft w = (s.dropOrders l).ordersLeft w := by
  rw [Bool.eq_iff_iff, State.ordersLeft, State.ordersLeft, List.any_eq_true, List.any_eq_true]
  refine exists_congr fun x => and_congr_left fun hx => ?_
  rw [Bool.and_eq_true, decide_eq_true_eq] at hx
  rw [mem_dropOrders, mem_dropOrders, List.forall_mem_append, List.forall_mem_singleton]
  refine and_congr_right fun hmem => ⟨fun h => h.1, fun h => ⟨h, fun hnum => hw ?_⟩⟩
  rw [number_unique hok he hmem hnum]
  exact hx.1

theorem flushedOf_saws (s : State) (l : List OrderEntry) (w : Saw) :
    (s.flushedOf l).saws[w]
      = if l.any fun e => e.saw = w then afterOrderEnd (s.dropOrders l) w else s.saws[w] := by
  simp only [State.flushedOf, Fin.getElem_fin, Vector.getElem_ofFn]

/-- One more order leaves and its saw has its order end notice. A notice that has released the book of the
saw already, or made its release pending, is not undone by a later one. -/
theorem flushedOf_step {s : State} (hok : s.queue.ok = true) (l : List OrderEntry) {e : OrderEntry}
    (he : e ∈ s.queue.entries) :
    ((s.flushedOf l).dropOrder e.number).orderEnd e.saw = s.flushedOf (l ++ [e]) := by
  have hqueue : (s.flushedOf l).dropOrder e.number
      = { s.dropOrders (l ++ [e]) with saws := (s.flushedOf l).saws } :=
    congrArg (fun u : State => { u with saws := (s.flushedOf l).saws }) (dropOrders_append s l e)
  have hsaws : ∀ w : Saw, (({ s.dropOrders (l ++ [e]) with
      saws := (s.flushedOf l).saws } : State).orderEnd e.saw).saws[w]
      = (s.flushedOf (l ++ [e])).saws[w] := fun w => by
    rw [orderEnd_eq, flushedOf_saws, List.any_append, List.any_cons, List.any_nil, Bool.or_false]
    by_cases hw : e.saw = w
    · subst hw
      rw [saws_modSaw_self, if_pos (by simp), afterOrderEnd_eq, afterOrderEnd_eq]
      have hbefore := flushedOf_saws s l e.saw
      by_cases hany : (l.any fun x => x.saw = e.saw) = true
      · rw [if_pos hany, afterOrderEnd_eq] at hbefore
        refine (congrArg (endBook _ _ _) hbefore).trans ?_
        cases hleft : (s.dropOrders l).ordersLeft e.saw with
        | true => exact congrArg (endBook _ _ _) (endBook_left _ _ _)
        | false =>
          have hnone : (s.dropOrders (l ++ [e])).ordersLeft e.saw = false :=
            ordersLeft_mono (fun x hx => mem_dropOrders.2
              ⟨(mem_dropOrders.1 hx).1, fun y hy =>
                (mem_dropOrders.1 hx).2 y (List.mem_append_left _ hy)⟩) hleft
          have hnone' : ({ s.dropOrders (l ++ [e]) with
              saws := (s.flushedOf l).saws } : State).ordersLeft e.saw = false := hnone
          rw [hnone', hnone]
          exact endBook_endBook _ _ _
      · rw [if_neg hany] at hbefore
        exact congrArg (endBook _ _ _) hbefore
    · have hother : (({ s.dropOrders (l ++ [e]) with
          saws := (s.flushedOf l).saws } : State).modSaw e.saw fun _ =>
            afterOrderEnd { s.dropOrders (l ++ [e]) with saws := (s.flushedOf l).saws } e.saw).saws[w]
          = (s.flushedOf l).saws[w] := by
        simp only [State.modSaw, Fin.getElem_fin]
        exact Vector.getElem_set_ne _ _ fun h => hw (Fin.ext h)
      have hnotice : afterOrderEnd (s.dropOrders (l ++ [e])) w = afterOrderEnd (s.dropOrders l) w := by
        rw [afterOrderEnd_eq, afterOrderEnd_eq, ordersLeft_otherSaw hok he hw]
        rfl
      rw [hother, flushedOf_saws, decide_eq_false hw, Bool.or_false, hnotice]
  have hvector := Vector.ext fun i hi => hsaws ⟨i, hi⟩
  rw [hqueue]
  rw [orderEnd_eq] at hvector ⊢
  exact congrArg (fun v => { s.dropOrders (l ++ [e]) with saws := v }) hvector

theorem foldl_flushed {s : State} (hok : s.queue.ok = true) (done rest : List OrderEntry)
    (hmem : ∀ e ∈ rest, e ∈ s.queue.entries) :
    rest.foldl (fun t e => (t.dropOrder e.number).orderEnd e.saw) (s.flushedOf done)
      = s.flushedOf (done ++ rest) := by
  induction rest generalizing done with
  | nil => rw [List.append_nil, List.foldl_nil]
  | cons e rest ih =>
    rw [List.forall_mem_cons] at hmem
    rw [List.foldl_cons, flushedOf_step hok done hmem.1, ih _ hmem.2, List.append_assoc]
    rfl

theorem flushedOf_nil (s : State) : s.flushedOf [] = s := by
  have hsaws : (Vector.ofFn fun w : Saw => s.saws[w]) = s.saws := Vector.ext fun i hi => by simp
  have hnil : s.flushedOf [] = { s.dropOrders [] with saws := Vector.ofFn fun w : Saw => s.saws[w] } := rfl
  rw [hnil, hsaws, dropOrders_nil]

/-- The orders that FLUSH ORDERS takes out leave by their states alone. -/
theorem dropOrders_flushed {s : State} (hok : s.queue.ok = true) :
    s.dropOrders (s.queue.entries.filter (·.flushed)) = { s with
      queue := { s.queue with entries := s.queue.entries.filter fun e => !e.flushed } } := by
  have hentries : (s.queue.entries.filter fun x =>
      (s.queue.entries.filter (·.flushed)).all fun e => e.number ≠ x.number)
      = s.queue.entries.filter fun e => !e.flushed := by
    refine List.filter_congr fun x hx => ?_
    rw [Bool.eq_iff_iff, List.all_eq_true, Bool.not_eq_true']
    refine ⟨fun h => ?_, fun h e he => ?_⟩
    · by_contra hflushed
      have hself := h x (List.mem_filter.2 ⟨hx, Bool.not_eq_false _ ▸ hflushed⟩)
      exact of_decide_eq_true hself rfl
    · refine decide_eq_true fun hnum => ?_
      obtain ⟨hmem, hflushed⟩ := List.mem_filter.1 he
      cases number_unique hok hmem hx hnum
      exact Bool.false_ne_true (h.symm.trans hflushed)
  rw [State.dropOrders, hentries]

theorem doFlushOrders_eq {s : State} (hok : s.queue.ok = true) :
    s.doFlushOrders = (s.flushedOf (s.queue.entries.filter (·.flushed)),
      .accept [byte (s.queue.entries.filter (·.flushed)).length]) := by
  have hfold := foldl_flushed hok [] (s.queue.entries.filter (·.flushed))
    fun e he => (List.mem_filter.1 he).1
  rw [flushedOf_nil, List.nil_append] at hfold
  rw [State.doFlushOrders, hfold]

/-- FLUSH ORDERS (R61). -/
theorem flushOrders_accepts {s : State} (hs : s.takesAtOnce = true) (hok : s.queue.ok = true) :
    accepts .flushOrders s (s.flushedOf (s.queue.entries.filter (·.flushed))) 15
      [byte (s.queue.entries.filter (·.flushed)).length] :=
  accepts_of_unmoved (q := .flushOrders) hs rfl
    (doFlushOrders_eq (s := s.withRequest .flushOrders) hok) ⟨rfl, rfl, rfl, fun _ => rfl⟩

/-- A saw has lost an order to FLUSH ORDERS. -/
theorem any_filter_flushed (l : List OrderEntry) (w : Saw) :
    ((l.filter (·.flushed)).any fun e => e.saw = w) = l.any fun e => e.flushed && e.saw = w :=
  List.any_filter

/-- Settles O32: CANCEL ORDER by the state of the order, and FLUSH ORDERS as one removal after another. -/
theorem ordersLeave : Obligations.OrdersLeave := by
  refine ⟨fun s n hs hok => ⟨fun hn => ?_, fun hn hnone => ?_, fun e he hn => ?_⟩, fun s hs hok => ?_⟩
  · subst hn
    exact cancelOrder_refuses hs (why := .badValue) (i := 1) rfl
  · have hpos : ¬n.toNat = 0 := fun e => hn (BitVec.eq_of_toNat_eq e)
    have habsent : (s.withRequest (.cancelOrder n)).orderOf n.toNat = none := by
      rw [orderOf_withRequest, ← Option.not_isSome_iff_eq_none, orderOf_isSome_iff]
      rintro ⟨e, he, hnum⟩
      exact hnone e he hnum
    refine cancelOrder_refuses hs (i := 0) (why := .unknownOrder) ?_
    rw [State.doCancelOrder, if_neg hpos, habsent]
  · have hleaves := cancelOrderLeaves s n hs hok he hn
    dsimp only at hleaves ⊢
    rw [← hn] at hleaves ⊢
    exact hleaves
  · intro flushed gone
    have hflushed : flushed = OrderEntry.flushed := funext fun e => by
      simp only [flushed, OrderEntry.flushed, OrderEntry.isStarved, OrderEntry.isBlocked]
      cases e.state <;> rfl
    have haccepts := flushOrders_accepts hs hok
    unfold State.flushedOf at haccepts
    simp only [any_filter_flushed, dropOrders_flushed hok] at haccepts
    clear_value flushed
    subst hflushed
    exact haccepts

end Sys2Proof.Machine
end

section
/-! Operations of the ports and the sequencers: they leave the waiting request alone, and at most an
examination is due when no notice goes to a carriage. HOME (O34) and RESUME (O36). -/

namespace Sys2Proof.Machine

/-! ### The waiting request -/

section
variable (s : State) (q : Request)

@[simp] theorem setCarState_withRequest (c st) :
    (s.withRequest q).setCarState c st = (s.setCarState c st).withRequest q := by
  simp only [State.setCarState, withRequest_sq, modSeq_withRequest, dueExam_withRequest,
    nudgeBlocked_withRequest, ite_withRequest]

@[simp] theorem send_withRequest (c x) :
    (s.withRequest q).send c x = (s.send c x).withRequest q := by
  rw [State.send, State.send, ite_withRequest]
  rfl

@[simp] theorem sendStep_withRequest (c k x) :
    (s.withRequest q).sendStep c k x = (s.sendStep c k x).withRequest q := by
  simp only [State.sendStep, withRequest_pt, send_withRequest, ite_withRequest]

@[simp] theorem handStep_withRequest (c x) :
    (s.withRequest q).handStep c x = (s.handStep c x).withRequest q := by
  simp only [State.handStep, withRequest_pt, modPort_withRequest, sendStep_withRequest]
  cases (s.pt c).current <;> rfl

@[simp] theorem sendClear_withRequest (c) :
    (s.withRequest q).sendClear c = (s.sendClear c).withRequest q := by
  simp only [State.sendClear, send_withRequest, modPort_withRequest]

@[simp] theorem withdrawNext_withRequest (c) :
    (s.withRequest q).withdrawNext c = (s.withdrawNext c).withRequest q := by
  simp only [State.withdrawNext, withRequest_pt, send_withRequest, modPort_withRequest,
    ite_withRequest]

@[simp] theorem withdrawClaim_withRequest (c) :
    (s.withRequest q).withdrawClaim c = (s.withdrawClaim c).withRequest q := by
  rw [State.withdrawClaim, State.withdrawClaim, ite_withRequest]
  rfl

@[simp] theorem enterHeld_withRequest (c) :
    (s.withRequest q).enterHeld c = (s.enterHeld c).withRequest q := by
  simp only [State.enterHeld, setCarState_withRequest, modSeq_withRequest]

@[simp] theorem enterIdle_withRequest (c) :
    (s.withRequest q).enterIdle c = (s.enterIdle c).withRequest q := by
  simp only [State.enterIdle, setCarState_withRequest, modSeq_withRequest]

@[simp] theorem releaseBook_withRequest (w) :
    (s.withRequest q).releaseBook w = (s.releaseBook w).withRequest q := rfl

@[simp] theorem userCleared_withRequest (p) :
    (s.withRequest q).userCleared p = (s.userCleared p).withRequest q := by
  simp only [State.userCleared, withRequest_kindAt, withRequest_cell, withRequest_saws,
    releaseBook_withRequest]
  cases s.kindAt p
  case infeed =>
    cases s.cell.places[p].saw with
    | none => rfl
    | some w => exact (ite_withRequest _ _ _ _).symm
  all_goals rfl

@[simp] theorem releasePlace_withRequest (c p) :
    (s.withRequest q).releasePlace c p = (s.releasePlace c p).withRequest q := by
  simp only [State.releasePlace, withRequest_userAt, setUser_withRequest, userCleared_withRequest,
    nudgeBlocked_withRequest, ite_withRequest]

@[simp] theorem modWork_withRequest (c f) :
    (s.withRequest q).modWork c f = (s.modWork c f).withRequest q := rfl

@[simp] theorem releaseDest_withRequest (c) :
    (s.withRequest q).releaseDest c = (s.releaseDest c).withRequest q := by
  simp only [State.releaseDest, withRequest_sq, modWork_withRequest, releasePlace_withRequest]
  cases (s.sq c).work with
  | none => rfl
  | some w =>
    dsimp only
    cases w.dest <;> rfl

@[simp] theorem enterSawWait_withRequest (c w) :
    (s.withRequest q).enterSawWait c w = (s.enterSawWait c w).withRequest q := by
  rw [State.enterSawWait, State.enterSawWait, releaseDest_withRequest, setCarState_withRequest,
    modSeq_withRequest]
  rfl

@[simp] theorem standsAt_withRequest (c p) : (s.withRequest q).standsAt c p = s.standsAt c p := rfl
@[simp] theorem travelTo_withRequest (c p) : (s.withRequest q).travelTo c p = s.travelTo c p := rfl
@[simp] theorem pickAt_withRequest (p) : (s.withRequest q).pickAt p = s.pickAt p := rfl
@[simp] theorem placeAt_withRequest (c p) : (s.withRequest q).placeAt c p = s.placeAt c p := rfl
@[simp] theorem infeedTakes_withRequest (w) :
    (s.withRequest q).infeedTakes w = s.infeedTakes w := rfl
@[simp] theorem placeZone_withRequest (p) : (s.withRequest q).placeZone p = s.placeZone p := rfl
@[simp] theorem spanClaimable_withRequest (c b r) :
    (s.withRequest q).spanClaimable c b r = s.spanClaimable c b r := rfl

@[simp] theorem issueMove_withRequest (c p x) :
    (s.withRequest q).issueMove c p x = (s.issueMove c p x).withRequest q := by
  simp only [State.issueMove, standsAt_withRequest, travelTo_withRequest, handStep_withRequest,
    ite_withRequest]

@[simp] theorem issue_withRequest (c) :
    (s.withRequest q).issue c = (s.issue c).withRequest q := by
  simp only [State.issue, withRequest_sq, pickAt_withRequest, placeAt_withRequest,
    issueMove_withRequest, infeedTakes_withRequest, handStep_withRequest, enterSawWait_withRequest,
    travelTo_withRequest, ← ite_withRequest]
  cases (s.sq c).nextAction <;> rfl

@[simp] theorem holdZones_withRequest (c p) :
    (s.withRequest q).holdZones c p = (s.holdZones c p).withRequest q := rfl

@[simp] theorem releaseZones_withRequest (c p) :
    (s.withRequest q).releaseZones c p = (s.releaseZones c p).withRequest q := rfl

@[simp] theorem grantSpan_withRequest (c r) :
    (s.withRequest q).grantSpan c r = (s.grantSpan c r).withRequest q := by
  simp only [State.grantSpan, holdZones_withRequest, setCarState_withRequest, dueExam_withRequest,
    issue_withRequest]

end

/-! ### At most an examination is due -/

/-- No notice for a carriage, no claim and no closing is added or taken away: at most an examination is due,
and it has nothing to decide where there was nothing. -/
structure ExamOnly (s u : State) : Prop where
  blocked : u.todo.blocked = s.todo.blocked
  wait : u.todo.wait = s.todo.wait
  link : u.link.waiting = s.link.waiting
  claims : u.arb.waiting = s.arb.waiting
  gates : u.arb.gates = s.arb.gates
  host : u.arb.host = s.arb.host

namespace ExamOnly
variable {s u v : State}

theorem refl (s : State) : ExamOnly s s := ⟨rfl, rfl, rfl, rfl, rfl, rfl⟩

theorem trans (h : ExamOnly s u) (k : ExamOnly u v) : ExamOnly s v :=
  ⟨k.1.trans h.1, k.2.trans h.2, k.3.trans h.3, k.4.trans h.4, k.5.trans h.5, k.6.trans h.6⟩

theorem of_unmoved (h : Unmoved s u) : ExamOnly s u := by
  refine ⟨?_, ?_, h.waiting, ?_, ?_, ?_⟩
  · rw [h.todo]
  · rw [h.todo]
  · rw [h.arb]
  · rw [h.arb]
  · rw [h.arb]

theorem noClaims (h : ExamOnly s u) (hs : s.noClaims = true) : u.noClaims = true := by
  rwa [State.noClaims, h.claims, h.gates, h.host]

theorem dueExam (h : ExamOnly s u) : ExamOnly s u.dueExam := ⟨h.1, h.2, h.3, h.4, h.5, h.6⟩
theorem modSeq (h : ExamOnly s u) (c f) : ExamOnly s (u.modSeq c f) := ⟨h.1, h.2, h.3, h.4, h.5, h.6⟩
theorem modPort (h : ExamOnly s u) (c f) : ExamOnly s (u.modPort c f) :=
  ⟨h.1, h.2, h.3, h.4, h.5, h.6⟩
theorem modRec (h : ExamOnly s u) (c f) : ExamOnly s (u.modRec c f) :=
  ⟨h.1, h.2, h.3, h.4, h.5, h.6⟩
theorem mapZones (h : ExamOnly s u) (f) : ExamOnly s (u.mapZones f) :=
  ⟨h.1, h.2, h.3, h.4, h.5, h.6⟩
theorem modCounters (h : ExamOnly s u) (f) : ExamOnly s (u.modCounters f) :=
  ⟨h.1, h.2, h.3, h.4, h.5, h.6⟩
theorem clearEvents (h : ExamOnly s u) (f) : ExamOnly s (u.clearEvents f) :=
  ⟨h.1, h.2, h.3, h.4, h.5, h.6⟩
theorem modStack (h : ExamOnly s u) (p f) : ExamOnly s (u.modStack p f) :=
  ⟨h.1, h.2, h.3, h.4, h.5, h.6⟩
theorem modSaw (h : ExamOnly s u) (w f) : ExamOnly s (u.modSaw w f) :=
  ⟨h.1, h.2, h.3, h.4, h.5, h.6⟩

theorem send (h : ExamOnly s u) (c x) : ExamOnly s (u.send c x) := by
  unfold State.send
  split
  · exact h
  · exact h.modPort _ _

theorem sendStep (h : ExamOnly s u) (c k x) : ExamOnly s (u.sendStep c k x) := by
  unfold State.sendStep
  split
  · exact h.send _ _
  · exact h

theorem handStep (h : ExamOnly s u) (c x) : ExamOnly s (u.handStep c x) := by
  unfold State.handStep
  split
  · exact (h.modPort _ _).sendStep _ _ _
  · exact (h.modPort _ _).sendStep _ _ _

theorem issueMove (h : ExamOnly s u) (c p x) : ExamOnly s (u.issueMove c p x) := by
  unfold State.issueMove
  split
  · exact h.handStep _ _
  · exact (h.handStep _ _).handStep _ _

theorem sendClear (h : ExamOnly s u) (c) : ExamOnly s (u.sendClear c) := (h.send _ _).modPort _ _

end ExamOnly

/-- A notice of a freed place or a changed state goes to no carriage. -/
theorem nudgeBlocked_unmoved {s : State} {c : Carriage} (h : (s.sq c).state.unmoved = true)
    (l : Latched → Latched) : s.nudgeBlocked c l = s := by
  unfold State.nudgeBlocked
  split
  · next hst => rw [hst] at h; cases h
  · next hst => rw [hst] at h; cases h
  · rfl

/-- A change of state that no carriage waits for (R93, R119). -/
theorem setCarState_eq {s : State} {c : Carriage} {st : CarState}
    (hother : (s.sq (other c)).state.unmoved = true) (hne : (s.sq c).state ≠ st) :
    s.setCarState c st = (s.modSeq c fun q => { q with state := st }).dueExam := by
  rw [State.setCarState, if_neg hne]
  exact nudgeBlocked_unmoved (by rw [dueExam_sq, modSeq_sq_other]; exact hother) _

theorem ExamOnly.setCarState {s u : State} (h : ExamOnly s u) {c : Carriage}
    (hother : (u.sq (other c)).state.unmoved = true) (st) : ExamOnly s (u.setCarState c st) := by
  by_cases hsame : (u.sq c).state = st
  · rwa [State.setCarState, if_pos hsame]
  · rw [setCarState_eq hother hsame]
    exact (h.modSeq _ _).dueExam

theorem takesAtOnce_todo {s : State} (h : s.takesAtOnce = true) : s.todo = Todo.none := by
  have hrest := takesAtOnce_rested h
  simpa [State.rested] using hrest

/-- Accepted with an effect that leaves at most an examination due, which has nothing to decide. -/
theorem accepts_of_examOnly {s u : State} {q : Request} {fields : List Byte}
    (h : s.takesAtOnce = true)
    (hp : parseRequest (Request.kind q) (Request.body q) = .request q)
    (hr : (s.withRequest q).handle q = (u.withRequest q, .accept fields)) (hu : ExamOnly s u)
    (hclaims : s.noClaims = true) :
    accepts q.command s { u with todo := s.todo } (Request.kind q) fields := by
  have htodo := takesAtOnce_todo h
  rw [htodo]
  refine accepts_of_noClaims h hp hr (hu.noClaims hclaims) ?_ ?_ (hu.link.trans (takesAtOnce_waiting h))
  · rw [hu.blocked, htodo]
    rfl
  · rw [hu.wait, htodo]
    rfl

/-! ### Carriage fields -/

theorem carriageOf_names {b : Byte} {c : Carriage} (h : names b c) : carriageOf b = some c := by
  unfold names at h
  rw [carriageOf, h]
  cases c <;> rfl

theorem carriageOf_above {b : Byte} (h : 1 < b.toNat) : carriageOf b = none := by
  unfold carriageOf
  split
  iterate 2 omega
  rfl

theorem exists_names {b : Byte} (h : b.toNat ≤ 1) : ∃ c, names b c := by
  have hcases : b.toNat = 0 ∨ b.toNat = 1 := by omega
  rcases hcases with h | h
  · exact ⟨.A, h⟩
  · exact ⟨.B, h⟩

theorem referenced_iff (st : CarState) :
    referenced st = false ↔ st = .unreferenced ∨ st = .homing ∨ st = .stopped := by
  cases st <;> decide

/-! ### HOME -/

theorem modPort_fixed {s : State} {c : Carriage} {f : DrivePort → DrivePort} (h : f (s.pt c) = s.pt c) :
    s.modPort c f = s := by
  rw [State.modPort, h]
  exact congrArg (fun v => { s with port := v }) (set_get s.port c)

/-- A command joins the commands sent, unless the link is DISABLED (R122). -/
theorem send_eq (s : State) (c : Carriage) (x : DriveCmd) :
    s.send c x = s.modPort c fun d => { d with sent := sentTo d x } := by
  rw [State.send]
  split
  · next h => exact (modPort_fixed (by rw [sentTo, if_pos h])).symm
  · next h =>
    rw [State.modPort, State.modPort, sentTo, if_neg h]

theorem sendClear_eq (s : State) (c : Carriage) :
    s.sendClear c = s.modPort c fun d => { d with sent := sentTo d .clear, clearPending := true } := by
  rw [State.sendClear, send_eq]
  simp only [State.modPort, State.pt, get_set_self, set_set]

theorem isAwaiting_eq (s : State) (g : Gate) : (match s.arb.gates[g].state with
    | .awaiting _ => true
    | _ => false) = s.arb.gates[g].isAwaiting := rfl

theorem railClosed_iff (s : State) : s.railClosed = true ↔ closedRail s := by
  have hzone : ((List.range 16).any fun z => s.zoneClosed z) = true
      ↔ ∃ (z : Fin 16) (k : Fin 7), s.arb.zones[z].sources[k] = true := by
    rw [List.any_eq_true]
    constructor
    · rintro ⟨z, hz, hclosed⟩
      rw [List.mem_range] at hz
      by_contra hnone
      refine Bool.false_ne_true (((zoneClosed_eq_false s ⟨z, hz⟩).2 fun k => ?_).symm.trans hclosed)
      exact Bool.eq_false_iff.2 fun hk => hnone ⟨⟨z, hz⟩, k, hk⟩
    · rintro ⟨z, k, hk⟩
      refine ⟨z.val, List.mem_range.2 z.isLt, ?_⟩
      by_contra hopen
      exact Bool.false_ne_true
        (((zoneClosed_eq_false s z).1 (Bool.eq_false_iff.2 hopen) k).symm.trans hk)
  have hgate : ((List.finRange 2).any fun g => s.arb.gates[g].isAwaiting) = true
      ↔ ∃ g : Gate, s.arb.gates[g].isAwaiting = true := by
    simp [List.any_eq_true, List.mem_finRange]
  have hunfold : s.railClosed = (((List.range 16).any fun z => s.zoneClosed z)
      || ((List.finRange 2).any fun g => s.arb.gates[g].isAwaiting)
      || s.arb.host.awaiting.isSome) := rfl
  rw [hunfold, Bool.or_eq_true, Bool.or_eq_true, hzone, hgate, Option.isSome_iff_ne_none, or_assoc]
  rfl

@[simp] theorem railClosed_withRequest (s : State) (q : Request) :
    (s.withRequest q).railClosed = s.railClosed := rfl

/-- HOME is under way: the zones are given up and CLEAR is sent (R134). -/
def State.startHoming (s : State) (c : Carriage) : State :=
  (((s.giveUpZones c).setCarState c .homing).modSeq c fun q => { q with ask := false }).sendClear c

@[simp] theorem startHoming_withRequest (s : State) (q : Request) (c) :
    (s.withRequest q).startHoming c = (s.startHoming c).withRequest q := by
  have hgive : (s.withRequest q).giveUpZones c = (s.giveUpZones c).withRequest q := rfl
  simp only [State.startHoming, hgive, setCarState_withRequest, modSeq_withRequest,
    sendClear_withRequest]

theorem doHome_eq {s : State} {b : Byte} {c : Carriage} (h : names b c) :
    s.doHome b = if (s.sq c).state = .stopped then (s, .refuse .notNow 0)
      else if s.railClosed = true then (s, .refuse .zoneClosed 0)
      else if (s.sq c).state ≠ .unreferenced ∧ (s.sq c).state ≠ .idle then (s, .refuse .notNow 0)
      else if (s.sq c).state = .idle ∧ (s.sq c).load.isSome = true then (s, .refuse .loaded 0)
      else (s.startHoming c, .ok) := by
  simp only [State.doHome, carriageOf_names h]
  rfl

theorem home_refuses {s : State} {b : Byte} (hs : s.takesAtOnce = true) {why : Reason} {i : Nat}
    (hbad : (s.withRequest (.home b)).doHome b = (s.withRequest (.home b), .refuse why i)) :
    refuses (.home b) s 16 (reasonCode why) (byte i) :=
  refuses_of_handle (q := .home b) hs rfl hbad

theorem giveUpZones_sq (s : State) (c d : Carriage) : (s.giveUpZones c).sq d = s.sq d := by
  rw [State.giveUpZones, dueExam_sq, modRec_sq, State.releaseZones, mapZones_sq]

theorem ExamOnly.givesUpZones (s : State) (c : Carriage) : ExamOnly s (s.giveUpZones c) :=
  (((ExamOnly.refl s).mapZones _).modRec c _).dueExam

theorem startHoming_examOnly {s : State} {c : Carriage}
    (hother : (s.sq (other c)).state.unmoved = true) : ExamOnly s (s.startHoming c) := by
  rw [← giveUpZones_sq s c] at hother
  exact (((ExamOnly.givesUpZones s c).setCarState hother _).modSeq c _).sendClear c

/-- The state HOME leaves, with the examination it makes due. -/
theorem startHoming_eq {s : State} {c : Carriage} (hother : (s.sq (other c)).state.unmoved = true)
    (hne : (s.sq c).state ≠ .homing) :
    { s.startHoming c with todo := s.todo } = { s with
      arb := { s.arb with
        zones := Vector.ofFn fun z : Fin 16 =>
          if s.arb.zones[z].holder = some c then { s.arb.zones[z] with holder := none }
          else s.arb.zones[z]
        records := s.arb.records.set c { s.arec c with zone := none } }
      seq := s.seq.set c { s.sq c with state := .homing, ask := false }
      port := s.port.set c { s.pt c with
        sent := sentTo (s.pt c) .clear, clearPending := true } } := by
  rw [← giveUpZones_sq s c] at hother hne
  rw [State.startHoming, setCarState_eq hother hne, sendClear_eq]
  simp only [State.giveUpZones, State.releaseZones, State.mapZones, State.modRec, State.modSeq,
    State.modPort, State.dueExam, State.sq, State.pt, State.arec, get_set_self, set_set,
    Bool.not_false, Bool.and_true, decide_eq_true_eq]

/-- Settles O34: the checks of HOME in their order, and the homing it starts. -/
theorem homeStarts : Obligations.HomeStarts := by
  intro s b hs
  refine ⟨fun hb => ?_, fun c hc => ?_⟩
  · refine home_refuses hs (why := .badValue) (i := 1) ?_
    simp only [State.doHome, carriageOf_above hb]
    rfl
  · have hchecks := doHome_eq (s := s.withRequest (.home b)) hc
    rw [withRequest_sq, railClosed_withRequest, startHoming_withRequest] at hchecks
    refine ⟨fun hstop => ?_, fun hstop hrail => ?_, fun hstop hrail hun hidle => ?_,
      fun hidle hrail hload => ?_, fun hrail hready hease => ?_⟩
    · rw [if_pos hstop] at hchecks
      exact home_refuses hs (i := 0) hchecks
    · rw [if_neg hstop, if_pos ((railClosed_iff s).2 hrail)] at hchecks
      exact home_refuses hs (i := 0) hchecks
    · rw [if_neg hstop, if_neg (mt (railClosed_iff s).1 hrail), if_pos ⟨hun, hidle⟩] at hchecks
      exact home_refuses hs (i := 0) hchecks
    · rw [if_neg (by rw [hidle]; exact CarState.noConfusion),
        if_neg (mt (railClosed_iff s).1 hrail), if_neg fun e => e.2 hidle,
        if_pos ⟨hidle, Option.isSome_iff_ne_none.2 hload⟩] at hchecks
      exact home_refuses hs (i := 0) hchecks
    · obtain ⟨-, hclaims, hquiet⟩ := (atEase_iff s).1 hease
      have hother := (noChoosers_iff s).1 hquiet (other c)
      have hne : (s.sq c).state ≠ .stopped ∧ (s.sq c).state ≠ .homing := by
        rcases hready with h | ⟨h, -⟩ <;> rw [h] <;> exact ⟨CarState.noConfusion, CarState.noConfusion⟩
      have hstart : ¬((s.sq c).state ≠ .unreferenced ∧ (s.sq c).state ≠ .idle) := by
        rcases hready with h | ⟨h, -⟩
        · exact fun e => e.1 h
        · exact fun e => e.2 h
      have hempty : ¬((s.sq c).state = .idle ∧ (s.sq c).load.isSome = true) := by
        rintro ⟨hidle, hload⟩
        rcases hready with h | ⟨-, h⟩
        · exact CarState.noConfusion (h.symm.trans hidle)
        · exact Option.isSome_iff_ne_none.1 hload h
      rw [if_neg hne.1, if_neg (mt (railClosed_iff s).1 hrail), if_neg hstart, if_neg hempty] at hchecks
      have haccepts := accepts_of_examOnly (q := .home b) hs rfl hchecks
        (startHoming_examOnly hother) hclaims
      rwa [startHoming_eq hother hne.2] at haccepts

/-! ### RESUME -/

theorem lostOf_above {f : Byte} (h : 1 < f.toNat) : lostOf f = none := by
  unfold lostOf
  split
  iterate 2 omega
  rfl

theorem exists_lost {f : Byte} (h : f.toNat ≤ 1) : ∃ lost, lostOf f = some lost := by
  have hcases : f.toNat = 0 ∨ f.toNat = 1 := by omega
  rcases hcases with h | h <;> rw [lostOf, h] <;> exact ⟨_, rfl⟩

/-- RESUME is under way: the load is disposed of, the carriage's alarms are cleared, CLEAR is sent
(R133). -/
def State.startResume (s : State) (c : Carriage) (lost : Bool) : State :=
  (((s.dispose c lost).clearEvents (carriageAlarm c)).modSeq c fun q =>
    { q with resumePending := true }).sendClear c

@[simp] theorem dispose_withRequest (s : State) (q : Request) (c lost) :
    (s.withRequest q).dispose c lost = (s.dispose c lost).withRequest q := by
  simp only [State.dispose, withRequest_sq, modSeq_withRequest, modCounters_withRequest]
  cases (s.sq c).load with
  | none => rfl
  | some l => cases lost <;> rfl

@[simp] theorem startResume_withRequest (s : State) (q : Request) (c lost) :
    (s.withRequest q).startResume c lost = (s.startResume c lost).withRequest q := by
  simp only [State.startResume, dispose_withRequest, clearEvents_withRequest, modSeq_withRequest,
    sendClear_withRequest]

theorem Unmoved.startsResume (s : State) (c : Carriage) (lost : Bool) :
    Unmoved s (s.startResume c lost) := by
  have hdisposed : Unmoved s (s.dispose c lost) := by
    unfold State.dispose
    split
    · exact .refl s
    · split
      · exact ((Unmoved.refl s).modSeq c _ fun _ => by rfl).modCounters _
      · exact (Unmoved.refl s).modSeq c _ fun _ => by rfl
  have hcleared : Unmoved s ((s.dispose c lost).clearEvents (carriageAlarm c)) :=
    ⟨hdisposed.1, hdisposed.2, hdisposed.3, hdisposed.4⟩
  rw [State.startResume, sendClear_eq]
  exact (hcleared.modSeq c _ fun _ => by rfl).modPort c _

theorem doResume_eq {s : State} {b f : Byte} {c : Carriage} {lost : Bool} (h : names b c)
    (hf : lostOf f = some lost) :
    s.doResume b f = if (s.sq c).state ≠ .faulted ∨ (s.pt c).stopping = true
        ∨ (s.sq c).resumePending = true then (s, .refuse .notNow 0)
      else (s.startResume c lost, .ok) := by
  simp only [State.doResume, carriageOf_names h, hf]
  rfl

theorem resume_refuses {s : State} {b f : Byte} (hs : s.takesAtOnce = true) {why : Reason} {i : Nat}
    (hbad : (s.withRequest (.resume b f)).doResume b f = (s.withRequest (.resume b f), .refuse why i)) :
    refuses (.resume b f) s 19 (reasonCode why) (byte i) :=
  refuses_of_handle (q := .resume b f) hs rfl hbad

theorem resume_accepts {s : State} {b f : Byte} {c : Carriage} {lost : Bool} (hs : s.takesAtOnce = true)
    (h : names b c) (hf : lostOf f = some lost)
    (hno : ¬((s.sq c).state ≠ .faulted ∨ (s.pt c).stopping = true
      ∨ (s.sq c).resumePending = true)) :
    accepts (.resume b f) s (s.startResume c lost) 19 [] := by
  have hchecks := doResume_eq (s := s.withRequest (.resume b f)) h hf
  rw [withRequest_sq, withRequest_pt, if_neg hno, startResume_withRequest] at hchecks
  exact accepts_of_unmoved (q := .resume b f) hs rfl hchecks (.startsResume s c lost)

/-- What RESUME leaves, by the load and the count of lost pieces it leaves (R133). -/
def State.resumed (s : State) (c : Carriage) (load : Option Load) (lost : Nat) : State := { s with
  seq := s.seq.set c { s.sq c with load := load, resumePending := true }
  port := s.port.set c { s.pt c with sent := sentTo (s.pt c) .clear, clearPending := true }
  counters := { s.counters with lost := lost }
  events := { s.events with
    entries := s.events.entries.filter fun e =>
      !(e.source = .carriage c && (e.kind = .zoneConflict || e.kind = .gripLoss
        || e.kind = .driveFault)) } }

section
variable {s : State} {c : Carriage}

theorem startResume_empty (lost : Bool) (h : (s.sq c).load = none) :
    s.startResume c lost = s.resumed c none s.counters.lost := by
  have hdispose : s.dispose c lost = s := by rw [State.dispose, h]
  rw [State.startResume, hdispose, sendClear_eq, State.resumed, ← h]
  rfl

theorem startResume_kept {l : Load} (h : (s.sq c).load = some l) :
    s.startResume c false = s.resumed c (some { l with sure := true }) s.counters.lost := by
  have hdispose : s.dispose c false = s.modSeq c fun q => { q with load := some { l with sure := true } } := by
    rw [State.dispose, h]
    rfl
  rw [State.startResume, hdispose, sendClear_eq]
  simp only [State.resumed, State.modSeq, State.clearEvents, State.modPort, State.sq, State.pt,
    get_set_self, set_set]
  rfl

theorem startResume_lost {l : Load} (h : (s.sq c).load = some l) :
    s.startResume c true = s.resumed c none (min (s.counters.lost + 1) 1099511627775) := by
  have hdispose : s.dispose c true = (s.modSeq c fun q => { q with load := none }).modCounters fun k =>
      { k with lost := countUp k.lost 1 } := by
    rw [State.dispose, h]
    rfl
  rw [State.startResume, hdispose, sendClear_eq]
  simp only [State.resumed, State.modSeq, State.clearEvents, State.modPort, State.modCounters, State.sq,
    State.pt, get_set_self, set_set]
  rfl

end

/-- Settles O36: the checks of RESUME, and the load it disposes of. -/
theorem resumeSendsClear : Obligations.ResumeSendsClear := by
  intro s b f hs
  refine ⟨fun hb => ?_, fun hb hf => ?_, fun c hc => ⟨fun hf hno => ?_, fun hf hno hload => ?_,
    fun l hf hno hload => ?_, fun l hf hno hload => ?_⟩⟩
  · refine resume_refuses hs (why := .badValue) (i := 1) ?_
    simp only [State.doResume, carriageOf_above hb]
    rfl
  · obtain ⟨c, hc⟩ := exists_names hb
    refine resume_refuses hs (why := .badValue) (i := 2) ?_
    simp only [State.doResume, carriageOf_names hc, lostOf_above hf]
    rfl
  · obtain ⟨lost, hlost⟩ := exists_lost hf
    have hchecks := doResume_eq (s := s.withRequest (.resume b f)) hc hlost
    rw [withRequest_sq, withRequest_pt, if_pos hno] at hchecks
    exact resume_refuses hs (i := 0) hchecks
  · obtain ⟨lost, hlost⟩ := exists_lost hf
    have haccepts := resume_accepts hs hc hlost hno
    rw [startResume_empty lost hload] at haccepts
    exact haccepts
  · subst hf
    have haccepts := resume_accepts (f := 0) hs hc rfl hno
    rw [startResume_kept hload] at haccepts
    exact haccepts
  · subst hf
    have haccepts := resume_accepts (f := 1) hs hc rfl hno
    rw [startResume_lost hload] at haccepts
    exact haccepts

end Sys2Proof.Machine
end

section
/-! The saw links, the timers of a saw and the lines READY and CUT DONE (O51, O52, O54). -/

namespace Sys2Proof.Machine

/-! ### Steps of the outside that leave nothing to decide -/

theorem quiet_iff (s : State) :
    s.quiet = true ↔ s.rested = true ∧ s.noClaims = true ∧ s.noChoosers = true := by
  rw [State.quiet, Bool.and_eq_true, Bool.and_eq_true, and_assoc]

/-- An effect that moves no carriage ends its step, when no notice was left over. -/
theorem Unmoved.settles {s u : State} (h : Unmoved s u) (hs : s.rested = true) : u.settle = u :=
  settle_rested u (h.rested hs)

/-- The same, with the state the effect comes to. -/
theorem Unmoved.next_settle {s u t : State} (h : Unmoved s t) (hs : s.rested = true) (hu : u = t) :
    (.next u.settle : Result) = .next t := by
  rw [hu, h.settles hs]

/-- Two changes of one saw station are one. -/
theorem modSaw_modSaw (s : State) (w : Saw) (f g : SawStation → SawStation) :
    (s.modSaw w f).modSaw w g = s.modSaw w fun x => g (f x) := by
  simp only [State.modSaw, Fin.getElem_fin, Vector.getElem_set_self, Vector.set_set]

/-! ### Fallback -/

/-- A fallback acts in BOOK mode in CLOSED, OPEN and CUTTING (R155). -/
def SawStation.takesFallback (x : SawStation) : Prop :=
  x.mode = .book ∧ (x.state = .closed ∨ x.state = .opened ∨ x.state = .cutting)

theorem takeFallback_none {s : State} {w : Saw} (h : ¬s.saws[w].takesFallback) :
    s.takeFallback w = s := by
  unfold State.takeFallback
  split
  · next hmode =>
    have hstate := not_and.1 h hmode
    rw [not_or, not_or] at hstate
    obtain ⟨hclosed, hopened, hcutting⟩ := hstate
    split
    · next e => exact absurd e hcutting
    · next e => exact absurd e hclosed
    · next e => exact absurd e hopened
    · rfl
  · rfl

theorem fallbackCause_eq (x : SawStation) : ((x.fallbackCause : Nat) : Int) = shownCause x := by
  unfold SawStation.fallbackCause shownCause
  split <;> rfl

section
variable {s : State} {w : Saw}

/-- The fallback of a book that stands on an infeed or is to come to it. -/
theorem fallback_uncut (hs : s.noChoosers = true) (hcut : s.saws[w].state ≠ .cutting) :
    (if s.bookCount w = 0 then s.fallbackEmpty w
      else (s.raiseFallback w).enterInfeedBlocked w .strandedBook)
      = fallenBack s w (shownCause s.saws[w]) := by
  unfold fallenBack
  dsimp only
  rw [if_neg hcut, ite_not, fallbackEmpty_eq hs, enterInfeedBlocked_eq, State.raiseFallback, fallbackCause_eq]

theorem takeFallback_eq (hs : s.noChoosers = true) (h : s.saws[w].takesFallback) :
    s.takeFallback w = fallenBack s w (shownCause s.saws[w]) := by
  obtain ⟨hmode, hstate⟩ := h
  rw [State.takeFallback, if_pos hmode]
  rcases hstate with hstate | hstate | hstate
  · rw [hstate]
    exact fallback_uncut hs (by rw [hstate]; exact InfeedState.noConfusion)
  · rw [hstate]
    exact fallback_uncut hs (by rw [hstate]; exact InfeedState.noConfusion)
  · unfold fallenBack
    dsimp only
    rw [hstate, if_pos rfl, State.raiseFallback, fallbackCause_eq]

theorem Unmoved.fallen {s u : State} (h : Unmoved s u) (w cause) :
    Unmoved s (fallenBack u w cause) := by
  have hwarned := h.raise .sawFallback (.saw w) cause
  unfold fallenBack
  dsimp only
  split
  · exact hwarned.modSaw _ _
  · split
    · exact hwarned.blocksInfeed _ _
    · exact h.fallsBack _ _

end

/-! ### Saw links -/

/-- The link fields of a saw whose record is taken (R155). -/
def State.heardWith (s : State) (w : Saw) (st : SawStatus) : State :=
  s.modSaw w fun y => { y with status := st, silence := ⟨true, 2000⟩, silent := false }

/-- The link fields of a saw that has fallen silent (R155). -/
def State.fellSilent (s : State) (w : Saw) : State :=
  s.modSaw w fun y => { y with silence := ⟨false, 0⟩, silent := true }

section
variable {s : State} {w : Saw}

theorem takeStatus_eq (s : State) (w : Saw) (status : SawReport) :
    s.takeStatus w status = if status = .manual ∧ s.saws[w].status = .auto
      then (s.heardWith w (reportedStatus status)).takeFallback w
      else s.heardWith w (reportedStatus status) := by
  have hheard : (s.linkHeard w).modSaw w (fun x => { x with status := reportedStatus status })
      = s.heardWith w (reportedStatus status) := modSaw_modSaw s w _ _
  rw [State.takeStatus, hheard]

theorem takesFallback_congr {x y : SawStation} (hmode : x.mode = y.mode)
    (hstate : x.state = y.state) : x.takesFallback ↔ y.takesFallback := by
  rw [SawStation.takesFallback, SawStation.takesFallback, hmode, hstate]

theorem heardWith_takesFallback (s : State) (w : Saw) (st : SawStatus) :
    (s.heardWith w st).saws[w].takesFallback ↔ s.saws[w].takesFallback := by
  rw [State.heardWith, saws_modSaw_self]
  exact takesFallback_congr rfl rfl

theorem fellSilent_takesFallback (s : State) (w : Saw) :
    (s.fellSilent w).saws[w].takesFallback ↔ s.saws[w].takesFallback := by
  rw [State.fellSilent, saws_modSaw_self]
  exact takesFallback_congr rfl rfl

/-- A MANUAL record of a saw that was AUTO takes a fallback with cause 0 (R155, R156). -/
theorem takeStatus_fallsBack (hs : s.noChoosers = true) (hauto : s.saws[w].status = .auto)
    (h : s.saws[w].takesFallback) :
    s.takeStatus w .manual = fallenBack (s.heardWith w .manual) w 0 := by
  have hmoved : Unmoved s (s.heardWith w .manual) := (Unmoved.refl s).modSaw _ _
  have hcause : shownCause (s.heardWith w .manual).saws[w] = 0 := by
    rw [State.heardWith, saws_modSaw_self]
    rfl
  have hfall := takeFallback_eq (hmoved.noChoosers hs) ((heardWith_takesFallback s w .manual).2 h)
  rw [takeStatus_eq, if_pos ⟨rfl, hauto⟩]
  rw [hcause] at hfall
  exact hfall

theorem takeStatus_heard (h : ¬(s.saws[w].status = .auto ∧ s.saws[w].takesFallback)) :
    s.takeStatus w .manual = s.heardWith w .manual := by
  rw [takeStatus_eq]
  split
  · next hauto =>
    exact takeFallback_none fun k => h ⟨hauto.2, (heardWith_takesFallback s w .manual).1 k⟩
  · rfl

theorem linkSilent_running (hrun : s.saws[w].silence.running = true) :
    s.linkSilent w = if s.saws[w].status = .auto then (s.fellSilent w).takeFallback w
      else s.fellSilent w := by
  rw [State.linkSilent, if_pos hrun]
  rfl

/-- The silence of a saw that is AUTO takes a fallback with cause 1 (R155, R156). -/
theorem linkSilent_fallsBack (hs : s.noChoosers = true) (hrun : s.saws[w].silence.running = true)
    (hauto : s.saws[w].status = .auto) (h : s.saws[w].takesFallback) :
    s.linkSilent w = fallenBack (s.fellSilent w) w 1 := by
  have hmoved : Unmoved s (s.fellSilent w) := (Unmoved.refl s).modSaw _ _
  have hcause : shownCause (s.fellSilent w).saws[w] = 1 := by
    rw [State.fellSilent, saws_modSaw_self]
    exact if_pos hauto
  have hfall := takeFallback_eq (hmoved.noChoosers hs) ((fellSilent_takesFallback s w).2 h)
  rw [linkSilent_running hrun, if_pos hauto]
  rw [hcause] at hfall
  exact hfall

theorem linkSilent_silent (hrun : s.saws[w].silence.running = true)
    (h : ¬(s.saws[w].status = .auto ∧ s.saws[w].takesFallback)) :
    s.linkSilent w = s.fellSilent w := by
  rw [linkSilent_running hrun]
  split
  · next hauto =>
    exact takeFallback_none fun k => h ⟨hauto, (fellSilent_takesFallback s w).1 k⟩
  · rfl

end

/-- Settles O51: the link fields, and the fallback of a saw that was AUTO in a state that takes it. -/
theorem sawLinkHeard : Obligations.SawLinkHeard := by
  intro s w hquiet
  obtain ⟨hrested, -, hs⟩ := (quiet_iff s).1 hquiet
  have hheard : ∀ st, Unmoved s (s.heardWith w st) := fun st => (Unmoved.refl s).modSaw _ _
  have hsilent : Unmoved s (s.fellSilent w) := (Unmoved.refl s).modSaw _ _
  refine ⟨?_, fun h => ?_, fun hauto h => ?_, fun hrun => ?_, fun hrun h => ?_,
    fun hrun hauto h => ?_⟩
  · refine (hheard .auto).next_settle hrested ?_
    rw [takeStatus_eq, if_neg fun e => SawReport.noConfusion e.1]
    rfl
  · exact (hheard .manual).next_settle hrested (takeStatus_heard h)
  · exact ((hheard .manual).fallen w 0).next_settle hrested (takeStatus_fallsBack hs hauto h)
  · refine (Unmoved.refl s).next_settle hrested ?_
    rw [State.linkSilent, if_neg (by rw [hrun]; exact Bool.false_ne_true)]
  · exact hsilent.next_settle hrested (linkSilent_silent hrun h)
  · exact (hsilent.fallen w 1).next_settle hrested (linkSilent_fallsBack hs hrun hauto h)

/-! ### Remnants -/

theorem remnantWellFormed_iff (m t : Nat) (size : Option SizeClass) :
    remnantWellFormed m t size = true
      ↔ 1 ≤ m ∧ m ≤ 4095 ∧ 30 ≤ t ∧ t ≤ 600 ∧ size ≠ none := by
  simp only [remnantWellFormed, Bool.and_eq_true, decide_eq_true_eq, Option.isSome_iff_ne_none,
    and_assoc]

/-- A single piece is laid on a run list as a run of one (R32). -/
theorem addPiece_eq (x : Piece) (runs : List Run) : addPiece x runs = layRuns [⟨x, some 1⟩] runs := by
  change addPiece x runs = addRun ⟨x, some 1⟩ runs
  cases runs with
  | nil => rfl
  | cons r rest =>
    by_cases h : r.piece = x
    · rw [addRun_same (r := ⟨x, some 1⟩) rest h, addPiece, if_pos h]
      cases r.count with
      | none => rfl
      | some n => simp only [Option.map_some, Nat.add_comm]
    · rw [addRun_other (r := ⟨x, some 1⟩) rest h, addPiece, if_neg h]

theorem stateAfterAdd_eq (st : StackState) :
    stateAfterAdd st = if st = .empty then .ready else st := by
  cases st <;> rfl

theorem fedProfile_eq (m : Nat) (l : List (Nat × Profile)) :
    fedProfile m l = ((l.find? fun f => f.1 = m).map (·.2)).getD 0 := by
  unfold fedProfile
  cases l.find? fun f => f.1 = m <;> rfl

theorem addTo_eq {s : State} {p : Place} {r : StackRec} (hr : s.stackRecs[p] = some r) (x : Piece) :
    s.addTo p x = s.setStack p (if r.state = .empty then .ready else r.state)
      (layRuns [⟨x, some 1⟩] r.runs) := by
  rw [State.addTo, stackState_eq hr, Option.getD_some, runsAt_eq hr, stateAfterAdd_eq, addPiece_eq]

theorem overrunInfeed_blocks {s : State} {w : Saw} (hundefined : s.saws[w].state ≠ .undefined)
    (hcutting : s.saws[w].state ≠ .cutting) : s.overrunInfeed w = blocks s w .overrun := by
  unfold State.overrunInfeed
  split
  · exact enterInfeedBlocked_eq s w .overrun
  · exact enterInfeedBlocked_eq s w .overrun
  · exact enterInfeedBlocked_eq s w .overrun
  · next hclosed hopened hblocked =>
    cases hstate : s.saws[w].state with
    | undefined => exact absurd hstate hundefined
    | closed => exact absurd hstate hclosed
    | opened => exact absurd hstate hopened
    | cutting => exact absurd hstate hcutting
    | blocked r => exact absurd hstate (hblocked r)

theorem overrunInfeed_none {s : State} {w : Saw}
    (h : s.saws[w].state = .undefined ∨ s.saws[w].state = .cutting) : s.overrunInfeed w = s := by
  rcases h with h | h <;> rw [State.overrunInfeed, h]

/-- A remnant that is not recorded is counted (R163). -/
def State.remnantCounted (s : State) (w : Saw) : State :=
  s.modSaw w fun y => { y with overrunCount := min (y.overrunCount + 1) 255 }

/-- The overrun of a full return table, before it acts on the infeed (R164). -/
def State.overrunFlagged (s : State) (w : Saw) (m : Nat) : State :=
  ((s.remnantCounted w).modSaw w fun y => { y with overrun := true, permitHold := true }).raise
    .returnOverrun (.saw w) m

theorem returnOverrun_eq (s : State) (w : Saw) (m : Nat) :
    s.returnOverrun w m = ((s.overrunFlagged w m).overrunInfeed w).handPermit w true := by
  have hflagged : (s.modSaw w fun x => { x with overrun := true, permitHold := true }).countOverrun w
      = (s.remnantCounted w).modSaw w fun y => { y with overrun := true, permitHold := true } := by
    rw [State.countOverrun, State.remnantCounted, modSaw_modSaw, modSaw_modSaw]
    rfl
  rw [State.returnOverrun, hflagged]
  rfl

theorem overrunFlagged_state (s : State) (w : Saw) (m : Nat) :
    (s.overrunFlagged w m).saws[w].state = s.saws[w].state := by
  rw [State.overrunFlagged, raise_saws, saws_modSaw_self, State.remnantCounted, saws_modSaw_self]

theorem Unmoved.overrunFlags {s u : State} (h : Unmoved s u) (w m) :
    Unmoved s (u.overrunFlagged w m) :=
  ((h.modSaw w _).modSaw w _).raise _ _ _

/-- Settles O52: the outcomes of a REMNANT record by its return table. -/
theorem remnantTaken : Obligations.RemnantTaken := by
  intro s w m t size hquiet
  obtain ⟨hrested, -, hs⟩ := (quiet_iff s).1 hquiet
  have hheard : Unmoved s (s.linkHeard w) := (Unmoved.refl s).modSaw w _
  have hlink : (s.linkHeard w).saws[w] = { s.saws[w] with
      silence := ⟨true, 2000⟩, silent := false } := saws_modSaw_self s w _
  have hoverrun : (s.linkHeard w).saws[w].overrun = s.saws[w].overrun := by rw [hlink]
  have hfed : (s.linkHeard w).saws[w].lastFed = s.saws[w].lastFed := by rw [hlink]
  have hstate : (s.linkHeard w).saws[w].state = s.saws[w].state := by rw [hlink]
  have hcounted : Unmoved s ((s.linkHeard w).remnantCounted w) := hheard.modSaw w _
  have hexec : (1 ≤ m ∧ m ≤ 4095 ∧ 30 ≤ t ∧ t ≤ 600 ∧ size ≠ none) →
      exec (.remnantRecord w m t size) s = .next ((s.linkHeard w).takeRemnant w m t size).settle :=
    fun good => if_pos ((remnantWellFormed_iff m t size).2 good)
  have htable : (s.linkHeard w).returnPlace w = s.returnPlace w := rfl
  refine ⟨fun bad => if_neg (mt (remnantWellFormed_iff m t size).1 bad), fun good hp => ?_,
    fun p good hp hover => ?_, fun p good hp hover hfull => ?_, fun p r good hp hover hr hroom => ?_⟩
  · refine (hexec good).trans
      ((hcounted.raise .returnOverrun (.saw w) m).next_settle hrested ?_)
    rw [State.takeRemnant, htable, hp]
    rfl
  · refine (hexec good).trans (hcounted.next_settle hrested ?_)
    rw [State.takeRemnant, htable, hp, hoverrun]
    exact if_pos hover
  · have htake : (s.linkHeard w).takeRemnant w m t size
        = (((s.linkHeard w).overrunFlagged w m).overrunInfeed w).handPermit w true := by
      rw [State.takeRemnant, htable, hp, hoverrun]
      dsimp only
      rw [if_neg (by rw [hover]; exact Bool.false_ne_true), ← returnOverrun_eq]
      exact if_pos hfull
    have hflags := (overrunFlagged_state (s.linkHeard w) w m).trans hstate
    refine ⟨fun hnone => ?_, fun hundefined hcutting => ?_⟩
    · refine (hexec good).trans (((hheard.overrunFlags w m).handPermit w true).next_settle hrested ?_)
      rw [htake, overrunInfeed_none (by rw [hflags]; exact hnone)]
    · refine (hexec good).trans
        ((((hheard.overrunFlags w m).blocksInfeed w .overrun).handPermit w true).next_settle
          hrested ?_)
      rw [htake, overrunInfeed_blocks (by rw [hflags]; exact hundefined)
        (by rw [hflags]; exact hcutting)]
  · refine (hexec good).trans
      (((hheard.modCounters _).setStack hs p _ _).next_settle hrested ?_)
    have hruns : knownCount ((s.linkHeard w).runsAt p) = knownCount r.runs :=
      congrArg knownCount (runsAt_eq hr)
    rw [State.takeRemnant, htable, hp, hoverrun]
    dsimp only
    rw [if_neg (by rw [hover]; exact Bool.false_ne_true), hruns]
    refine (if_neg (c := Config.returnLimit ≤ knownCount r.runs) hroom.not_ge).trans ?_
    rw [State.intake, hfed, fedProfile_eq]
    exact addTo_eq (s := (s.linkHeard w).modCounters fun k =>
      { k with returned := countUp k.returned 1 }) hr _

/-! ### READY -/

theorem resumeBookTimer_eq {s u : State} (h : SameStacks s u) (w : Saw) :
    u.resumeBookTimer w = if u.saws[w].mode = .book ∧ 1 ≤ s.bookCount w ∧ 0 < u.saws[w].timeout
      then u.modSaw w fun x => { x with bookTimer := { x.bookTimer with running := true } }
      else u := by
  rw [State.resumeBookTimer, bookCount_congr h.1 h.2]

section
variable {s : State} {w : Saw}

/-- The line READY of a saw is up. -/
def State.readied (s : State) (w : Saw) : State := s.modSaw w fun y => { y with ready := true }

/-- The line READY of a saw is down. -/
def State.unreadied (s : State) (w : Saw) : State := s.modSaw w fun y => { y with ready := false }

/-- READY opens a CLOSED infeed, and the timer of its book runs on (R149). -/
theorem readyUp_closed (hs : s.noChoosers = true) (hclosed : s.saws[w].state = .closed) :
    s.readyUp w = if s.saws[w].mode = .book ∧ 1 ≤ s.bookCount w ∧ 0 < s.saws[w].timeout
      then (opens (s.readied w) w).modSaw w fun y => { y with bookTimer := ⟨true, y.bookTimer.ms⟩ }
      else opens (s.readied w) w := by
  have hup : (s.readied w).noChoosers = true := ((Unmoved.refl s).modSaw w _).noChoosers hs
  have hstacks : SameStacks s (opens (s.readied w) w) := SameStacks.trans ⟨rfl, rfl⟩
    (sameStacks_opens (s.readied w) w)
  have hsaw : (opens (s.readied w) w).saws[w] = { s.saws[w] with
      ready := true, state := .opened, cutGo := false } := by
    rw [opens_saws, State.readied, saws_modSaw_self]
  have hready : s.readyUp w = ((s.readied w).enterOpen w).resumeBookTimer w := if_pos hclosed
  rw [hready, enterOpen_eq hup, resumeBookTimer_eq hstacks, hsaw]

/-- An infeed that READY leaves is CLOSED, its book timer stopped (R149). -/
def State.shut (s : State) (w : Saw) : State := s.modSaw w fun y => { y with
  state := .closed, cutGo := false, bookTimer := ⟨false, y.bookTimer.ms⟩ }

/-- The pieces of an infeed place leave as cut (R33). -/
def State.cutAway (s : State) (p : Place) (n : Nat) : State :=
  (s.modCounters fun k => { k with cut := min (k.cut + n) 1099511627775 }).setStack p .empty []

theorem cutInfeed_eq {p : Place} (hp : s.infeedPlace w = some p) :
    s.cutInfeed w = s.cutAway p (s.bookCount w) := by
  rw [State.cutInfeed, hp]
  rfl

theorem Unmoved.cutsAway {u : State} (h : Unmoved s u) (hs : s.noChoosers = true) (p n) :
    Unmoved s (u.cutAway p n) :=
  (h.modCounters _).setStack hs p _ _

theorem readyDown_opened (hopened : s.saws[w].state = .opened) :
    s.readyDown w = if s.saws[w].mode = .basic ∧ s.saws[w].basicTaken = true
      then ((s.unreadied w).basicRelease w).shut w else (s.unreadied w).shut w := by
  have hsaw : (s.unreadied w).saws[w] = { s.saws[w] with ready := false } := saws_modSaw_self s w _
  have hdown : s.readyDown w = (s.unreadied w).closeInfeed w := if_pos hopened
  rw [hdown, State.closeInfeed, hsaw]
  dsimp only
  split <;> rfl

/-- The panel taken in BASIC mode leaves with READY (R154). -/
theorem basicRelease_shut {p : Place} (hp : s.infeedPlace w = some p) :
    (s.basicRelease w).shut w
      = ((s.cutAway p (s.bookCount w)).shut w).modSaw w fun y => { y with basicTaken := false } := by
  rw [State.basicRelease, cutInfeed_eq hp, State.shut, State.shut, modSaw_modSaw, modSaw_modSaw]

/-! ### CUT DONE -/

/-- The line CUT DONE of a saw is up. -/
def State.cutSignalled (s : State) (w : Saw) : State := s.modSaw w fun y => { y with cutDone := true }

/-- The book of a saw is cut, before the infeed takes its next state (R153). -/
def State.bookCutAway (s : State) (w : Saw) (p : Place) : State :=
  (((s.cutSignalled w).cutAway p (s.bookCount w)).modSaw w fun y =>
    { y with cutGo := false, bookTimer := ⟨false, 0⟩ }).raise .cutReleased (.saw w) (s.bookCount w)

theorem cutDoneUp_cuts {p : Place} (hcut : s.saws[w].state = .cutting ∧ s.saws[w].mode = .book)
    (hp : s.infeedPlace w = some p) : s.cutDoneUp w = (s.bookCutAway w p).afterCut w := by
  have hinfeed : (s.cutSignalled w).cutInfeed w = (s.cutSignalled w).cutAway p (s.bookCount w) :=
    cutInfeed_eq (s := s.cutSignalled w) hp
  have hcuts : s.cutDoneUp w = (s.cutSignalled w).bookCut w := if_pos hcut
  rw [hcuts, State.bookCut, hinfeed]
  rfl

variable (hs : s.noChoosers = true)
include hs

theorem Unmoved.bookCutsAway (w p) : Unmoved s (s.bookCutAway w p) :=
  ((((Unmoved.refl s).modSaw w _).cutsAway hs p _).modSaw w _).raise _ _ _

/-- Of the saw station, a cut book leaves the other fields as they were. -/
theorem bookCutAway_saws (w p) : ∃ hold, (s.bookCutAway w p).saws[w] = { s.saws[w] with
    cutDone := true, permitHold := hold, cutGo := false, bookTimer := ⟨false, 0⟩ } := by
  have hline : ((s.cutSignalled w).modCounters fun k => { k with
      cut := min (k.cut + s.bookCount w) 1099511627775 }).noChoosers = true :=
    (((Unmoved.refl s).modSaw w _).modCounters _).noChoosers hs
  obtain ⟨hold, hsaw⟩ := sawsButHold_setStack hline p .empty [] w
  have hsignalled : (s.cutSignalled w).saws[w] = { s.saws[w] with cutDone := true } :=
    saws_modSaw_self s w _
  have hemptied : ((s.cutSignalled w).cutAway p (s.bookCount w)).saws[w]
      = { s.saws[w] with cutDone := true, permitHold := hold } :=
    hsaw.trans (congrArg (fun x : SawStation => { x with permitHold := hold }) hsignalled)
  exact ⟨hold, by rw [State.bookCutAway, raise_saws, saws_modSaw_self, hemptied]⟩

theorem afterCut_overrun {p : Place} (hover : s.saws[w].overrun = true) :
    (s.bookCutAway w p).afterCut w = blocks (s.bookCutAway w p) w .overrun := by
  obtain ⟨hold, hsaw⟩ := bookCutAway_saws hs w p
  rw [State.afterCut, hsaw, if_pos hover, enterInfeedBlocked_eq]

theorem afterCut_fallsBack {p : Place} (hover : s.saws[w].overrun = false)
    (hpending : s.saws[w].fallbackPending = true) :
    (s.bookCutAway w p).afterCut w = emptyFallback ((s.bookCutAway w p).modSaw w fun y =>
      { y with fallbackPending := false }) w (shownCause s.saws[w]) := by
  obtain ⟨hold, hsaw⟩ := bookCutAway_saws hs w p
  have hmoved := (Unmoved.bookCutsAway hs w p).modSaw w fun y => { y with fallbackPending := false }
  have hcause : shownCause ((s.bookCutAway w p).modSaw w fun y =>
      { y with fallbackPending := false }).saws[w] = shownCause s.saws[w] := by
    rw [saws_modSaw_self, hsaw]
    rfl
  rw [State.afterCut, hsaw, if_neg (by rw [hover]; exact Bool.false_ne_true), if_pos hpending,
    fallbackEmpty_eq (hmoved.noChoosers hs), hcause]

theorem afterCut_follows {p : Place} (hover : s.saws[w].overrun = false)
    (hpending : s.saws[w].fallbackPending = false) :
    (s.bookCutAway w p).afterCut w = (s.bookCutAway w p).followReady w := by
  obtain ⟨hold, hsaw⟩ := bookCutAway_saws hs w p
  rw [State.afterCut, hsaw, if_neg (by rw [hover]; exact Bool.false_ne_true),
    if_neg (by rw [hpending]; exact Bool.false_ne_true)]

theorem bookCutAway_opens {p : Place} (hcut : s.saws[w].state = .cutting)
    (hready : s.saws[w].ready = true) :
    (s.bookCutAway w p).followReady w = opens (s.bookCutAway w p) w := by
  obtain ⟨hold, hsaw⟩ := bookCutAway_saws hs w p
  refine followReady_ready ((Unmoved.bookCutsAway hs w p).noChoosers hs) ?_ ?_
  · rw [hsaw, hcut]
    exact InfeedState.noConfusion
  · rw [hsaw, hready]

theorem bookCutAway_closes {p : Place} (hready : s.saws[w].ready = false) :
    (s.bookCutAway w p).followReady w
      = (s.bookCutAway w p).modSaw w fun y => { y with state := .closed } := by
  obtain ⟨hold, hsaw⟩ := bookCutAway_saws hs w p
  rw [followReady_closes (by rw [hsaw, hready])]
  exact modSaw_congr (by rw [hsaw])

end

/-- Settles O54: the lines READY and CUT DONE of a saw. -/
theorem sawLinesFollow : Obligations.SawLinesFollow := by
  intro s w hquiet
  obtain ⟨hrested, -, hs⟩ := (quiet_iff s).1 hquiet
  have hup : Unmoved s (s.readied w) := (Unmoved.refl s).modSaw w _
  have hdown : Unmoved s (s.unreadied w) := (Unmoved.refl s).modSaw w _
  have hshut : Unmoved s ((s.unreadied w).shut w) := hdown.modSaw w _
  have hline : Unmoved s (s.cutSignalled w) := (Unmoved.refl s).modSaw w _
  have hopens := hup.opensInfeed w
  refine ⟨fun hclosed => hup.next_settle hrested (if_neg hclosed), fun hclosed hruns => ?_,
    fun hclosed hruns => ?_, fun hopened => hdown.next_settle hrested (if_neg hopened),
    fun hopened hbasic => ?_, fun p hopened hmode htaken hp => ?_,
    fun hcut => hline.next_settle hrested (if_neg hcut), fun p hcut hmode hp => ?_, rfl⟩
  · exact hopens.next_settle hrested ((readyUp_closed hs hclosed).trans (if_neg hruns))
  · exact (hopens.modSaw w _).next_settle hrested ((readyUp_closed hs hclosed).trans (if_pos hruns))
  · exact hshut.next_settle hrested ((readyDown_opened hopened).trans (if_neg hbasic))
  · exact (((hdown.cutsAway hs p _).modSaw w _).modSaw w _).next_settle hrested
      (((readyDown_opened hopened).trans (if_pos ⟨hmode, htaken⟩)).trans
        (basicRelease_shut (s := s.unreadied w) hp))
  · have hcutAway := Unmoved.bookCutsAway hs w p
    have hcuts := cutDoneUp_cuts ⟨hcut, hmode⟩ hp
    refine ⟨fun hover => ?_, fun hover hpending => ?_, fun hover hpending hready => ?_,
      fun hover hpending hready => ?_⟩
    · exact (hcutAway.blocksInfeed w .overrun).next_settle hrested
        (hcuts.trans (afterCut_overrun hs hover))
    · exact ((hcutAway.modSaw w _).fallsBack w _).next_settle hrested
        (hcuts.trans (afterCut_fallsBack hs hover hpending))
    · exact (hcutAway.opensInfeed w).next_settle hrested
        (hcuts.trans ((afterCut_follows hs hover hpending).trans (bookCutAway_opens hs hcut hready)))
    · exact (hcutAway.modSaw w _).next_settle hrested
        (hcuts.trans ((afterCut_follows hs hover hpending).trans (bookCutAway_closes hs hready)))

end Sys2Proof.Machine
end

section
/-! The Event Unit apart from the rest of the state; the timers of a saw and of a wait (O53). -/

namespace Sys2Proof.Machine

/-! ### The Event Unit apart from the rest -/

/-- A state with what the Event Unit reads and writes taken from another. -/
def State.reporting (u v : State) : State :=
  { u with link := v.link, events := v.events, free := v.free }

theorem sendReportsN_reporting (n : Nat) (u v : State) :
    State.sendReportsN n (u.reporting v) = u.reporting (State.sendReportsN n v) := by
  induction n generalizing v with
  | zero => rfl
  | succ n ih =>
    have hframes : (u.reporting v).freeFrames = v.freeFrames := rfl
    have hevents : (u.reporting v).events = v.events := rfl
    simp only [State.sendReportsN, hframes, hevents]
    split
    · rfl
    · cases firstInOrder (sendable v.events.gateOpen) v.events.entries with
      | none => rfl
      | some e =>
        exact ih { v.queueFrame ⟨0x90, eventBody (Config.freeHalf v.free 3) e⟩ with
          events := { v.events with entries := markSent e v.events.entries }, free := v.free + 1 }

/-- Raising an event reads and writes the Event Unit and the link alone. -/
theorem raise_reporting (u v : State) (kind src d) :
    (u.reporting v).raise kind src d = u.reporting (v.raise kind src d) := by
  have hevents : (u.reporting v).events = v.events := rfl
  simp only [State.raise, hevents]
  split
  · exact sendReportsN_reporting _ u { v with events := (v.events.raise kind src d).1 }
  · rfl

theorem raise_eq_reporting (s : State) (kind src d) :
    s.raise kind src d = s.reporting (s.raise kind src d) := by
  obtain ⟨l, v, k, heq⟩ := raise_frame s kind src d
  rw [heq]
  rfl

/-- A change of the other records and a raising may be made in either order. -/
theorem raise_comm {f : State → State} (hf : ∀ u v, f (u.reporting v) = (f u).reporting v)
    (s : State) (kind src d) : (f s).raise kind src d = f (s.raise kind src d) := by
  have hself : s = s.reporting s := rfl
  calc (f s).raise kind src d = ((f s).reporting s).raise kind src d := by rw [← hf, ← hself]
    _ = (f s).reporting (s.raise kind src d) := raise_reporting _ _ _ _ _
    _ = f (s.raise kind src d) := by rw [← hf, ← raise_eq_reporting]

theorem raise_dueExam (s : State) (kind src d) :
    s.dueExam.raise kind src d = (s.raise kind src d).dueExam :=
  raise_comm (fun _ _ => rfl) s kind src d

theorem raise_modSeq (s : State) (c f kind src d) :
    (s.modSeq c f).raise kind src d = (s.raise kind src d).modSeq c f :=
  raise_comm (f := fun u => u.modSeq c f) (fun _ _ => rfl) s kind src d

theorem raise_sq (s : State) (kind src d c) : (s.raise kind src d).sq c = s.sq c := by
  rw [raise_eq_reporting]
  rfl

/-- Two changes of one sequencer are one. -/
theorem modSeq_modSeq (s : State) (c f g) :
    (s.modSeq c f).modSeq c g = s.modSeq c fun q => g (f q) := by
  cases c <;> rfl

theorem modSeq_congr {s : State} {c : Carriage} {f g : Sequencer → Sequencer}
    (h : f (s.sq c) = g (s.sq c)) : s.modSeq c f = s.modSeq c g := by
  unfold State.modSeq
  rw [h]

/-! ### The end of a step with an examination due -/

theorem todo_of_rested {s : State} (h : s.rested = true) : s.todo = Todo.none := by
  simpa [State.rested] using h

/-- The step ends where its effect stands, the examination having nothing to decide. -/
theorem ExamOnly.settles {s u : State} (h : ExamOnly s u) (hs : s.rested = true)
    (hclaims : s.noClaims = true) : u.settle = { u with todo := s.todo } := by
  have htodo := todo_of_rested hs
  rw [htodo]
  refine settle_noClaims u (h.noClaims hclaims) ?_ ?_
  · rw [h.blocked, htodo]
    rfl
  · rw [h.wait, htodo]
    rfl

/-- The same, with the state the effect comes to but for the examination. -/
theorem ExamOnly.next_settle {s u t : State} (h : ExamOnly s u) (hs : s.rested = true)
    (hclaims : s.noClaims = true) (hu : { u with todo := s.todo } = t) :
    (.next u.settle : Result) = .next t := by
  rw [h.settles hs hclaims, hu]

theorem dueExam_undone {s u : State} (h : u.todo = s.todo) : { u.dueExam with todo := s.todo } = u := by
  rw [← h]
  rfl

/-! ### Book timers -/

theorem bookTimer_running {s : State} {w : Saw} (hrun : s.saws[w].bookTimer.running = true) :
    s.bookTimerExpired w
      = (s.modSaw w fun x => { x with bookTimer := ⟨false, 0⟩ }).decideRelease w := if_pos hrun

/-- A book release decided where none is pending, as the book timer expires (R151). -/
theorem bookTimer_decides {s : State} {w : Saw} (hrun : s.saws[w].bookTimer.running = true)
    (hpending : s.saws[w].releasePending = false) :
    s.bookTimerExpired w = s.modSaw w fun y => if s.infeedUser w = none then
        { y with cutGo := true, state := .cutting, bookTimer := ⟨false, 0⟩, releasePending := false }
      else { y with releasePending := true, bookTimer := ⟨false, 0⟩ } := by
  have hstopped : (s.modSaw w fun x => { x with bookTimer := ⟨false, 0⟩ }).saws[w].releasePending
      = false := by rw [saws_modSaw_self, hpending]
  have huser : (s.modSaw w fun x => { x with bookTimer := ⟨false, 0⟩ }).infeedUser w
      = s.infeedUser w := rfl
  rw [bookTimer_running hrun, decideRelease_eq _ _ hstopped, huser, modSaw_modSaw]

/-! ### The expiry of a wait -/

/-- Whether a place can be a destination depends on the map, the stacks, the holdings and the states of
the carriages. -/
theorem divertPlace_congr {s u : State} (hcell : u.cell = s.cell) (hrecs : u.stackRecs = s.stackRecs)
    (harb : u.arb = s.arb) (hstate : ∀ c, (u.sq c).state = (s.sq c).state) (c g x) :
    u.divertPlace c g x = s.divertPlace c g x := by
  have hreach : ∀ p, u.reachable c p = s.reachable c p := fun p => by
    simp only [State.reachable, hstate]
    clear hstate
    cases s
    cases u
    dsimp only at hcell harb
    subst hcell harb
    rfl
  have htake : ∀ p, u.canTake c x p = s.canTake c x p := fun p => by
    rw [State.canTake, State.canTake, hreach]
    clear hstate hreach
    cases s
    cases u
    dsimp only at hcell hrecs
    subst hcell hrecs
    rfl
  have hkind : ∀ p, u.kindAt p = s.kindAt p := fun p => by rw [State.kindAt, hcell]; rfl
  have hdistance : ∀ p, u.distanceTo c p = s.distanceTo c p := fun p => by
    simp only [State.distanceTo, State.placeZone, State.arec, hcell, harb]
  simp only [State.divertPlace, State.nearestBuffer, htake, hkind, hdistance]

theorem releaseDest_none {s : State} {c : Carriage} {w : Work} (hwork : (s.sq c).work = some w)
    (hdest : w.dest = none) : s.releaseDest c = s := by
  simp only [State.releaseDest, hwork, hdest]

section
variable {s : State} {c : Carriage}

theorem waitTimer_running (hrun : (s.sq c).wait.running = true) : s.waitTimerExpired c
    = (s.modSeq c fun q => { q with wait := ⟨false, 0⟩ }).waitOver c := if_pos hrun

/-- The expiry of a wait in a step is noted (R77). -/
theorem waitOver_moving (hstate : (s.sq c).state = .moving) :
    s.waitOver c = s.modSeq c fun q => { q with expired := true } := by
  rw [State.waitOver, hstate]

theorem waitOver_sawWait (hstate : (s.sq c).state = .sawWait) : s.waitOver c = s.actOnExpiry c := by
  rw [State.waitOver, hstate]

/-- The order of the carriage is BLOCKED by the timeout (R57). -/
theorem blockTimedOut_eq (s : State) (c : Carriage) (n : Nat) : s.blockTimedOut c n = { s with
    queue := { s.queue with
      entries := s.queue.entries.map fun e =>
        if e.number = n ∧ e.state = .active c then { e with state := .blocked .infeedTimeout }
        else e } } := by
  simp only [State.blockTimedOut, State.mapOrders, Bool.and_eq_true, decide_eq_true_eq]

/-- With no destination for its load the carriage is BLOCKED with BUFFER FULL (R88). -/
theorem act_blocks {l : Load} (hother : (s.sq (other c)).state.unmoved = true)
    (hhold : (s.sq c).holdPending = false) (hstate : (s.sq c).state ≠ .blocked)
    (hfull : (s.sq c).fullRaised = false) (hload : (s.sq c).load = some l)
    (hnext : (s.sq c).nextAction = .choose) (hnone : s.chooseDest c l.piece = none) :
    s.act c = ((s.modSeq c fun q => { q with state := .blocked, fullRaised := true }).raise
      .bufferFull (.carriage c) l.piece.material).dueExam := by
  have hpiece : s.pieceToPlace c = some l.piece := by
    rw [State.pieceToPlace, hload]
  have hchoose : s.act c = s.enterCarBlocked c := by
    rw [State.act, if_neg (by rw [hhold]; exact Bool.false_ne_true), hnext]
    simp only [State.choose, hpiece, hnone]
  have hset := setCarState_eq (st := .blocked) hother hstate
  have hfields : ((s.modSeq c fun q => { q with state := .blocked }).dueExam).modSeq c
      (fun q => { q with fullRaised := true })
      = (s.modSeq c fun q => { q with state := .blocked, fullRaised := true }).dueExam := by
    rw [← modSeq_modSeq s c (fun q => { q with state := .blocked })
      (fun q => { q with fullRaised := true })]
    rfl
  rw [hchoose, State.enterCarBlocked, hset, hfull, hpiece, hfields, raise_dueExam]
  exact if_neg Bool.false_ne_true

/-- The warning of an expired wait is raised and the order is BLOCKED (R57, R77). -/
def State.timedOut (s : State) (c : Carriage) (w : Saw) (n : Nat) : State :=
  { s.raise .infeedTimeout (.saw w) n with
    queue := { s.queue with
      entries := s.queue.entries.map fun e =>
        if e.number = n ∧ e.state = .active c then { e with state := .blocked .infeedTimeout }
        else e } }

theorem timedOut_frame (s : State) (c : Carriage) (w : Saw) (n : Nat) :
    ∃ l v k q, s.timedOut c w n = { s with link := l, events := v, free := k, queue := q } := by
  obtain ⟨l, v, k, heq⟩ := raise_frame s .infeedTimeout (.saw w) n
  rw [State.timedOut, heq]
  exact ⟨l, v, k, _, rfl⟩

theorem Unmoved.timesOut (s : State) (c w n) : Unmoved s (s.timedOut c w n) := by
  have hraised := (Unmoved.refl s).raise .infeedTimeout (.saw w) n
  exact ⟨hraised.1, hraised.2, hraised.3, hraised.4⟩

theorem warned_blocked (s : State) (c : Carriage) (w : Saw) (n : Nat) :
    (s.raise .infeedTimeout (.saw w) n).blockTimedOut c n = s.timedOut c w n := by
  have hqueue : (s.raise .infeedTimeout (.saw w) n).queue = s.queue := by
    rw [raise_eq_reporting]
    rfl
  rw [blockTimedOut_eq, hqueue]
  rfl

variable {n : Nat} {w : Saw} {m t : Nat} {infeed : Place} {g : Option Place} {k : WorkClass}

/-- The fields a sequencer takes as its wait expires, its work turned to DIVERT (R77). -/
def Sequencer.diverted (wk : Work) (q : Sequencer) : Sequencer :=
  { q with wait := ⟨false, 0⟩, expired := false, fullRaised := false, work := some wk }

/-- A wait expires in SAW WAIT: the warning, the order BLOCKED, and the choice of the DIVERT (R57, R77). -/
theorem waitTimer_expires (hrun : (s.sq c).wait.running = true) (hstate : (s.sq c).state = .sawWait)
    (hwork : (s.sq c).work = some ⟨.order n w m t infeed g, k, .deliver, none, none⟩) :
    s.waitTimerExpired c = ((s.timedOut c w n).modSeq c
      (Sequencer.diverted ⟨.order n w m t infeed g, k, .divert, none, none⟩)).act c := by
  have hstopped : ((s.modSeq c fun q => { q with wait := ⟨false, 0⟩ }).sq c).work
      = some ⟨.order n w m t infeed g, k, .deliver, none, none⟩ := by
    rw [modSeq_sq_self]
    exact hwork
  have hwarned : ((s.modSeq c fun q => { q with wait := ⟨false, 0⟩ }).raise .infeedTimeout (.saw w)
      n).blockTimedOut c n = (s.timedOut c w n).modSeq c fun q => { q with wait := ⟨false, 0⟩ } := by
    rw [raise_modSeq, ← warned_blocked]
    rfl
  have htimed : (((s.timedOut c w n).modSeq c fun q => { q with wait := ⟨false, 0⟩ }).sq c).work
      = some ⟨.order n w m t infeed g, k, .deliver, none, none⟩ := by
    obtain ⟨l, v, j, q, heq⟩ := timedOut_frame s c w n
    rw [heq, modSeq_sq_self]
    exact hwork
  rw [waitTimer_running hrun, waitOver_sawWait (by rw [modSeq_sq_self, hstate])]
  simp only [State.actOnExpiry, hstopped, hwarned]
  rw [releaseDest_none htimed rfl, modSeq_modSeq]
  refine congrArg (fun u => State.act u c) (modSeq_congr ?_)
  have hsame : ((s.timedOut c w n).sq c).work
      = some ⟨.order n w m t infeed g, k, .deliver, none, none⟩ := by
    rwa [modSeq_sq_self] at htimed
  simp only [Sequencer.diverted, hsame, Option.map_some]

/-- With no destination for the load of the DIVERT, the carriage is BLOCKED (R77, R88). -/
theorem waitTimer_blocks {l : Load} (hrun : (s.sq c).wait.running = true)
    (hstate : (s.sq c).state = .sawWait) (hhold : (s.sq c).holdPending = false)
    (hother : (s.sq (other c)).state.unmoved = true)
    (hwork : (s.sq c).work = some ⟨.order n w m t infeed g, k, .deliver, none, none⟩)
    (hload : (s.sq c).load = some l) (hnone : s.divertPlace c g l.piece = none) :
    s.waitTimerExpired c = (((s.timedOut c w n).modSeq c fun q => { q with
      state := .blocked, wait := ⟨false, 0⟩, expired := false, fullRaised := true
      work := some ⟨.order n w m t infeed g, k, .divert, none, none⟩ }).raise
        .bufferFull (.carriage c) l.piece.material).dueExam := by
  have hsq : ((s.timedOut c w n).modSeq c
      (Sequencer.diverted ⟨.order n w m t infeed g, k, .divert, none, none⟩)).sq c
      = (s.sq c).diverted ⟨.order n w m t infeed g, k, .divert, none, none⟩ := by
    obtain ⟨l, v, j, q, heq⟩ := timedOut_frame s c w n
    rw [heq, modSeq_sq_self]
    rfl
  have hsqOther : (((s.timedOut c w n).modSeq c
      (Sequencer.diverted ⟨.order n w m t infeed g, k, .divert, none, none⟩)).sq
        (other c)).state = (s.sq (other c)).state := by
    rw [modSeq_sq_other]
    exact (Unmoved.timesOut s c w n).car (other c)
  have hchoice : ((s.timedOut c w n).modSeq c
      (Sequencer.diverted ⟨.order n w m t infeed g, k, .divert, none, none⟩)).chooseDest c l.piece
      = none := by
    have hmoved : Unmoved s ((s.timedOut c w n).modSeq c
        (Sequencer.diverted ⟨.order n w m t infeed g, k, .divert, none, none⟩)) :=
      (Unmoved.timesOut s c w n).modSeq c _ fun _ => by rfl
    have hdivert := divertPlace_congr (s := s) (u := (s.timedOut c w n).modSeq c
      (Sequencer.diverted ⟨.order n w m t infeed g, k, .divert, none, none⟩))
      (by obtain ⟨l, v, j, q, heq⟩ := timedOut_frame s c w n; rw [heq]; rfl)
      (by obtain ⟨l, v, j, q, heq⟩ := timedOut_frame s c w n; rw [heq]; rfl)
      hmoved.arb hmoved.car c g l.piece
    simp only [State.chooseDest, hsq, Sequencer.diverted]
    exact hdivert.trans hnone
  have hact := act_blocks (l := l) (by rw [hsqOther]; exact hother)
    (by rw [hsq]; exact hhold) (by rw [hsq]; exact fun e => CarState.noConfusion (hstate.symm.trans e))
    (by rw [hsq]; rfl) (by rw [hsq]; exact hload) (by rw [hsq]; rfl) hchoice
  rw [waitTimer_expires hrun hstate hwork, hact, modSeq_modSeq]
  rfl

end

/-- Settles O53: the outcomes of an expired book timer and of an expired wait. -/
theorem timersExpire : Obligations.TimersExpire := by
  intro s hrested
  refine ⟨fun w => ⟨fun hrun => ?_, fun hrun hpending => ?_, fun hrun hpending huser => ?_,
    fun hrun hpending huser => ?_⟩, fun c => ⟨fun hrun => ?_, fun hrun hstate => ?_, ?_⟩⟩
  · refine (Unmoved.refl s).next_settle hrested ?_
    rw [State.bookTimerExpired, if_neg (by rw [hrun]; exact Bool.false_ne_true)]
  · refine ((Unmoved.refl s).modSaw w _).next_settle hrested ?_
    rw [bookTimer_running hrun]
    exact decideRelease_of_pending _ w (by rw [saws_modSaw_self, hpending])
  · refine ((Unmoved.refl s).modSaw w _).next_settle hrested ?_
    rw [bookTimer_decides hrun hpending]
    simp only [huser, if_true]
  · refine ((Unmoved.refl s).modSaw w _).next_settle hrested ?_
    rw [bookTimer_decides hrun hpending]
    simp only [huser, if_false]
  · refine (Unmoved.refl s).next_settle hrested ?_
    rw [State.waitTimerExpired, if_neg (by rw [hrun]; exact Bool.false_ne_true)]
  · have hover : s.waitTimerExpired c
        = s.modSeq c fun q => { q with wait := ⟨false, 0⟩, expired := true } := by
      rw [waitTimer_running hrun, waitOver_moving (by rw [modSeq_sq_self]; exact hstate),
        modSeq_modSeq]
    exact ((Unmoved.refl s).modSeq c _ fun _ => by rfl).next_settle hrested hover
  · intro n w m t infeed g k l hrun hstate hhold hclaims hother hwork hload hnone
    have hblocks := waitTimer_blocks hrun hstate hhold hother hwork hload hnone
    have hexam : ExamOnly s ((s.timedOut c w n).modSeq c fun q => { q with
        state := .blocked, wait := ⟨false, 0⟩, expired := false, fullRaised := true
        work := some ⟨.order n w m t infeed g, k, .divert, none, none⟩ }) :=
      (ExamOnly.of_unmoved (Unmoved.timesOut s c w n)).modSeq c _
    have hraised := (Unmoved.refl ((s.timedOut c w n).modSeq c fun q => { q with
        state := .blocked, wait := ⟨false, 0⟩, expired := false, fullRaised := true
        work := some ⟨.order n w m t infeed g, k, .divert, none, none⟩ })).raise
      .bufferFull (.carriage c) l.piece.material
    have hsettled := ((hexam.trans (.of_unmoved hraised)).dueExam).next_settle hrested hclaims
      (dueExam_undone (hraised.todo.trans (Unmoved.timesOut s c w n).todo))
    exact (congrArg (fun u => (.next u.settle : Result)) hblocks).trans hsettled

end Sys2Proof.Machine
end

section
/-! What a fault, a stop of the drive and an alarm do, said once for the drive reports, the curtains and
E-STOP. -/

namespace Sys2Proof.Machine

/-! ### What changes the queue and tells of work -/

/-- Only the queue and the notices a sequencer has taken are changed. -/
structure Told (s u : State) : Prop where
  frame : ∃ q v, u = { s with queue := q, seq := v }
  seq : ∀ d, ∃ a l, u.sq d = { s.sq d with ask := a, latched := l }

theorem noticed_fields (q : Sequencer) : ∃ a l, noticed q = { q with ask := a, latched := l } := by
  unfold noticed
  split
  · exact ⟨true, q.latched, rfl⟩
  · split
    · exact ⟨q.ask, _, rfl⟩
    · exact ⟨q.ask, q.latched, rfl⟩

namespace Told
variable {s u v : State}

theorem of_queue (s : State) (q : OrderQueue) : Told s { s with queue := q } :=
  ⟨⟨q, s.seq, rfl⟩, fun d => ⟨(s.sq d).ask, (s.sq d).latched, rfl⟩⟩

theorem refl (s : State) : Told s s := of_queue s s.queue

theorem trans (h : Told s u) (k : Told u v) : Told s v := by
  obtain ⟨q, x, rfl⟩ := h.frame
  obtain ⟨q', x', rfl⟩ := k.frame
  refine ⟨⟨q', x', rfl⟩, fun d => ?_⟩
  obtain ⟨a, l, hd⟩ := h.seq d
  obtain ⟨a', l', kd⟩ := k.seq d
  exact ⟨a', l', by rw [kd, hd]⟩

theorem unmoved (h : Told s u) : Unmoved s u := by
  obtain ⟨q, x, rfl⟩ := h.frame
  refine ⟨rfl, rfl, rfl, fun d => ?_⟩
  obtain ⟨a, l, hd⟩ := h.seq d
  rw [hd]

theorem cell (h : Told s u) : u.cell = s.cell := by obtain ⟨q, x, rfl⟩ := h.frame; rfl
theorem port (h : Told s u) : u.port = s.port := by obtain ⟨q, x, rfl⟩ := h.frame; rfl
theorem arb (h : Told s u) : u.arb = s.arb := h.unmoved.arb
theorem stackRecs (h : Told s u) : u.stackRecs = s.stackRecs := by
  obtain ⟨q, x, rfl⟩ := h.frame; rfl
theorem counters (h : Told s u) : u.counters = s.counters := by
  obtain ⟨q, x, rfl⟩ := h.frame; rfl
theorem lines (h : Told s u) : u.lines = s.lines := by obtain ⟨q, x, rfl⟩ := h.frame; rfl
theorem events (h : Told s u) : u.events = s.events := by obtain ⟨q, x, rfl⟩ := h.frame; rfl
theorem saws (h : Told s u) : u.saws = s.saws := by obtain ⟨q, x, rfl⟩ := h.frame; rfl

theorem load (h : Told s u) (d) : (u.sq d).load = (s.sq d).load := by
  obtain ⟨a, l, hd⟩ := h.seq d
  rw [hd]

theorem workNotice (h : Told s u) : Told s u.workNotice := by
  refine h.trans ⟨⟨u.queue, ⟨noticed u.seq.a, noticed u.seq.b⟩, workNotice_eq u⟩, fun d => ?_⟩
  rw [workNotice_eq]
  cases d <;> exact noticed_fields _

theorem mapOrders (h : Told s u) (p f) : Told s (u.mapOrders p f) := h.trans (of_queue u _)

theorem modReturn (h : Told s u) (w f) : Told s (u.modReturn w f) := h.trans (of_queue u _)

theorem requeueWhere (h : Told s u) (f) : Told s (u.requeueWhere f) := by
  rw [requeueWhere_eq]
  split
  · exact (h.mapOrders _ _).workNotice
  · exact h.mapOrders _ _

theorem returnLost (h : Told s u) (c w) : Told s (u.returnLost c w) := by
  unfold State.returnLost
  split
  · exact h
  · split
    · exact h
    · split
      · exact (h.modReturn _ _).workNotice
      · exact h.modReturn _ _

theorem returnsLost (c : Carriage) (l : List Saw) :
    ∀ {u : State}, Told s u → Told s (l.foldl (fun t w => t.returnLost c w) u) := by
  induction l with
  | nil => exact fun h => h
  | cons w rest ih => exact fun h => ih (h.returnLost c w)

/-- The queue takes back the work of a carriage (R62). -/
theorem handBack (h : Told s u) (c) : Told s (u.handBack c) :=
  returnsLost c _ (h.requeueWhere _)

end Told

theorem workNotice_queue (s : State) : s.workNotice.queue = s.queue := by
  rw [workNotice_eq]

theorem returnLost_entries (s : State) (c : Carriage) (w : Saw) :
    (s.returnLost c w).queue.entries = s.queue.entries := by
  unfold State.returnLost
  split
  · rfl
  · split
    · rfl
    · split
      · rw [workNotice_queue]
        rfl
      · rfl

theorem returnsLost_entries (c : Carriage) (l : List Saw) (s : State) :
    (l.foldl (fun t w => t.returnLost c w) s).queue.entries = s.queue.entries := by
  induction l generalizing s with
  | nil => rfl
  | cons w rest ih =>
    rw [List.foldl_cons, ih]
    exact returnLost_entries s c w

theorem requeueWhere_entries (s : State) (p : OrderEntry → Bool) :
    (s.requeueWhere p).queue.entries = s.queue.entries.map fun e =>
      if p e then { e with state := backState s e } else e := by
  rw [requeueWhere_eq]
  split
  · rw [workNotice_queue]
    rfl
  · rfl

theorem handBack_entries (s : State) (c : Carriage) :
    (s.handBack c).queue.entries = s.queue.entries.map fun e =>
      if e.heldBy c then { e with state := backState s e } else e := by
  rw [State.handBack, returnsLost_entries, requeueWhere_entries]

theorem backState_free (s : State) (e : OrderEntry) (c : Carriage) :
    backState s e ≠ .active c ∧ backState s e ≠ .suspended c := by
  unfold backState
  split <;> exact ⟨OrderState.noConfusion, OrderState.noConfusion⟩

/-- No order of the queue is with the carriage. -/
def State.leftBy (s : State) (c : Carriage) : Prop :=
  ∀ e ∈ s.queue.entries, e.state ≠ .active c ∧ e.state ≠ .suspended c

theorem handBack_leftBy (s : State) (c : Carriage) : (s.handBack c).leftBy c := by
  intro e he
  rw [handBack_entries, List.mem_map] at he
  obtain ⟨x, -, rfl⟩ := he
  split
  · exact backState_free s x c
  · next hheld =>
    simp only [OrderEntry.heldBy, Bool.or_eq_true, decide_eq_true_eq, not_or] at hheld
    exact hheld

/-- What the queue takes back from a carriage leaves what another has left. -/
theorem handBack_keeps_leftBy {s : State} {d : Carriage} (h : s.leftBy d) (c : Carriage) :
    (s.handBack c).leftBy d := by
  intro e he
  rw [handBack_entries, List.mem_map] at he
  obtain ⟨x, hx, rfl⟩ := he
  split
  · exact backState_free s x d
  · exact h x hx

/-! ### STOP -/

theorem sendStop_eq (s : State) (c : Carriage) :
    s.sendStop c = s.modPort c fun d => { d with sent := sentTo d .stop, stopping := true } := by
  rw [State.sendStop, send_eq]
  cases c <;> rfl

theorem stopDrive_frame (s : State) (c : Carriage) :
    ∃ sent, s.stopDrive c = s.modPort c fun d => { d with sent := sent, stopping := true } := by
  unfold State.stopDrive
  split
  · next hstop =>
    refine ⟨(s.pt c).sent, (modPort_fixed ?_).symm⟩
    rw [← hstop]
  · refine ⟨sentTo (s.pt c) .stop, ?_⟩
    rw [sendStop_eq]
    cases c <;> rfl

/-! ### FAULTED -/

theorem claimOf_noClaims {s : State} (h : s.noClaims = true) (c : Carriage) : s.claimOf c = none := by
  obtain ⟨hwaiting, -⟩ := (noClaims_iff s).1 h
  rw [State.claimOf, hwaiting]
  rfl

theorem withdrawClaim_none {s : State} {c : Carriage} (h : s.claimOf c = none) :
    s.withdrawClaim c = s := by
  rw [State.withdrawClaim, h]
  rfl

theorem withdrawNext_stopping {s : State} {c : Carriage} (h : (s.pt c).stopping = true) :
    s.withdrawNext c = s := by
  rw [State.withdrawNext, h]
  rfl

theorem releaseUnlessStopping_stopping {s : State} {c : Carriage} (h : (s.pt c).stopping = true) :
    s.releaseUnlessStopping c = s := if_pos h

/-- What a FAULTED sequencer keeps (R68, R132). -/
def Sequencer.faultedNow (q : Sequencer) : Sequencer := { q.cleared with state := .faulted }

section
variable {s : State} {c : Carriage}

/-- A carriage whose port is stopping enters FAULTED where nothing waits on it (R132). -/
theorem enterFaulted_eq (hstop : (s.pt c).stopping = true) (hclaims : s.noClaims = true)
    (hother : (s.sq (other c)).state.unmoved = true) (hstate : (s.sq c).state ≠ .faulted) :
    s.enterFaulted c = ((s.handBack c).modSeq c Sequencer.faultedNow).dueExam := by
  have hback := (Told.refl s).handBack c
  have hport : (((s.handBack c).modSeq c Sequencer.cleared).pt c).stopping = true := by
    rw [modSeq_pt, State.pt, hback.port]
    exact hstop
  have hcleared : Unmoved s ((s.handBack c).modSeq c Sequencer.cleared) :=
    hback.unmoved.modSeq c _ fun _ => by rfl
  have hnone := claimOf_noClaims (hcleared.noClaims hclaims) c
  have hotherState : (((s.handBack c).modSeq c Sequencer.cleared).sq (other c)).state.unmoved
      = true := by
    rw [modSeq_sq_other, hback.unmoved.car]
    exact hother
  have hne : (((s.handBack c).modSeq c Sequencer.cleared).sq c).state ≠ .faulted := by
    rw [modSeq_sq_self]
    exact fun e => hstate ((hback.unmoved.car c).symm.trans e)
  rw [State.enterFaulted, releaseUnlessStopping_stopping hport, withdrawNext_stopping hport, withdrawClaim_none hnone,
    setCarState_eq hotherState hne, modSeq_modSeq]
  rfl

theorem stopHoming_eq (hother : (s.sq (other c)).state.unmoved = true)
    (hstate : (s.sq c).state = .homing) : s.stopHoming c
      = ((s.modPort c fun d => { d with sent := sentTo d .stop, stopping := true }).modSeq c
          fun q => { q with state := .unreferenced }).dueExam := by
  have hne : ((s.sendStop c).sq c).state ≠ .unreferenced := by
    rw [sendStop_eq, modPort_sq, hstate]
    exact CarState.noConfusion
  have hsame : ((s.sendStop c).sq (other c)).state.unmoved = true := by
    rw [sendStop_eq, modPort_sq]
    exact hother
  rw [State.stopHoming, setCarState_eq hsame hne, sendStop_eq]

end

/-! ### Alarms -/

/-- A raised alarm is pending, however many events are (R170). -/
theorem raiseUnit_alarm {u : EventUnit} {kind : EventKind} (src : EventSource) (d : Int)
    (halarm : eventClass kind = .alarm) : hasEvent (u.raise kind src d).1.entries kind src d := by
  unfold EventUnit.raise
  split
  · next hany =>
    obtain ⟨e, he, hsame⟩ := List.any_eq_true.1 hany
    refine ⟨_, List.mem_map_of_mem he, ?_⟩
    rw [if_pos hsame]
    simp only [sameEvent, Bool.and_eq_true, decide_eq_true_eq] at hsame
    exact ⟨hsame.1, hsame.2, rfl⟩
  · split
    · exact hasEvent_create u kind src d kind src d (.inl ⟨rfl, rfl, rfl⟩)
    · next hfull =>
      cases hold : oldestLowest u.entries with
      | none =>
        unfold oldestLowest at hold
        cases hentries : u.entries with
        | nil => exact absurd (by rw [hentries]; decide) hfull
        | cons e rest =>
          rw [hentries] at hold
          split at hold
          · exact absurd hold (Option.some_ne_none _)
          · split at hold <;> exact absurd hold (Option.some_ne_none _)
      | some old =>
        have hclass : classCode (eventClass kind) ≤ classCode (eventClass old.kind) := by
          rw [halarm]
          exact Nat.zero_le _
        dsimp only
        rw [if_pos hclass]
        exact hasEvent_create _ kind src d kind src d (.inl ⟨rfl, rfl, rfl⟩)

theorem hasEvent_marked (u : EventUnit) (e : EventEntry) {k src d}
    (h : hasEvent u.entries k src d) : hasEvent (markSent e u.entries) k src d := by
  refine hasEvent_map _ _ _ _ _ (fun x _ => ?_) h
  split <;> exact ⟨rfl, rfl, rfl⟩

theorem raise_pending {s : State} {kind src d k src' d'}
    (h : hasEvent (s.events.raise kind src d).1.entries k src' d') :
    hasEvent (s.raise kind src d).events.entries k src' d' := by
  unfold State.raise
  dsimp only
  split
  · exact sendReportsN_events (fun u => hasEvent u.entries k src' d')
      (fun u e hu => hasEvent_marked u e hu) _ _ h
  · exact h

theorem raise_alarm (s : State) {kind : EventKind} (src : EventSource) (d : Int)
    (halarm : eventClass kind = .alarm) :
    hasEvent (s.raise kind src d).events.entries kind src d :=
  raise_pending (raiseUnit_alarm src d halarm)

end Sys2Proof.Machine
end

section
/-! The light curtains (O55). -/

namespace Sys2Proof.Machine

/-! ### Holders under a closing -/

theorem addSource_holder (s : State) (src : ClosureSource) (p : Nat → Bool) (z : Nat) :
    (s.addSource src p).holder z = s.holder z := by
  unfold State.holder
  split
  · simp only [State.addSource, mapZones_arb, Vector.getElem_ofFn]
    split <;> rfl
  · rfl

theorem addSource_heldZones (s : State) (src : ClosureSource) (p : Nat → Bool) (c : Carriage) :
    (s.addSource src p).heldZones c = s.heldZones c := by
  simp only [State.heldZones, addSource_holder]

theorem heldZones_congr {s u : State} (h : u.arb = s.arb) (c : Carriage) :
    u.heldZones c = s.heldZones c := by
  have hholder : ∀ z, u.holder z = s.holder z := fun z => by rw [State.holder, h]; rfl
  simp only [State.heldZones, hholder]

theorem mem_heldZones {s : State} {c : Carriage} {z : Nat} :
    z ∈ s.heldZones c ↔ z < 16 ∧ s.holder z = some c := by
  rw [State.heldZones, List.mem_filter, List.mem_range, decide_eq_true_eq]

/-- The first zone of the range that the carriage holds (R108). -/
theorem firstHeld_spec {s : State} {r : Option ZoneRange} {c : Carriage}
    (h : ∃ z ∈ s.heldZones c, inOptRange r z = true) :
    s.holder (s.firstHeld r c) = some c ∧ inOptRange r (s.firstHeld r c) = true
      ∧ ∀ y < s.firstHeld r c, s.holder y = some c → inOptRange r y = false := by
  obtain ⟨z, hz, hr⟩ := h
  have hsome : ((s.heldZones c).find? (inOptRange r)).isSome = true :=
    List.find?_isSome.2 ⟨z, hz, hr⟩
  obtain ⟨x, hx⟩ := Option.isSome_iff_exists.1 hsome
  have hfirst : s.firstHeld r c = x := by rw [State.firstHeld, hx, Option.getD_some]
  rw [State.heldZones, List.find?_filter, List.find?_range_eq_some] at hx
  obtain ⟨hin, -, hbefore⟩ := hx
  rw [decide_eq_true_eq, decide_eq_true_eq] at hin
  rw [hfirst]
  refine ⟨hin.1, hin.2, fun y hy hheld => ?_⟩
  have hnot := hbefore y hy
  rw [Bool.not_eq_true', decide_eq_false_iff_not, not_and, decide_eq_true_eq] at hnot
  exact Bool.eq_false_iff.2 (hnot hheld)

/-! ### The carriages a breach stops -/

/-- A breach faults the carriage: MOVING, it holds a zone of the range (R108). -/
def State.breachFaults (s : State) (r : Option ZoneRange) (c : Carriage) : Prop :=
  (s.sq c).state = .moving ∧ ∃ z ∈ s.heldZones c, inOptRange r z = true

theorem breached_iff (s : State) (r : Option ZoneRange) (c : Carriage) :
    s.breached r c = true
      ↔ s.breachFaults r c ∨ ((s.sq c).state = .homing ∧ r ≠ none) := by
  simp only [State.breached, State.breachFaults, Bool.or_eq_true, Bool.and_eq_true,
    decide_eq_true_eq, List.any_eq_true, Option.isSome_iff_ne_none]

theorem breached_congr {s u : State} {c : Carriage} (r : Option ZoneRange)
    (hstate : (u.sq c).state = (s.sq c).state) (hheld : u.heldZones c = s.heldZones c) :
    u.breached r c = s.breached r c := by
  rw [State.breached, State.breached, hstate, hheld]

theorem breachStop_none {s : State} {r : Option ZoneRange} {c : Carriage}
    (h : s.breached r c = false) : s.breachStop r c = s := by
  rw [State.breachStop, h]
  rfl

/-- What the stop of one carriage leaves of the rest. -/
structure StopsOne (s u : State) (c : Carriage) : Prop where
  exam : ExamOnly s u
  arb : u.arb = s.arb
  car : (u.sq (other c)).state = (s.sq (other c)).state
  drive : u.pt (other c) = s.pt (other c)
  self : (s.sq c).state.unmoved = true → (u.sq c).state.unmoved = true

namespace StopsOne
variable {s u : State} {c : Carriage}

theorem refl (s : State) (c : Carriage) : StopsOne s s c := ⟨.refl s, rfl, rfl, rfl, id⟩

theorem noClaims (h : StopsOne s u c) (hs : s.noClaims = true) : u.noClaims = true :=
  h.exam.noClaims hs

theorem noChoosers (h : StopsOne s u c) (hs : s.noChoosers = true) : u.noChoosers = true := by
  have hall := (noChoosers_iff s).1 hs
  refine (noChoosers_iff u).2 fun d => ?_
  rcases eq_or_other c d with rfl | rfl
  · exact h.self (hall _)
  · rw [h.car]
    exact hall _

theorem raise (h : StopsOne s u c) (kind src d) : StopsOne s (u.raise kind src d) c := by
  have hraised := (Unmoved.refl u).raise kind src d
  refine ⟨h.exam.trans (.of_unmoved hraised), hraised.arb.trans h.arb,
    (hraised.car _).trans h.car, ?_, fun k => ?_⟩
  · rw [raise_eq_reporting]
    exact h.drive
  · rw [raise_sq]
    exact h.self k

theorem dueExam (h : StopsOne s u c) : StopsOne s u.dueExam c :=
  ⟨h.exam.dueExam, h.arb, h.car, h.drive, h.self⟩

theorem modPort (h : StopsOne s u c) (f) : StopsOne s (u.modPort c f) c := by
  refine ⟨h.exam.modPort c f, h.arb, h.car, ?_, h.self⟩
  rw [modPort_pt_other]
  exact h.drive

theorem handBack (h : StopsOne s u c) : StopsOne s (u.handBack c) c := by
  have hback := (Told.refl u).handBack c
  refine ⟨h.exam.trans (.of_unmoved hback.unmoved), hback.arb.trans h.arb,
    (hback.unmoved.car _).trans h.car, ?_, fun k => ?_⟩
  · rw [State.pt, hback.port]
    exact h.drive
  · rw [hback.unmoved.car]
    exact h.self k

/-- The carriage enters a state in which it takes no notice. -/
theorem enters (h : StopsOne s u c) (f : Sequencer → Sequencer)
    (hf : ∀ q, (f q).state.unmoved = true) : StopsOne s (u.modSeq c f) c := by
  refine ⟨h.exam.modSeq c f, h.arb, ?_, h.drive, fun _ => ?_⟩
  · rw [modSeq_sq_other]
    exact h.car
  · rw [modSeq_sq_self]
    exact hf _

theorem heldZones (h : StopsOne s u c) (d : Carriage) : u.heldZones d = s.heldZones d :=
  heldZones_congr h.arb d

theorem breached (h : StopsOne s u c) (r : Option ZoneRange) :
    u.breached r (other c) = s.breached r (other c) :=
  breached_congr r h.car (h.heldZones _)

end StopsOne

section
variable {s : State} {r : Option ZoneRange} {c : Carriage} (hclaims : s.noClaims = true)
  (hs : s.noChoosers = true)
include hclaims hs

/-- A MOVING carriage in the range is FAULTED (R108). -/
theorem breachStop_faults (h : s.breachFaults r c) :
    s.breachStop r c = (((((s.modPort c fun d => { d with
      sent := sentTo d .stop, stopping := true }).handBack c).modSeq c
        Sequencer.faultedNow).raise .zoneConflict (.carriage c) (s.firstHeld r c)).dueExam) := by
  have hbreached : s.breached r c = true := (breached_iff s r c).2 (.inl h)
  have hnot : ¬(s.sq c).state = .homing := by rw [h.1]; exact CarState.noConfusion
  have hstop := enterFaulted_eq (s := s.modPort c fun d => { d with
      sent := sentTo d .stop, stopping := true }) (c := c) (by rw [modPort_pt_self]) hclaims
    ((noChoosers_iff s).1 hs (other c)) (by rw [modPort_sq, h.1]; exact CarState.noConfusion)
  rw [State.breachStop, if_pos hbreached, if_neg hnot, sendStop_eq, hstop, raise_dueExam]

omit hclaims in
theorem breachStop_homing (hstate : (s.sq c).state = .homing) (hr : r ≠ none) :
    s.breachStop r c = ((s.modPort c fun d => { d with
      sent := sentTo d .stop, stopping := true }).modSeq c fun q =>
        { q with state := .unreferenced }).dueExam := by
  have hbreached : s.breached r c = true := (breached_iff s r c).2 (.inr ⟨hstate, hr⟩)
  rw [State.breachStop, if_pos hbreached, if_pos hstate,
    stopHoming_eq ((noChoosers_iff s).1 hs (other c)) hstate]

theorem breachStop_one : StopsOne s (s.breachStop r c) c := by
  cases hb : s.breached r c with
  | false =>
    rw [breachStop_none hb]
    exact .refl s c
  | true =>
    rcases (breached_iff s r c).1 hb with h | ⟨hstate, hr⟩
    · rw [breachStop_faults hclaims hs h]
      exact (((((StopsOne.refl s c).modPort _).handBack).enters _ fun _ => by rfl).raise _ _
        _).dueExam
    · rw [breachStop_homing hs hstate hr]
      exact (((StopsOne.refl s c).modPort _).enters _ fun _ => by rfl).dueExam

/-- Where the other carriage is not breached, the breach stops this one alone. -/
theorem breachStops_alone (hother : s.breached r (other c) = false) :
    (s.breachStop r .A).breachStop r .B = s.breachStop r c := by
  cases c with
  | A => exact breachStop_none (((breachStop_one hclaims hs (c := .A)).breached r).trans hother)
  | B =>
    have hfirst : s.breachStop r .A = s := breachStop_none hother
    rw [hfirst]

/-- The stops leave the arbiter as it was. -/
theorem breachStops_rest : ExamOnly s ((s.breachStop r .A).breachStop r .B)
    ∧ ((s.breachStop r .A).breachStop r .B).arb = s.arb := by
  have hfirst := breachStop_one hclaims hs (r := r) (c := .A)
  have hsecond := breachStop_one (hfirst.noClaims hclaims) (hfirst.noChoosers hs) (r := r) (c := .B)
  exact ⟨hfirst.exam.trans hsecond.exam, hsecond.arb.trans hfirst.arb⟩

/-- A HOMING carriage is UNREFERENCED after the breach, whatever becomes of the other (R108). -/
theorem breachStops_homing (hstate : (s.sq c).state = .homing) (hr : r ≠ none) :
    (((s.breachStop r .A).breachStop r .B).sq c).state = .unreferenced
      ∧ (((s.breachStop r .A).breachStop r .B).pt c).stopping = true := by
  have hstopped : ∀ {u : State}, u.noChoosers = true →
      (u.sq c).state = .homing → ((u.breachStop r c).sq c).state = .unreferenced
        ∧ ((u.breachStop r c).pt c).stopping = true := fun hv hh => by
    rw [breachStop_homing hv hh hr]
    refine ⟨?_, ?_⟩
    · rw [dueExam_sq, modSeq_sq_self]
    · rw [dueExam_pt, modSeq_pt, modPort_pt_self]
  have hfirst := breachStop_one hclaims hs (r := r) (c := .A)
  have hsecond := breachStop_one (hfirst.noClaims hclaims) (hfirst.noChoosers hs) (r := r) (c := .B)
  cases c with
  | A =>
    obtain ⟨hun, hstop⟩ := hstopped hs hstate
    exact ⟨hsecond.car.trans hun, (congrArg DrivePort.stopping hsecond.drive).trans hstop⟩
  | B => exact hstopped (hfirst.noChoosers hs) (hfirst.car.trans hstate)

end

/-! ### The line of a curtain -/

theorem removeSource_all (s : State) (src : ClosureSource) : (s.removeSource src fun _ => true)
    = { s with
      arb := { s.arb with
        zones := Vector.ofFn fun z : Fin 16 =>
          { s.arb.zones[z] with
            sources := s.arb.zones[z].sources.set (sourceIndex src).val false } } } := by
  simp only [State.removeSource, State.mapZones, if_true]

/-- A breach as it is before a carriage is stopped (R108). -/
def State.breachRaised (s : State) (k : Curtain) (n : Nat) : State :=
  (((s.setCurtainLine k true).addSource (.curtain k) (inOptRange s.cell.curtains[k])).raise
    .curtainBreach (.curtain k) n)

section
variable {s : State} {k : Curtain}

theorem curtainUp_rises (h : s.lines.curtain[k] = false) : s.curtainUp k
    = ((s.breachRaised k (s.breachCount s.cell.curtains[k])).breachStop s.cell.curtains[k]
        .A).breachStop s.cell.curtains[k] .B :=
  if_neg (by rw [h]; exact Bool.false_ne_true)

theorem breachRaised_arb (s : State) (k : Curtain) (n : Nat) : (s.breachRaised k n).arb
    = { s.arb with zones := sourced s s.cell.curtains[k] ⟨k.val, by omega⟩ true } :=
  (((Unmoved.refl ((s.setCurtainLine k true).addSource (.curtain k)
    (inOptRange s.cell.curtains[k]))).raise .curtainBreach (.curtain k) n).arb).trans rfl

theorem breachRaised_sq (s : State) (k : Curtain) (n : Nat) (c : Carriage) :
    (s.breachRaised k n).sq c = s.sq c := raise_sq _ _ _ _ _

theorem breachRaised_heldZones (s : State) (k : Curtain) (n : Nat) (c : Carriage) :
    (s.breachRaised k n).heldZones c = s.heldZones c := by
  have hraised := (Unmoved.refl ((s.setCurtainLine k true).addSource (.curtain k)
    (inOptRange s.cell.curtains[k]))).raise .curtainBreach (.curtain k) n
  exact (heldZones_congr hraised.arb c).trans
    (addSource_heldZones (s.setCurtainLine k true) (.curtain k) _ c)

theorem breachRaised_breached (s : State) (k : Curtain) (n : Nat) (r c) :
    (s.breachRaised k n).breached r c = s.breached r c :=
  breached_congr r (by rw [breachRaised_sq]) (breachRaised_heldZones s k n c)

theorem breachRaised_exam (s : State) (k : Curtain) (n : Nat) : ExamOnly s (s.breachRaised k n) := by
  have hraised := (Unmoved.refl ((s.setCurtainLine k true).addSource (.curtain k)
    (inOptRange s.cell.curtains[k]))).raise .curtainBreach (.curtain k) n
  have hclosed : ExamOnly s ((s.setCurtainLine k true).addSource (.curtain k)
    (inOptRange s.cell.curtains[k])) := ⟨rfl, rfl, rfl, rfl, rfl, rfl⟩
  exact hclosed.trans (.of_unmoved hraised)

theorem breachRaised_rested (hs : s.rested = true) (n : Nat) : (s.breachRaised k n).rested = true := by
  have hraised := (Unmoved.refl ((s.setCurtainLine k true).addSource (.curtain k)
    (inOptRange s.cell.curtains[k]))).raise .curtainBreach (.curtain k) n
  exact hraised.rested hs

theorem breachRaised_noChoosers (hs : s.noChoosers = true) (n : Nat) :
    (s.breachRaised k n).noChoosers = true := by
  have hall := (noChoosers_iff s).1 hs
  refine (noChoosers_iff _).2 fun c => ?_
  rw [breachRaised_sq]
  exact hall c

theorem breachCount_one {r : Option ZoneRange} {c : Carriage} (h : s.breached r c = true)
    (hother : s.breached r (other c) = false) : s.breachCount r = 1 := by
  cases c with
  | A =>
    have hB : s.breached r .B = false := hother
    simp only [State.breachCount, List.filter_cons, h, hB]
    rfl
  | B =>
    have hA : s.breached r .A = false := hother
    simp only [State.breachCount, List.filter_cons, h, hA]
    rfl

theorem breachCount_none {r : Option ZoneRange} (h : ∀ c, s.breached r c = false) :
    s.breachCount r = 0 := by
  simp only [State.breachCount, List.filter_cons, h]
  rfl

theorem breachStops_none {r : Option ZoneRange} (h : ∀ c, s.breached r c = false) :
    (s.breachStop r .A).breachStop r .B = s := by
  rw [breachStop_none (h .A), breachStop_none (h .B)]

end

/-- What a breach leaves where it faults one carriage (R108). -/
theorem breachStop_leaves {s : State} {r : Option ZoneRange} {c : Carriage}
    (hclaims : s.noClaims = true) (hs : s.noChoosers = true) (hok : s.events.ok = true)
    (h : s.breachFaults r c) :
    ((s.breachStop r c).sq c).state = .faulted ∧ ((s.breachStop r c).pt c).stopping = true
      ∧ hasEvent (s.breachStop r c).events.entries .zoneConflict (.carriage c) (s.firstHeld r c)
      ∧ ∀ (k : Curtain) (d : Int), hasEvent s.events.entries .curtainBreach (.curtain k) d →
        hasEvent (s.breachStop r c).events.entries .curtainBreach (.curtain k) d := by
  have hback := (Told.refl (s.modPort c fun d => { d with
    sent := sentTo d .stop, stopping := true })).handBack c
  have hevents : ((s.modPort c fun d => { d with
      sent := sentTo d .stop, stopping := true }).handBack c).events = s.events := hback.events
  have hport : (((s.modPort c fun d => { d with
      sent := sentTo d .stop, stopping := true }).handBack c).pt c).stopping = true := by
    rw [State.pt, hback.port]
    exact congrArg DrivePort.stopping (modPort_pt_self s c _)
  rw [breachStop_faults hclaims hs h]
  generalize (s.modPort c fun d => { d with
    sent := sentTo d .stop, stopping := true }).handBack c = u at hevents hport
  refine ⟨?_, ?_, raise_alarm _ _ _ rfl, fun k d hk => ?_⟩
  · rw [dueExam_sq, raise_sq, modSeq_sq_self]
    rfl
  · rw [dueExam_pt, raise_eq_reporting]
    exact hport
  · refine raise_hasEvent (u.modSeq c Sequencer.faultedNow) _ _ _ _ _ _ ?_ rfl rfl
      (.inr ⟨fun e => EventKind.noConfusion e.1, ?_⟩)
    · rw [modSeq_events, hevents]
      exact hok
    · rw [modSeq_events, hevents]
      exact hk

/-- Settles O55: the breach of a light curtain, with the carriages it stops, and its end. -/
theorem curtainCloses : Obligations.CurtainCloses := by
  intro s k hquiet hok
  obtain ⟨hrested, hclaims, hs⟩ := (quiet_iff s).1 hquiet
  have hexam := fun n => breachRaised_exam s k n
  have hraisedClaims := fun n => (hexam n).noClaims hclaims
  have hraisedChoosers := fun n => breachRaised_noChoosers (k := k) hs n
  refine ⟨fun hline => (Unmoved.refl s).next_settle hrested (if_pos hline), fun hline hnone => ?_,
    fun c hline hhit hother => ?_, fun c hline hhoming hr => ?_, fun hline => ?_, fun hline => ?_⟩
  · have hcaught : ∀ c, s.breached s.cell.curtains[k] c = false := fun c =>
      Bool.eq_false_iff.2 fun e => hnone c ((breached_iff s _ c).1 e)
    have hup : s.curtainUp k = s.breachRaised k 0 := by
      rw [curtainUp_rises hline, breachCount_none hcaught]
      exact breachStops_none fun c => by rw [breachRaised_breached, hcaught]
    have hsettled : (s.curtainUp k).settle = s.breachRaised k 0 := by
      rw [hup]
      exact settle_rested _ (breachRaised_rested hrested 0)
    exact congrArg (fun u => (.next u : Result)) hsettled
  · have hbreached : s.breached s.cell.curtains[k] c = true :=
      (breached_iff s _ c).2 (.inl hhit)
    have hfree : s.breached s.cell.curtains[k] (other c) = false :=
      Bool.eq_false_iff.2 fun e => hother ((breached_iff s _ (other c)).1 e)
    have hup : s.curtainUp k = (s.breachRaised k 1).breachStop s.cell.curtains[k] c := by
      rw [curtainUp_rises hline, breachCount_one hbreached hfree]
      exact breachStops_alone (hraisedClaims 1) (hraisedChoosers 1)
        (by rw [breachRaised_breached, hfree])
    have hfaults : (s.breachRaised k 1).breachFaults s.cell.curtains[k] c := by
      rw [State.breachFaults, breachRaised_sq, breachRaised_heldZones]
      exact hhit
    have hone := breachStop_one (hraisedClaims 1) (hraisedChoosers 1)
      (r := s.cell.curtains[k]) (c := c)
    have hpending : hasEvent (s.breachRaised k 1).events.entries .curtainBreach (.curtain k) 1 :=
      raise_alarm _ _ _ rfl
    have hraisedOk : (s.breachRaised k 1).events.ok = true :=
      raise_eventsOk _ _ _ _ rfl hok
    obtain ⟨hstate, hstop, hconflict, hkeeps⟩ :=
      breachStop_leaves (hraisedClaims 1) (hraisedChoosers 1) hraisedOk hfaults
    have hheld : s.firstHeld s.cell.curtains[k] c
        = (s.breachRaised k 1).firstHeld s.cell.curtains[k] c := by
      rw [State.firstHeld, State.firstHeld, breachRaised_heldZones]
    refine ⟨{ (s.breachRaised k 1).breachStop s.cell.curtains[k] c with todo := s.todo }, ?_, hstate,
      hstop, ?_, ?_, hkeeps k 1 hpending, ?_⟩
    · have hsettled := ((hexam 1).trans hone.exam).settles hrested hclaims
      rw [← hup] at hsettled ⊢
      exact congrArg (fun u => (.next u : Result)) hsettled
    · exact (congrArg Arbiter.zones hone.arb).trans
        (congrArg Arbiter.zones (breachRaised_arb s k 1))
    · exact hone.car.trans (congrArg Sequencer.state (breachRaised_sq s k 1 (other c)))
    · obtain ⟨e, he, hkind, hsource, hdetail⟩ := hconflict
      obtain ⟨hheldBy, hin, hfirst⟩ := firstHeld_spec hhit.2
      exact ⟨e, he, hkind, hsource, s.firstHeld s.cell.curtains[k] c, by rw [hheld, hdetail],
        hheldBy, hin, hfirst⟩
  · obtain ⟨hstate, hstop⟩ := breachStops_homing (hraisedClaims (s.breachCount s.cell.curtains[k]))
      (hraisedChoosers (s.breachCount s.cell.curtains[k])) (r := s.cell.curtains[k]) (c := c)
      (by rw [breachRaised_sq]; exact hhoming) hr
    obtain ⟨hrest, harb⟩ := breachStops_rest (hraisedClaims (s.breachCount s.cell.curtains[k]))
      (hraisedChoosers (s.breachCount s.cell.curtains[k])) (r := s.cell.curtains[k])
    have hsettled := ((hexam (s.breachCount s.cell.curtains[k])).trans hrest).settles hrested hclaims
    rw [← curtainUp_rises hline] at hsettled hstate hstop harb
    exact ⟨_, congrArg (fun u => (.next u : Result)) hsettled, hstate, hstop,
      (congrArg Arbiter.zones harb).trans (congrArg Arbiter.zones (breachRaised_arb s k _))⟩
  · exact (Unmoved.refl s).next_settle hrested
      (if_neg (by rw [hline]; exact Bool.false_ne_true))
  · have hdown : s.curtainDown k = ((((s.setCurtainLine k false).removeSource (.curtain k)
        fun _ => true).clearEvents (sameEvent .curtainBreach (.curtain k))).dueExam) := if_pos hline
    have hfallen : ExamOnly s (s.setCurtainLine k false) := ⟨rfl, rfl, rfl, rfl, rfl, rfl⟩
    have hopened : ExamOnly s ((s.setCurtainLine k false).removeSource (.curtain k)
      fun _ => true) := hfallen.mapZones _
    have hsettled := (hopened.clearEvents
      (sameEvent .curtainBreach (.curtain k))).dueExam.settles hrested hclaims
    rw [← hdown] at hsettled
    refine congrArg (fun u => (.next u : Result)) (hsettled.trans ?_)
    rw [hdown, removeSource_all]
    simp only [State.setCurtainLine, State.clearEvents, State.dueExam, sameEvent, sourceIndex]

end Sys2Proof.Machine
end

section
/-! The release of every place claim, the zones given up, and E-STOP (O57). -/

namespace Sys2Proof.Machine

/-! ### Place claims -/

/-- A stack record that the carriage is no longer user of (R22). -/
def clearUser (c : Carriage) (r : StackRec) : StackRec :=
  if r.user = some c then { r with user := none } else r

theorem clearUser_user (c : Carriage) (r : StackRec) : (clearUser c r).user ≠ some c := by
  unfold clearUser
  split
  · exact fun e => Option.some_ne_none c e.symm
  · next h => exact h

theorem clearUser_keeps {c d : Carriage} {r : StackRec} (h : r.user ≠ some d) :
    (clearUser c r).user ≠ some d := by
  unfold clearUser
  split
  · exact fun e => Option.some_ne_none d e.symm
  · exact h

theorem userAt_iff (s : State) (p : Place) (c : Carriage) :
    s.userAt p = some c ↔ ∃ r, s.stackRecs[p] = some r ∧ r.user = some c := by
  unfold State.userAt
  cases s.stackRecs[p] with
  | none => exact ⟨fun h => absurd h.symm (Option.some_ne_none _),
    fun ⟨_, h, _⟩ => absurd h.symm (Option.some_ne_none _)⟩
  | some r => exact ⟨fun h => ⟨r, rfl, h⟩, fun ⟨x, hx, hu⟩ => by cases hx; exact hu⟩

theorem userCleared_frame (s : State) (p : Place) :
    ∃ v, s.userCleared p = { s with saws := v }
      ∧ ((∀ w : Saw, s.saws[w].releasePending = false) → v = s.saws) := by
  by_cases h : ∀ w, s.cell.places[p].kind = .infeed → s.cell.places[p].saw = some w →
      s.saws[w].releasePending = false ∨ (s.saws[w].state ≠ .opened ∧ s.saws[w].state ≠ .closed)
  · exact ⟨s.saws, userCleared_of_none h, fun _ => rfl⟩
  · refine ⟨(s.userCleared p).saws, ?_, fun hnone => absurd (fun w _ _ => .inl (hnone w)) h⟩
    unfold State.userCleared
    split
    · split <;> rfl
    · rfl

section
variable {s : State} {c : Carriage} (hother : (s.sq (other c)).state.unmoved = true)
include hother

/-- The release of one place claim, where the other carriage takes no notice (R22). -/
theorem releasePlace_frame (p : Place) :
    ∃ v, s.releasePlace c p = { s with
        stackRecs := s.stackRecs.set p.val (s.stackRecs[p].map (clearUser c)), saws := v }
      ∧ ((∀ w : Saw, s.saws[w].releasePending = false) → v = s.saws) := by
  by_cases huser : s.userAt p = some c
  · obtain ⟨r, hr, hc⟩ := (userAt_iff s p c).1 huser
    obtain ⟨v, hclear, hsaws⟩ := userCleared_frame (s.setUser p none) p
    have hrelease : s.releasePlace c p = (s.setUser p none).userCleared p := by
      have hsame : (((s.setUser p none).userCleared p).sq (other c)).state.unmoved = true := by
        rw [hclear]
        exact hother
      rw [State.releasePlace, if_pos huser, nudgeBlocked_unmoved hsame]
    refine ⟨v, ?_, hsaws⟩
    have hcleared : clearUser c r = { r with user := none } := if_pos hc
    rw [hrelease, hclear, setUser_eq hr, hr, Option.map_some, hcleared]
  · refine ⟨s.saws, ?_, fun _ => rfl⟩
    have hsame : s.stackRecs[p].map (clearUser c) = s.stackRecs[p] := by
      cases hr : s.stackRecs[p] with
      | none => rfl
      | some r =>
        rw [Option.map_some, clearUser, if_neg fun e => huser ((userAt_iff s p c).2 ⟨r, hr, e⟩)]
    have hset : s.stackRecs.set p.val s.stackRecs[p] = s.stackRecs := Vector.set_getElem_self _
    rw [State.releasePlace, if_neg huser, hsame, hset]

end

/-- The release of the claims on a list of places. -/
theorem releaseList_frame {s : State} {c : Carriage} (l : List Place)
    (hother : (s.sq (other c)).state.unmoved = true) :
    ∃ r v, l.foldl (fun t p => t.releasePlace c p) s = { s with stackRecs := r, saws := v }
      ∧ (∀ q : Place, r[q] = if q ∈ l then s.stackRecs[q].map (clearUser c) else s.stackRecs[q])
      ∧ ((∀ w : Saw, s.saws[w].releasePending = false) → v = s.saws) := by
  induction l generalizing s with
  | nil => exact ⟨s.stackRecs, s.saws, rfl, fun q => (if_neg List.not_mem_nil).symm, fun _ => rfl⟩
  | cons p rest ih =>
    obtain ⟨v, hfirst, hsaws⟩ := releasePlace_frame hother p
    obtain ⟨r, v', hrest, hrecs, hsaws'⟩ := ih (s := s.releasePlace c p) (by
      rw [hfirst]
      exact hother)
    refine ⟨r, v', ?_, fun q => ?_, fun hnone => ?_⟩
    · rw [List.foldl_cons, hrest, hfirst]
    · have htwice : ∀ x : StackRec, clearUser c (clearUser c x) = clearUser c x := fun x =>
        if_neg (clearUser_user c x)
      rw [hrecs, hfirst]
      simp only [Fin.getElem_fin, Vector.getElem_set, List.mem_cons, Fin.ext_iff]
      by_cases hp : p.val = q.val
      · simp only [hp, true_or, if_true, Option.map_map, Function.comp_def, htwice, ite_self]
      · have hp' : ¬q.val = p.val := fun e => hp e.symm
        simp only [hp, hp', false_or, if_false]
    · have hkept : v = s.saws := hsaws hnone
      exact (hsaws' (by rw [hfirst, hkept]; exact hnone)).trans (by rw [hfirst, hkept])

theorem mem_allPlaces (p : Place) : p ∈ allPlaces := List.mem_finRange p

/-- Every place claim of the carriage is released (R22). -/
theorem releasePlaces_frame {s : State} {c : Carriage}
    (hother : (s.sq (other c)).state.unmoved = true) :
    ∃ v, s.releasePlaces c = { s with
        stackRecs := s.stackRecs.map fun r => r.map (clearUser c), saws := v }
      ∧ ((∀ w : Saw, s.saws[w].releasePending = false) → v = s.saws) := by
  obtain ⟨r, v, heq, hrecs, hsaws⟩ := releaseList_frame allPlaces hother
  refine ⟨v, ?_, hsaws⟩
  have hall : r = s.stackRecs.map fun r => r.map (clearUser c) := by
    refine Vector.ext fun i hi => ?_
    have hi' := hrecs ⟨i, hi⟩
    rw [if_pos (mem_allPlaces ⟨i, hi⟩)] at hi'
    rw [Vector.getElem_map]
    exact hi'
  rw [← hall]
  exact heq

theorem releasePlaces_free {s : State} {c : Carriage} (p : Place)
    (hother : (s.sq (other c)).state.unmoved = true) : (s.releasePlaces c).userAt p ≠ some c := by
  obtain ⟨v, heq, -⟩ := releasePlaces_frame hother
  rw [heq, Ne, userAt_iff]
  rintro ⟨x, hx, hu⟩
  simp only [Fin.getElem_fin, Vector.getElem_map, Option.map_eq_some_iff] at hx
  obtain ⟨y, -, rfl⟩ := hx
  exact clearUser_user c y hu

/-! ### A carriage that changes its state or gives up its zones -/

/-- A change of state that the other carriage does not wait for sets the state and may make an examination
due (R93). -/
theorem setCarState_frame {s : State} {c : Carriage} (st : CarState)
    (hother : (s.sq (other c)).state.unmoved = true) :
    ∃ e, s.setCarState c st = { s.modSeq c fun q => { q with state := st } with
      todo := { s.todo with exam := e } } := by
  by_cases hsame : (s.sq c).state = st
  · refine ⟨s.todo.exam, ?_⟩
    have hfixed : s.modSeq c (fun q => { q with state := st }) = s :=
      modSeq_fixed (by rw [← hsame])
    rw [hfixed, State.setCarState, if_pos hsame]
  · exact ⟨true, setCarState_eq hother hsame⟩

theorem giveUpZones_holder (s : State) (c : Carriage) (z : Nat) :
    (s.giveUpZones c).holder z = if s.holder z = some c then none else s.holder z := by
  unfold State.holder
  split
  · simp only [State.giveUpZones, dueExam_arb, modRec_arb, State.releaseZones, mapZones_arb,
      Vector.getElem_ofFn, Bool.not_false, Bool.and_true, decide_eq_true_eq]
    split
    · next h => exact (if_pos h).symm
    · next h => exact (if_neg h).symm
  · exact (ite_self _).symm

/-! ### E-STOP on one carriage -/

theorem leftBy_congr {s u : State} (h : u.queue = s.queue) (c : Carriage) :
    u.leftBy c ↔ s.leftBy c := by
  rw [State.leftBy, State.leftBy, h]

theorem userAt_congr {s u : State} (h : u.stackRecs = s.stackRecs) (p : Place) :
    u.userAt p = s.userAt p := by
  rw [State.userAt, State.userAt, h]

theorem Told.pt {s u : State} (h : Told s u) (c : Carriage) : u.pt c = s.pt c := by
  rw [State.pt, State.pt, h.port]

theorem Told.arec {s u : State} (h : Told s u) (c : Carriage) : u.arec c = s.arec c := by
  rw [State.arec, State.arec, h.arb]

theorem claimOf_noWaiting {s : State} (h : s.arb.waiting = []) (c : Carriage) :
    s.claimOf c = none := by
  rw [State.claimOf, h]
  rfl

/-- What an E-STOP on one carriage leaves of the rest. -/
structure StopLeaves (s v : State) (c : Carriage) : Prop where
  exam : ExamOnly s v
  seq : ∃ a l, v.sq (other c) = { s.sq (other c) with ask := a, latched := l }
  drive : v.pt (other c) = s.pt (other c)
  zones : ∀ z, v.holder z = some (other c) → s.holder z = some (other c)
  record : v.arec (other c) = s.arec (other c)
  orders : ∀ d, s.leftBy d → v.leftBy d
  users : ∀ d p, v.userAt p = some d → s.userAt p = some d
  cell : v.cell = s.cell
  counters : v.counters = s.counters
  lines : v.lines = s.lines

namespace StopLeaves
variable {s u v : State} {c : Carriage}

theorem refl (s : State) (c : Carriage) : StopLeaves s s c :=
  ⟨.refl s, ⟨_, _, rfl⟩, rfl, fun _ h => h, rfl, fun _ h => h, fun _ _ h => h, rfl, rfl, rfl⟩

theorem trans (h : StopLeaves s u c) (k : StopLeaves u v c) : StopLeaves s v c := by
  obtain ⟨a, l, hseq⟩ := h.seq
  obtain ⟨a', l', kseq⟩ := k.seq
  exact ⟨h.exam.trans k.exam, ⟨a', l', by rw [kseq, hseq]⟩, k.drive.trans h.drive,
    fun z hz => h.zones z (k.zones z hz), k.record.trans h.record, fun d hd => k.orders d (h.orders d hd),
    fun d p hp => h.users d p (k.users d p hp), k.cell.trans h.cell, k.counters.trans h.counters,
    k.lines.trans h.lines⟩

theorem state (h : StopLeaves s u c) : (u.sq (other c)).state = (s.sq (other c)).state := by
  obtain ⟨a, l, hseq⟩ := h.seq
  rw [hseq]

theorem load (h : StopLeaves s u c) : (u.sq (other c)).load = (s.sq (other c)).load := by
  obtain ⟨a, l, hseq⟩ := h.seq
  rw [hseq]

theorem modPort (h : StopLeaves s u c) (f) : StopLeaves s (u.modPort c f) c :=
  h.trans ⟨(ExamOnly.refl u).modPort c f, ⟨_, _, rfl⟩, modPort_pt_other u c f, fun _ k => k, rfl,
    fun _ k => k, fun _ _ k => k, rfl, rfl, rfl⟩

theorem modSeq (h : StopLeaves s u c) (f) : StopLeaves s (u.modSeq c f) c :=
  h.trans ⟨(ExamOnly.refl u).modSeq c f, ⟨_, _, modSeq_sq_other u c f⟩, rfl, fun _ k => k, rfl,
    fun _ k => k, fun _ _ k => k, rfl, rfl, rfl⟩

theorem modRec (h : StopLeaves s u c) (f) : StopLeaves s (u.modRec c f) c :=
  h.trans ⟨(ExamOnly.refl u).modRec c f, ⟨_, _, rfl⟩, rfl, fun _ k => k, modRec_arec_other u c f,
    fun _ k => k, fun _ _ k => k, rfl, rfl, rfl⟩

theorem handBack (h : StopLeaves s u c) : StopLeaves s (u.handBack c) c := by
  have hback := (Told.refl u).handBack c
  refine h.trans ⟨.of_unmoved hback.unmoved, hback.seq _, ?_, fun z k => ?_, ?_,
    fun d k => handBack_keeps_leftBy k c, fun d p k => ?_, hback.cell, hback.counters, hback.lines⟩
  · rw [State.pt, hback.port]
    rfl
  · rwa [State.holder, hback.arb] at k
  · rw [State.arec, hback.arb]
    rfl
  · rwa [State.userAt, hback.stackRecs] at k

theorem releasePlaces (h : StopLeaves s u c) (hother : (u.sq (other c)).state.unmoved = true) :
    StopLeaves s (u.releasePlaces c) c := by
  obtain ⟨v, heq, -⟩ := releasePlaces_frame hother
  refine h.trans ?_
  rw [heq]
  refine ⟨⟨rfl, rfl, rfl, rfl, rfl, rfl⟩, ⟨_, _, rfl⟩, rfl, fun _ k => k, rfl, fun _ k => k,
    fun d p k => ?_, rfl, rfl, rfl⟩
  obtain ⟨r, hr, huser⟩ := (userAt_iff _ p d).1 k
  simp only [Fin.getElem_fin, Vector.getElem_map, Option.map_eq_some_iff] at hr
  obtain ⟨x, hx, rfl⟩ := hr
  by_contra hnot
  exact clearUser_keeps (fun e => hnot ((userAt_iff u p d).2 ⟨x, hx, e⟩)) huser

theorem setExam (h : StopLeaves s u c) (e : Bool) :
    StopLeaves s { u with todo := { u.todo with exam := e } } c :=
  h.trans ⟨⟨rfl, rfl, rfl, rfl, rfl, rfl⟩, ⟨_, _, rfl⟩, rfl, fun _ k => k, rfl, fun _ k => k,
    fun _ _ k => k, rfl, rfl, rfl⟩

theorem setCarState (h : StopLeaves s u c) (hother : (u.sq (other c)).state.unmoved = true) (st) :
    StopLeaves s (u.setCarState c st) c := by
  obtain ⟨e, heq⟩ := setCarState_frame st hother
  rw [heq]
  exact (h.modSeq fun q => { q with state := st }).setExam e

theorem releaseZones (h : StopLeaves s u c) (p) : StopLeaves s (u.releaseZones c p) c := by
  refine h.trans ⟨(ExamOnly.refl u).mapZones _, ⟨(u.sq (other c)).ask, (u.sq (other c)).latched,
      mapZones_sq u _ (other c)⟩, mapZones_pt u _ (other c), fun z k => ?_, mapZones_arec u _ (other c),
    fun _ k => (leftBy_congr (mapZones_queue u _) _).2 k,
    fun _ p k => (userAt_congr (mapZones_stackRecs u _) p).symm.trans k, mapZones_cell u _,
    mapZones_counters u _, mapZones_lines u _⟩
  unfold State.holder at k ⊢
  split at k
  · simp only [State.releaseZones, mapZones_arb, Vector.getElem_ofFn] at k
    split at k
    · exact absurd k.symm (Option.some_ne_none _)
    · next hz _ => rw [dif_pos hz]; exact k
  · exact absurd k.symm (Option.some_ne_none _)

theorem giveUpZones (h : StopLeaves s u c) : StopLeaves s (u.giveUpZones c) c :=
  ((h.releaseZones _).modRec _).setExam true

end StopLeaves

/-- What an E-STOP makes of a carriage (R115, R139). -/
structure EStopped (s v : State) (c : Carriage) : Prop where
  state : (v.sq c).state = .stopped
  load : (v.sq c).load = (s.sq c).load
  work : (v.sq c).work = none
  suspended : (v.sq c).suspended = []
  resume : (v.sq c).resumePending = false
  link : (v.pt c).link = .disabled
  zones : ∀ z, v.holder z ≠ some c
  record : v.arec c = ⟨(s.arec c).accepted, none, none⟩
  orders : v.leftBy c
  users : (v.pt c).stopping = true ∨ ∀ p, v.userAt p ≠ some c

/-- The E-STOP on the other carriage leaves a stopped one as it is. -/
theorem EStopped.keeps {s u v : State} {c : Carriage} (h : EStopped s u (other c))
    (k : StopLeaves u v c) : EStopped s v (other c) := by
  obtain ⟨a, l, hseq⟩ := k.seq
  refine ⟨?_, ?_, ?_, ?_, ?_, ?_, fun z hz => h.zones z (k.zones z hz), k.record.trans h.record,
    k.orders _ h.orders, ?_⟩
  · rw [hseq]; exact h.state
  · rw [hseq]; exact h.load
  · rw [hseq]; exact h.work
  · rw [hseq]; exact h.suspended
  · rw [hseq]; exact h.resume
  · rw [k.drive]; exact h.link
  · rw [k.drive]
    exact h.users.imp id fun hfree p hp => hfree p (k.users _ p hp)

theorem disable_frame (s : State) (c : Carriage) : ∃ sent stop, s.disable c = s.modPort c fun d =>
    { d with sent := sent, stopping := stop, link := .disabled, clearPending := false } := by
  rw [State.disable]
  split
  · exact ⟨(s.pt c).sent, (s.pt c).stopping, by cases c <;> rfl⟩
  · refine ⟨sentTo (s.pt c) .stop, true, ?_⟩
    rw [sendStop_eq]
    cases c <;> rfl

/-- The sequencer of a carriage at an E-STOP, but for its state (R139). -/
def Sequencer.disabled (q : Sequencer) : Sequencer := { q.cleared with resumePending := false }

/-- A carriage disabled at an E-STOP, its work given back, and its places released unless its drive has yet
to stop (R139). -/
def State.workless (s : State) (c : Carriage) : State :=
  (((s.disable c).handBack c).modSeq c Sequencer.disabled).releaseUnlessStopping c

section
variable {s : State} {c : Carriage} (hother : (s.sq (other c)).state.unmoved = true)
include hother

theorem workless_leaves : StopLeaves s (s.workless c) c
    ∧ (s.workless c).sq c = (((s.disable c).handBack c).sq c).disabled
    ∧ ((s.workless c).pt c).link = .disabled ∧ (s.workless c).arec c = s.arec c
    ∧ (s.workless c).leftBy c
    ∧ (((s.workless c).pt c).stopping = true ∨ ∀ p, (s.workless c).userAt p ≠ some c) := by
  obtain ⟨sent, stop, hdisable⟩ := disable_frame s c
  have hback := (Told.refl (s.disable c)).handBack c
  have hleft : StopLeaves s (((s.disable c).handBack c).modSeq c Sequencer.disabled) c := by
    rw [hdisable]
    exact (((StopLeaves.refl s c).modPort _).handBack).modSeq _
  have hlink : ((((s.disable c).handBack c).modSeq c Sequencer.disabled).pt c).link = .disabled := by
    rw [modSeq_pt, hback.pt, hdisable, modPort_pt_self]
  have harb : (((s.disable c).handBack c).modSeq c Sequencer.disabled).arb = s.arb :=
    (modSeq_arb _ _ _).trans (hback.arb.trans (by rw [hdisable, modPort_arb]))
  have harec : (((s.disable c).handBack c).modSeq c Sequencer.disabled).arec c = s.arec c :=
    congrArg (fun a : Arbiter => a.records.get c) harb
  have horders : (((s.disable c).handBack c).modSeq c Sequencer.disabled).leftBy c :=
    (leftBy_congr (modSeq_queue _ _ _) c).2 (handBack_leftBy (s.disable c) c)
  have hsq : (((s.disable c).handBack c).modSeq c Sequencer.disabled).sq c
      = (((s.disable c).handBack c).sq c).disabled := modSeq_sq_self _ _ _
  have hstate := hleft.state
  rw [State.workless, State.releaseUnlessStopping]
  generalize ((s.disable c).handBack c).modSeq c Sequencer.disabled = u at *
  split
  · next hstop => exact ⟨hleft, hsq, hlink, harec, horders, .inl hstop⟩
  · have hunmoved : (u.sq (other c)).state.unmoved = true := by rw [hstate]; exact hother
    have hfree := fun p => releasePlaces_free p hunmoved
    obtain ⟨v, heq, -⟩ := releasePlaces_frame hunmoved
    refine ⟨hleft.releasePlaces hunmoved, ?_, ?_, ?_, ?_, .inr hfree⟩
    · rw [heq]; exact hsq
    · rw [heq]; exact hlink
    · rw [heq]; exact harec
    · rw [heq]; exact horders

theorem workless_load : ((s.workless c).sq c).load = (s.sq c).load := by
  obtain ⟨sent, stop, hdisable⟩ := disable_frame s c
  have hload := ((Told.refl (s.disable c)).handBack c).load c
  obtain ⟨-, hsq, -⟩ := workless_leaves hother
  rw [hsq]
  refine hload.trans ?_
  rw [hdisable, modPort_sq]

end

/-- A carriage enters STOPPED and gives up its zones and its ordered move (R115, R139). -/
def State.standsDown (s : State) (c : Carriage) : State :=
  ((s.modRec c fun r => { r with ordered := none }).setCarState c .stopped).giveUpZones c

section
variable {s : State} {c : Carriage} (hother : (s.sq (other c)).state.unmoved = true)
include hother

theorem standsDown_leaves : StopLeaves s (s.standsDown c) c :=
  (((StopLeaves.refl s c).modRec _).setCarState hother _).giveUpZones

theorem standsDown_sq : (s.standsDown c).sq c = { s.sq c with state := .stopped } := by
  obtain ⟨e, hset⟩ := setCarState_frame (s := s.modRec c fun r => { r with ordered := none })
    .stopped hother
  rw [State.standsDown, giveUpZones_sq, hset]
  exact modSeq_sq_self (s.modRec c fun r => { r with ordered := none }) c fun q =>
    { q with state := .stopped }

theorem standsDown_arec : (s.standsDown c).arec c = ⟨(s.arec c).accepted, none, none⟩ := by
  obtain ⟨e, hset⟩ := setCarState_frame (s := s.modRec c fun r => { r with ordered := none })
    .stopped hother
  have hgiven : ∀ v : State, (v.giveUpZones c).arec c = { v.arec c with zone := none } := fun v =>
    modRec_arec_self (v.releaseZones c fun _ => false) c fun r => { r with zone := none }
  have hordered : ((s.modRec c fun r => { r with ordered := none }).setCarState c .stopped).arec c
      = { s.arec c with ordered := none } := by
    rw [hset]
    exact modRec_arec_self s c fun r => { r with ordered := none }
  rw [State.standsDown, hgiven, hordered]

theorem standsDown_rest : (s.standsDown c).queue = s.queue ∧ (s.standsDown c).port = s.port
    ∧ (s.standsDown c).stackRecs = s.stackRecs := by
  obtain ⟨e, hset⟩ := setCarState_frame (s := s.modRec c fun r => { r with ordered := none })
    .stopped hother
  rw [State.standsDown, hset]
  exact ⟨rfl, rfl, rfl⟩

omit hother in
theorem standsDown_holder (z : Nat) : (s.standsDown c).holder z ≠ some c := by
  rw [State.standsDown, giveUpZones_holder]
  split
  · exact fun e => Option.some_ne_none c e.symm
  · next hnot => exact hnot

/-- E-STOP on one carriage: it is stopped, and the rest is left (R139). -/
theorem eStopCarriage_stops (hwait : s.arb.waiting = []) :
    EStopped s (s.eStopCarriage c) c ∧ StopLeaves s (s.eStopCarriage c) c := by
  have hload := workless_load hother
  obtain ⟨hleft, hsq, hlink, harec, horders, husers⟩ := workless_leaves hother
  have hstop : s.eStopCarriage c = ((s.workless c).withdrawClaim c).standsDown c := rfl
  rw [withdrawClaim_none (claimOf_noWaiting (hleft.exam.claims.trans hwait) c)] at hstop
  have hunmoved : ((s.workless c).sq (other c)).state.unmoved = true := by
    rw [hleft.state]
    exact hother
  obtain ⟨hqueue, hport, hrecs⟩ := standsDown_rest hunmoved
  have hdrive : ((s.workless c).standsDown c).pt c = (s.workless c).pt c := by
    rw [State.pt, State.pt, hport]
  have hsame := standsDown_sq hunmoved
  rw [hstop]
  refine ⟨⟨?_, ?_, ?_, ?_, ?_, ?_, standsDown_holder, ?_, (leftBy_congr hqueue c).2 horders, ?_⟩,
    hleft.trans (standsDown_leaves hunmoved)⟩
  · rw [hsame]
  · rw [hsame]; exact hload
  · rw [hsame, hsq]; rfl
  · rw [hsame, hsq]; rfl
  · rw [hsame, hsq]; rfl
  · rw [hdrive]; exact hlink
  · rw [standsDown_arec hunmoved, harec]
  · rw [hdrive]
    exact husers.imp id fun hfree p hp => hfree p ((userAt_congr hrecs p).symm.trans hp)

end

/-! ### E-STOP on the part -/

theorem dropAsk_leaves (s : State) (c : Carriage) : StopLeaves s (s.dropAsk c) c :=
  (StopLeaves.refl s c).modSeq _

/-- A carriage stopped at an E-STOP stays so as its work notice is dropped. -/
theorem EStopped.dropAsk {s v : State} {c : Carriage} (h : EStopped s v c) :
    EStopped s (v.dropAsk c) c := by
  have hsq : (v.dropAsk c).sq c = { v.sq c with ask := false } := modSeq_sq_self v c _
  refine ⟨?_, ?_, ?_, ?_, ?_, h.link, h.zones, h.record, h.orders, h.users⟩
  · rw [hsq]; exact h.state
  · rw [hsq]; exact h.load
  · rw [hsq]; exact h.work
  · rw [hsq]; exact h.suspended
  · rw [hsq]; exact h.resume

/-- The records of E-STOP after both carriages have been stopped. -/
def State.bothStopped (s : State) : State :=
  (((s.eStopCarriage .A).eStopCarriage .B).dropAsk .A).dropAsk .B

theorem eStopOn_eq (s : State) : s.eStopOn = s.bothStopped.raise .eStop .cell 0 := rfl

section
variable {s : State} (hwait : s.arb.waiting = []) (hs : s.noChoosers = true)
include hwait hs

theorem bothStopped_stops : (∀ c, EStopped s s.bothStopped c ∧ (s.bothStopped.sq c).ask = false)
    ∧ ExamOnly s s.bothStopped ∧ s.bothStopped.cell = s.cell
    ∧ s.bothStopped.counters = s.counters ∧ s.bothStopped.lines = s.lines := by
  have hall := (noChoosers_iff s).1 hs
  obtain ⟨hA, hleftA⟩ := eStopCarriage_stops (hall (other .A)) hwait
  have hAstate : ((s.eStopCarriage .A).sq (other .B)).state.unmoved = true := by
    rw [show other .B = .A from rfl, hA.state]
    rfl
  obtain ⟨hB, hleftB⟩ := eStopCarriage_stops hAstate (hleftA.exam.claims.trans hwait)
  have hA' : EStopped s ((s.eStopCarriage .A).eStopCarriage .B) .A :=
    EStopped.keeps (c := .B) hA hleftB
  have hB' : EStopped s ((s.eStopCarriage .A).eStopCarriage .B) .B :=
    ⟨hB.state, hB.load.trans hleftA.load, hB.work, hB.suspended, hB.resume, hB.link, hB.zones,
      hB.record.trans (congrArg (fun r : ArbRecord => (⟨r.accepted, none, none⟩ : ArbRecord))
        hleftA.record), hB.orders, hB.users⟩
  have hdropA := dropAsk_leaves ((s.eStopCarriage .A).eStopCarriage .B) .A
  have hdropB := dropAsk_leaves (((s.eStopCarriage .A).eStopCarriage .B).dropAsk .A) .B
  have hA2 : EStopped s s.bothStopped .A := EStopped.keeps (c := .B) hA'.dropAsk hdropB
  have hB2 : EStopped s s.bothStopped .B := (EStopped.keeps (c := .A) hB' hdropA).dropAsk
  refine ⟨fun c => ?_, hleftA.exam.trans (hleftB.exam.trans (hdropA.exam.trans hdropB.exam)),
    hdropB.cell.trans (hdropA.cell.trans (hleftB.cell.trans hleftA.cell)),
    hdropB.counters.trans (hdropA.counters.trans (hleftB.counters.trans hleftA.counters)),
    hdropB.lines.trans (hdropA.lines.trans (hleftB.lines.trans hleftA.lines))⟩
  cases c with
  | A => exact ⟨hA2, rfl⟩
  | B => exact ⟨hB2, rfl⟩

end

/-- The E-STOP alarm leaves a stopped carriage as it is. -/
theorem EStopped.raise {s v : State} {c : Carriage} (h : EStopped s v c) (kind src d) :
    EStopped s (v.raise kind src d) c := by
  obtain ⟨l, u, k, heq⟩ := raise_frame v kind src d
  rw [heq]
  exact ⟨h.state, h.load, h.work, h.suspended, h.resume, h.link, h.zones, h.record, h.orders, h.users⟩

/-- E-STOP on the part: both carriages are stopped and the alarm is pending (R139). -/
theorem eStopOn_stops {s : State} (hwait : s.arb.waiting = []) (hs : s.noChoosers = true) :
    (∀ c, EStopped s s.eStopOn c ∧ (s.eStopOn.sq c).ask = false)
    ∧ ExamOnly s s.eStopOn ∧ s.eStopOn.cell = s.cell ∧ s.eStopOn.counters = s.counters
    ∧ s.eStopOn.lines = s.lines ∧ hasEvent s.eStopOn.events.entries .eStop .cell 0 := by
  obtain ⟨hstopped, hexam, hcell, hcounters, hlines⟩ := bothStopped_stops hwait hs
  rw [eStopOn_eq]
  generalize s.bothStopped = v at *
  have hraised := (Unmoved.refl v).raise .eStop .cell 0
  refine ⟨fun c => ⟨(hstopped c).1.raise _ _ _, ?_⟩, hexam.trans (.of_unmoved hraised), ?_, ?_, ?_,
    raise_alarm _ _ _ rfl⟩
  · rw [raise_sq]
    exact (hstopped c).2
  · rw [raise_eq_reporting]
    exact hcell
  · rw [raise_eq_reporting]
    exact hcounters
  · rw [raise_eq_reporting]
    exact hlines

theorem heldZones_nil {s : State} {c : Carriage} (h : ∀ z, s.holder z ≠ some c) :
    s.heldZones c = [] := by
  refine List.eq_nil_iff_forall_not_mem.2 fun z hz => h z ?_
  exact (mem_heldZones.1 hz).2

theorem enable_frame {s : State} (c : Carriage)
    (hother : (s.sq (other c)).state.unmoved = true) :
    ∃ e, s.enable c = { (s.modPort c fun d => { d with link := .notReady }).modSeq c fun q =>
      { q with state := .unreferenced } with todo := { s.todo with exam := e } } :=
  setCarState_frame (s := s.modPort c fun d => { d with link := .notReady }) .unreferenced hother

/-- Both carriages are UNREFERENCED as the enable is given again (R140). -/
theorem enables_frame {s : State} (hs : s.noChoosers = true) :
    ∃ e, (s.enable .A).enable .B = { s with
      seq := ⟨{ s.seq.a with state := .unreferenced }, { s.seq.b with state := .unreferenced }⟩
      port := ⟨{ s.port.a with link := .notReady }, { s.port.b with link := .notReady }⟩
      todo := { s.todo with exam := e } } := by
  obtain ⟨e, hA⟩ := enable_frame .A ((noChoosers_iff s).1 hs .B)
  obtain ⟨e', hB⟩ := enable_frame (s := s.enable .A) .B (by rw [hA]; rfl)
  refine ⟨e', ?_⟩
  rw [hB, hA]
  rfl

/-- Settles O57: E-STOP stops both carriages, and its release leaves them UNREFERENCED. -/
theorem eStopStops : Obligations.EStopStops := by
  intro s hquiet
  obtain ⟨hrested, hclaims, hs⟩ := (quiet_iff s).1 hquiet
  refine ⟨fun hline => (Unmoved.refl s).next_settle hrested (if_pos hline), fun hline => ?_,
    fun hline => (Unmoved.refl s).next_settle hrested
      (if_neg (by rw [hline]; exact Bool.false_ne_true)), fun hline => ?_⟩
  · have hup : s.eStopUp = (s.setEStopLine true).eStopOn :=
      if_neg (by rw [hline]; exact Bool.false_ne_true)
    have hline' : ExamOnly s (s.setEStopLine true) := ⟨rfl, rfl, rfl, rfl, rfl, rfl⟩
    have hstops := eStopOn_stops (s := s.setEStopLine true) ((noClaims_iff s).1 hclaims).1 hs
    rw [← hup] at hstops
    obtain ⟨hstopped, hexam, hcell, hcounters, hlines, e, he, hkind, hsource, -⟩ := hstops
    have hsettled := (hline'.trans hexam).settles hrested hclaims
    refine ⟨{ s.eStopUp with todo := s.todo }, congrArg (fun u => (.next u : Result)) hsettled,
      congrArg Lines.eStop hlines, fun c => ?_, ⟨e, he, hkind, hsource⟩, hcell, hcounters⟩
    obtain ⟨h, hask⟩ := hstopped c
    exact ⟨h.state, h.load, h.work, h.suspended, h.resume, hask, h.link,
      heldZones_nil (s := { s.eStopUp with todo := s.todo }) h.zones, h.record, h.orders, h.users⟩
  · obtain ⟨e, henabled⟩ := enables_frame (s := s.setEStopLine false) hs
    have hdown : s.eStopDown = ((((s.setEStopLine false).enable .A).enable .B).clearEvents
        (sameEvent .eStop .cell)).dueExam := if_pos hline
    have hexam : ExamOnly s (((s.setEStopLine false).enable .A).enable .B) := by
      rw [henabled]
      exact ⟨rfl, rfl, rfl, rfl, rfl, rfl⟩
    have hsettled := (hexam.clearEvents (sameEvent .eStop .cell)).dueExam.settles hrested hclaims
    rw [← hdown] at hsettled
    refine congrArg (fun u => (.next u : Result)) (hsettled.trans ?_)
    rw [hdown, henabled]
    simp only [State.setEStopLine, State.clearEvents, State.dueExam, sameEvent]

end Sys2Proof.Machine
end

section
/-! The access gates (O56) and power-on (O58). -/

namespace Sys2Proof.Machine

/-! ### An examination with no claim waiting -/

theorem settle_pass {s t : State} (hdue : s.todo = { Todo.none with exam := true })
    (hpass : s.examPass = t) (ht : t.todo = Todo.none) : s.settle = t := by
  have hexam : s.examine = t := by
    have hsecond : State.examineN 31 t = t := if_neg (by rw [ht]; exact Bool.false_ne_true)
    have hfirst : s.examine = State.examineN 31 s.examPass := if_pos (by rw [hdue])
    rw [hfirst, hpass, hsecond]
  unfold State.settle
  unfold State.settleN
  rw [hexam]
  dsimp only
  rw [ht]
  rfl

/-- With no claim waiting the examination judges the closings alone (R93). -/
theorem examPass_judges {s t : State} (hwait : s.arb.waiting = [])
    (ht : ({ s with todo := { s.todo with exam := false } } : State).judgeClosings = t)
    (htwait : t.arb.waiting = []) : s.examPass = t := by
  have hgrants : ({ s with todo := { s.todo with exam := false } } : State).grantClaims
      = { s with todo := { s.todo with exam := false } } := by
    simp only [State.grantClaims, hwait, List.filter_nil]
  rw [State.examPass, hgrants, ht, State.helpClaims, htwait]
  rfl

theorem raise_arb (s : State) (kind src d) : (s.raise kind src d).arb = s.arb :=
  ((Unmoved.refl s).raise kind src d).arb

theorem drawFor_arb (s : State) (r : Option ZoneRange) : (s.drawFor r).arb = s.arb := by
  cases r <;> rfl

/-- The arbiter as a gate's closing is granted (R106). -/
theorem closeGate_arb (s : State) (g : Gate) (r : Option ZoneRange) : (s.closeGate g r).arb
    = { s.arb with
      zones := sourced s r ⟨4 + g.val, by omega⟩ true
      gates := s.arb.gates.set g.val ⟨.granted r, false, true⟩ } := by
  rw [State.closeGate, raise_arb, drawFor_arb]
  rfl

theorem judgeGate_arb (s : State) (g : Gate) : (s.judgeGate g).arb = s.arb
    ∨ ∃ r, (s.judgeGate g).arb = { s.arb with
      zones := sourced s r ⟨4 + g.val, by omega⟩ true
      gates := s.arb.gates.set g.val ⟨.granted r, false, true⟩ } := by
  unfold State.judgeGate
  split
  · next r _ =>
    split
    · exact .inr ⟨r, closeGate_arb s g r⟩
    · exact .inl rfl
  · exact .inl rfl

theorem judgeGate_gates_other (s : State) {g h : Gate} (hne : h ≠ g) :
    (s.judgeGate g).arb.gates[h] = s.arb.gates[h] := by
  have hval : g.val ≠ h.val := fun e => hne (Fin.ext e.symm)
  rcases judgeGate_arb s g with harb | ⟨r, harb⟩
  · rw [harb]
  · rw [harb]
    simp only [Fin.getElem_fin]
    exact Vector.getElem_set_ne _ _ hval

theorem judgeGate_host (s : State) (g : Gate) : (s.judgeGate g).arb.host = s.arb.host := by
  rcases judgeGate_arb s g with harb | ⟨r, harb⟩ <;> rw [harb]

theorem judgeGate_claims (s : State) (g : Gate) : (s.judgeGate g).arb.waiting = s.arb.waiting := by
  rcases judgeGate_arb s g with harb | ⟨r, harb⟩ <;> rw [harb]

/-- Where one gate's closing alone may be AWAITING, the closings are judged by judging it (R106). -/
theorem judgeClosings_gate {s : State} {g : Gate}
    (hgates : ∀ h, h ≠ g → s.arb.gates[h].isAwaiting = false) (hhost : s.arb.host.awaiting = none) :
    s.judgeClosings = ((s.judgeGate g).clearOut .A).clearOut .B := by
  have hgate : (s.judgeGate 0).judgeGate 1 = s.judgeGate g := by
    rcases Fin.exists_fin_two.1 ⟨g, rfl⟩ with hg | hg
    · subst hg
      refine judgeGate_noClaims _ 1 ?_
      rw [judgeGate_gates_other s (by decide)]
      exact hgates 1 (by decide)
    · subst hg
      rw [judgeGate_noClaims s 0 (hgates 0 (by decide))]
  have hjudged : (s.judgeGate g).judgeHost = s.judgeGate g := by
    simp only [State.judgeHost, judgeGate_host, hhost]
  rw [State.judgeClosings, hgate, hjudged]

theorem clearOut_none {s : State} {c : Carriage} (h : s.closingsOver c = []) : s.clearOut c = s := by
  simp only [State.clearOut, h]

/-- A carriage in motion is not cleared out (R105). -/
theorem clearOut_moves {s : State} {c : Carriage}
    (h : (s.sq c).state = .moving ∨ (s.sq c).state = .homing) : s.clearOut c = s := by
  have himmovable : (s.sq c).state.immovable = false := by rcases h with h | h <;> rw [h] <;> rfl
  have hclaiming : ¬((s.sq c).state = .claiming ∨ s.movable c = true) := by
    unfold State.movable
    rcases h with h | h <;> rw [h] <;> simp
  cases hover : s.closingsOver c with
  | nil => exact clearOut_none hover
  | cons k ks =>
    simp only [State.clearOut, hover, himmovable, Bool.false_eq_true, if_false]
    split
    · rfl
    · exact if_neg (by simpa using hclaiming)

/-! ### The closing of a gate -/

theorem rangeHeld_eq_false (s : State) (x : ZoneRange) : s.rangeHeld x = false
    ↔ ∀ z : Fin 16, inRange x z.val = true → s.arb.zones[z].holder = none := by
  have hholder : ∀ z : Fin 16, s.holder z.val = s.arb.zones[z].holder := fun z =>
    dif_pos z.isLt
  rw [State.rangeHeld, List.any_eq_false]
  refine ⟨fun h z hz => ?_, fun h z hz hheld => ?_⟩
  · have hz' := h z.val (List.mem_range.2 z.isLt)
    rw [hz, Bool.true_and, hholder, Option.not_isSome_iff_eq_none] at hz'
    exact hz'
  · rw [Bool.and_eq_true, Option.isSome_iff_ne_none] at hheld
    have hlt := List.mem_range.1 hz
    exact hheld.2 ((hholder ⟨z, hlt⟩).trans (h ⟨z, hlt⟩ hheld.1))

/-- A range is clear: no zone of it is held, and for a range of zones no carriage is HOMING (R106). -/
def State.clearOf (s : State) (r : Option ZoneRange) : Prop :=
  ∀ x, r = some x → (∀ z : Fin 16, inRange x z.val = true → s.arb.zones[z].holder = none)
    ∧ (s.sq .A).state ≠ .homing ∧ (s.sq .B).state ≠ .homing

theorem rangeClear_iff (s : State) (r : Option ZoneRange) : s.rangeClear r = true ↔ s.clearOf r := by
  cases r with
  | none => exact ⟨fun _ x h => absurd h.symm (Option.some_ne_none x), fun _ => rfl⟩
  | some x =>
    have hclear : s.clearOf (some x)
        ↔ (∀ z : Fin 16, inRange x z.val = true → s.arb.zones[z].holder = none)
          ∧ (s.sq .A).state ≠ .homing ∧ (s.sq .B).state ≠ .homing :=
      ⟨fun h => h x rfl, fun h y hy => by cases hy; exact h⟩
    rw [hclear, ← rangeHeld_eq_false]
    simp [State.rangeClear, State.anyHoming]

section
variable {s : State} {g : Gate}

/-- The state in which a request for access is judged (R104). -/
def State.asked (s : State) (g : Gate) : State :=
  (s.setAccessLine g true).modGate g fun x => ⟨.awaiting s.cell.gates[g], false, x.grant⟩

theorem accessUp_asks (hline : s.lines.access[g] = false) : s.accessUp g = (s.asked g).dueExam :=
  if_neg (by rw [hline]; exact Bool.false_ne_true)

theorem modGate_gate (s : State) (g : Gate) (f : GateRec → GateRec) :
    (s.modGate g f).arb.gates[g] = f s.arb.gates[g] := by
  simp only [State.modGate, Fin.getElem_fin, Vector.getElem_set_self]

theorem modGate_gate_other (s : State) {g h : Gate} (f : GateRec → GateRec) (hne : h ≠ g) :
    (s.modGate g f).arb.gates[h] = s.arb.gates[h] := by
  have hval : g.val ≠ h.val := fun e => hne (Fin.ext e.symm)
  simp only [State.modGate, Fin.getElem_fin]
  exact Vector.getElem_set_ne _ _ hval

theorem asked_gate (s : State) (g : Gate) :
    (s.asked g).arb.gates[g].state = .awaiting s.cell.gates[g] :=
  congrArg GateRec.state (modGate_gate (s.setAccessLine g true) g _)

theorem judgeGate_asked (s : State) (g : Gate) : (s.asked g).judgeGate g
    = if s.rangeClear s.cell.gates[g] then (s.asked g).closeGate g s.cell.gates[g]
      else s.asked g := by
  have hclear : (s.asked g).rangeClear s.cell.gates[g] = s.rangeClear s.cell.gates[g] := rfl
  rw [State.judgeGate, asked_gate]
  dsimp only
  rw [hclear]

/-- The settling of a request for access. -/
theorem asked_settles {t : State} (hrested : s.rested = true) (hwait : s.arb.waiting = [])
    (hgates : ∀ h, h ≠ g → s.arb.gates[h].isAwaiting = false) (hhost : s.arb.host.awaiting = none)
    (hline : s.lines.access[g] = false)
    (ht : (((s.asked g).judgeGate g).clearOut .A).clearOut .B = t) (htodo : t.todo = Todo.none)
    (htwait : t.arb.waiting = []) : exec (.accessRequestAsserted g) s = .next t := by
  have hnone := todo_of_rested hrested
  have hothers : ∀ h, h ≠ g → (s.asked g).arb.gates[h].isAwaiting = false := fun h hne => by
    rw [State.asked, modGate_gate_other _ _ hne]
    exact hgates h hne
  have hjudged : (s.asked g).judgeClosings = t := (judgeClosings_gate hothers hhost).trans ht
  have hback : { (s.asked g).dueExam with
      todo := { (s.asked g).dueExam.todo with exam := false } } = s.asked g := by
    have htodo' : (s.asked g).todo = Todo.none := hnone
    have hfalse : ({ (s.asked g).dueExam.todo with exam := false } : Todo) = (s.asked g).todo := by
      rw [dueExam_todo, htodo']
      rfl
    rw [hfalse]
    rfl
  have hpass : (s.asked g).dueExam.examPass = t :=
    examPass_judges hwait (by rw [hback, hjudged]) htwait
  have hdue : (s.asked g).dueExam.todo = { Todo.none with exam := true } :=
    congrArg (fun d : Todo => { d with exam := true }) hnone
  have hsettled : (s.accessUp g).settle = t := by
    rw [accessUp_asks hline]
    exact settle_pass hdue hpass htodo
  exact congrArg (fun u => (.next u : Result)) hsettled

/-- A closing as it is granted, before its notice (R106). -/
def State.gateGranted (s : State) (g : Gate) : State :=
  { s with
    lines := { s.lines with access := s.lines.access.set g.val true }
    arb := { s.arb with
      zones := sourced s s.cell.gates[g] ⟨4 + g.val, by omega⟩ true
      gates := s.arb.gates.set g.val ⟨.granted s.cell.gates[g], false, true⟩ } }

theorem closeGate_asked (s : State) (g : Gate) : (s.asked g).closeGate g s.cell.gates[g]
    = ((s.gateGranted g).drawFor s.cell.gates[g]).raise .zoneClosed (.gate g)
        (s.zoneDetail s.cell.gates[g]) := by
  have hgranted : ((s.asked g).addSource (.gate g) (inOptRange s.cell.gates[g])).modGate g
      (fun _ => ⟨.granted s.cell.gates[g], false, true⟩) = s.gateGranted g := by
    simp only [State.asked, State.setAccessLine, State.addSource, State.mapZones, State.modGate,
      State.gateGranted, Vector.set_set, sourced, sourceIndex]
  rw [State.closeGate, hgranted]
  rfl

end

/-- Where no closing is left AWAITING and no claim waits, no carriage is cleared out. -/
theorem clearOuts_none {s : State} (h : s.noClaims = true) : (s.clearOut .A).clearOut .B = s := by
  rw [clearOut_none (closingsOver_noClaims s .A h), clearOut_none (closingsOver_noClaims s .B h)]

theorem noClaims_of {s : State} (hwait : s.arb.waiting = [])
    (hgates : ∀ g : Gate, s.arb.gates[g].isAwaiting = false) (hhost : s.arb.host.awaiting = none) :
    s.noClaims = true :=
  (noClaims_iff s).2 ⟨hwait, hgates 0, hgates 1, hhost⟩

section
variable {s : State} {g : Gate}

theorem gateGranted_gate (s : State) (g : Gate) :
    (s.gateGranted g).arb.gates[g] = ⟨.granted s.cell.gates[g], false, true⟩ :=
  Vector.getElem_set_self _

theorem gateGranted_gate_other (s : State) {g h : Gate} (hne : h ≠ g) :
    (s.gateGranted g).arb.gates[h] = s.arb.gates[h] :=
  Vector.getElem_set_ne g.isLt h.isLt fun e => hne (Fin.ext e.symm)

theorem gateGranted_noClaims (hwait : s.arb.waiting = [])
    (hgates : ∀ h, h ≠ g → s.arb.gates[h].isAwaiting = false) (hhost : s.arb.host.awaiting = none) :
    (s.gateGranted g).noClaims = true := by
  refine noClaims_of hwait (fun h => ?_) hhost
  by_cases hne : h = g
  · rw [hne, gateGranted_gate]
    rfl
  · rw [gateGranted_gate_other s hne]
    exact hgates h hne

/-- A clear range is closed and granted at once (R106). -/
theorem access_grants (hrested : s.rested = true) (hwait : s.arb.waiting = [])
    (hgates : ∀ h, h ≠ g → s.arb.gates[h].isAwaiting = false) (hhost : s.arb.host.awaiting = none)
    (hline : s.lines.access[g] = false) (hclear : s.clearOf s.cell.gates[g]) :
    exec (.accessRequestAsserted g) s
      = .next (((s.gateGranted g).drawFor s.cell.gates[g]).raise .zoneClosed (.gate g)
        (s.zoneDetail s.cell.gates[g])) := by
  have hgranted := gateGranted_noClaims hwait hgates hhost
  have hwaits : (s.gateGranted g).arb.waiting = [] := hwait
  have htodo : (s.gateGranted g).todo = Todo.none := todo_of_rested hrested
  have hjudged : (s.asked g).judgeGate g
      = ((s.gateGranted g).drawFor s.cell.gates[g]).raise .zoneClosed (.gate g)
        (s.zoneDetail s.cell.gates[g]) := by
    rw [judgeGate_asked, if_pos ((rangeClear_iff s _).2 hclear), closeGate_asked]
  generalize s.gateGranted g = u at *
  have hraised := (Unmoved.refl (u.drawFor s.cell.gates[g])).raise .zoneClosed (.gate g)
    (s.zoneDetail s.cell.gates[g])
  have harb := hraised.arb.trans (drawFor_arb u s.cell.gates[g])
  have hdrawn : (u.drawFor s.cell.gates[g]).todo = u.todo := by cases s.cell.gates[g] <;> rfl
  have hnone : ((u.drawFor s.cell.gates[g]).raise .zoneClosed (.gate g)
      (s.zoneDetail s.cell.gates[g])).noClaims = true := by
    rw [State.noClaims, harb]
    exact hgranted
  refine asked_settles hrested hwait hgates hhost hline ?_
    (hraised.todo.trans (hdrawn.trans htodo)) (by rw [harb, hwaits])
  rw [hjudged, clearOuts_none hnone]

end

/-- Settles O56: a clear range is closed and granted at once, another waits, and the closing ends with
the line. -/
theorem accessGrants : Obligations.AccessGrants := by
  intro s g hrested _ hwait hgates hhost
  have hgranted := access_grants (g := g) hrested hwait hgates hhost
  refine ⟨fun hline => (Unmoved.refl s).next_settle hrested (if_pos hline),
    fun x hline hclear hr => ?_, fun hline hr => ?_, fun hline hclear hmoves => ?_, fun hline => ?_,
    fun hline => (Unmoved.refl s).next_settle hrested
      (if_neg (by rw [hline]; exact Bool.false_ne_true))⟩
  · have hgrant := hgranted hline hclear
    have hdraw : (s.gateGranted g).drawFor s.cell.gates[g] = s.gateGranted g := by rw [hr]; rfl
    have hdetail : s.zoneDetail s.cell.gates[g] = x.first := by rw [hr]; rfl
    rw [hdraw, hdetail] at hgrant
    exact hgrant
  · have hgrant := hgranted hline fun x hx => absurd (hr.symm.trans hx).symm (Option.some_ne_none x)
    have hdraw : (s.gateGranted g).drawFor s.cell.gates[g]
        = { s.gateGranted g with free := s.free + 1 } := by rw [hr]; rfl
    have hdetail : s.zoneDetail s.cell.gates[g] = Config.freeDetail s.free := by rw [hr]; rfl
    rw [hdraw, hdetail] at hgrant
    exact hgrant
  · have hmoving : ∀ c, (s.asked g).clearOut c = s.asked g := fun c =>
      clearOut_moves (s := s.asked g) (hmoves c)
    refine asked_settles hrested hwait hgates hhost hline ?_ (todo_of_rested hrested) hwait
    rw [judgeGate_asked, if_neg (mt (rangeClear_iff s _).1 hclear), hmoving, hmoving]
    rfl
  · have hdown : s.accessDown g = (((s.setAccessLine g false).modGate g fun _ =>
        ⟨.off, false, false⟩).removeSource (.gate g) fun _ => true).dueExam := if_pos hline
    rw [removeSource_all] at hdown
    have hnone : (s.accessDown g).noClaims = true := by
      rw [hdown]
      refine noClaims_of hwait (fun h => ?_) hhost
      by_cases hne : h = g
      · subst hne
        exact congrArg GateRec.isAwaiting (modGate_gate (s.setAccessLine h false) h fun _ =>
          ⟨.off, false, false⟩)
      · exact (congrArg GateRec.isAwaiting (modGate_gate_other (s.setAccessLine g false)
          (fun _ => ⟨.off, false, false⟩) hne)).trans (hgates h hne)
    have htodo := todo_of_rested hrested
    have hdue : (s.accessDown g).todo = { Todo.none with exam := true } := by
      rw [hdown]
      exact congrArg (fun d : Todo => { d with exam := true }) htodo
    have hsettled := settle_noClaims (s.accessDown g) hnone (by rw [hdue]; rfl) (by rw [hdue]; rfl)
    refine congrArg (fun u => (.next u : Result)) (hsettled.trans ?_)
    rw [hdown, ← htodo]
    simp only [State.setAccessLine, State.modGate, State.dueExam, sourceIndex]

/-! ### The end of a step with no zone held -/

theorem sourced_holder (s : State) (r : Option ZoneRange) (k : Fin 7) (b : Bool) {z : Nat}
    (h : z < 16) : (sourced s r k b)[z].holder = s.arb.zones[z].holder := by
  simp only [sourced, Vector.getElem_ofFn]
  split <;> rfl

/-- The change of a gate's closing that is granted, before its notice. -/
def State.gateClosed (s : State) (g : Gate) (r : Option ZoneRange) : State :=
  ((s.addSource (.gate g) (inOptRange r)).modGate g fun _ => ⟨.granted r, false, true⟩).drawFor r

theorem gateClosed_leaves (s : State) (g : Gate) (r : Option ZoneRange) :
    (s.gateClosed g r).seq = s.seq ∧ (s.gateClosed g r).port = s.port
      ∧ (s.gateClosed g r).todo = s.todo := by
  have hdrawn : ∀ u : State, (u.drawFor r).seq = u.seq ∧ (u.drawFor r).port = u.port
      ∧ (u.drawFor r).todo = u.todo := fun u => by cases r <;> exact ⟨rfl, rfl, rfl⟩
  obtain ⟨hseq, hport, htodo⟩ := hdrawn ((s.addSource (.gate g) (inOptRange r)).modGate g
    fun _ => ⟨.granted r, false, true⟩)
  rw [State.gateClosed, hseq, hport, htodo, State.addSource]
  exact ⟨modGate_seq _ _ _, modGate_port _ _ _, modGate_todo _ _ _⟩

theorem closeGate_leaves (s : State) (g : Gate) (r : Option ZoneRange) :
    (s.closeGate g r).seq = s.seq ∧ (s.closeGate g r).port = s.port
      ∧ (s.closeGate g r).todo = s.todo ∧ ∀ z, (s.closeGate g r).holder z = s.holder z := by
  have hclose : s.closeGate g r
      = (s.gateClosed g r).raise .zoneClosed (.gate g) (s.zoneDetail r) := rfl
  have hzones := congrArg Arbiter.zones (closeGate_arb s g r)
  have hholder : ∀ z, (s.closeGate g r).holder z = s.holder z := fun z => by
    unfold State.holder
    split
    · next h =>
      rw [hzones]
      exact sourced_holder s r _ true h
    · rfl
  have hclosed := gateClosed_leaves s g r
  refine ⟨?_, ?_, ?_, hholder⟩
  · rw [hclose, raise_eq_reporting]
    exact hclosed.1
  · rw [hclose, raise_eq_reporting]
    exact hclosed.2.1
  · rw [hclose, raise_eq_reporting]
    exact hclosed.2.2

theorem judgeGate_leaves (s : State) (g : Gate) : (s.judgeGate g).seq = s.seq
    ∧ (s.judgeGate g).port = s.port ∧ (s.judgeGate g).todo = s.todo
    ∧ ∀ z, (s.judgeGate g).holder z = s.holder z := by
  unfold State.judgeGate
  split
  · split
    · exact closeGate_leaves s g _
    · exact ⟨rfl, rfl, rfl, fun _ => rfl⟩
  · exact ⟨rfl, rfl, rfl, fun _ => rfl⟩

theorem closingsOver_noHolder {s : State} {c : Carriage} (h : ∀ z, s.holder z ≠ some c) :
    s.closingsOver c = [] := by
  have hnone : ∀ r, (s.heldZones c).any (inRange r) = false := fun r => by rw [heldZones_nil h]; rfl
  refine List.filterMap_eq_nil_iff.2 fun k _ => ?_
  cases s.awaitingRange k with
  | none => rfl
  | some r => exact if_neg (by rw [hnone]; exact Bool.false_ne_true)

/-- With no claim waiting, no host closing and no zone held, an examination grants gates and no more. -/
theorem examPass_noHolders {s : State} (hwait : s.arb.waiting = [])
    (hhost : s.arb.host.awaiting = none) (hfree : ∀ c z, s.holder z ≠ some c) :
    (s.examPass).seq = s.seq ∧ (s.examPass).port = s.port
      ∧ (s.examPass).todo = { s.todo with exam := false } := by
  obtain ⟨u, hu⟩ : ∃ u, u = ({ s with todo := { s.todo with exam := false } } : State) := ⟨_, rfl⟩
  have hgates0 := judgeGate_leaves u 0
  have hgates1 := judgeGate_leaves (u.judgeGate 0) 1
  obtain ⟨hseq0, hport0, htodo0, hheld0⟩ := hgates0
  obtain ⟨hseq1, hport1, htodo1, hheld1⟩ := hgates1
  have hfree' : ∀ c z, ((u.judgeGate 0).judgeGate 1).holder z ≠ some c := fun c z => by
    rw [hheld1, hheld0, hu]
    exact hfree c z
  have hhost' : ((u.judgeGate 0).judgeGate 1).judgeHost = (u.judgeGate 0).judgeGate 1 := by
    have hnone : ((u.judgeGate 0).judgeGate 1).arb.host.awaiting = none := by
      rw [judgeGate_host, judgeGate_host, hu]
      exact hhost
    simp only [State.judgeHost, hnone]
  have hclosings : u.judgeClosings = (u.judgeGate 0).judgeGate 1 := by
    rw [State.judgeClosings, hhost', clearOut_none (closingsOver_noHolder (hfree' .A)),
      clearOut_none (closingsOver_noHolder (hfree' .B))]
  have hpass : s.examPass = (u.judgeGate 0).judgeGate 1 := by
    refine examPass_judges hwait (by rw [← hu, hclosings]) ?_
    rw [judgeGate_claims, judgeGate_claims, hu]
    exact hwait
  rw [hpass, hseq1, hseq0, hport1, hport0, htodo1, htodo0, hu]
  exact ⟨rfl, rfl, rfl⟩

theorem todo_of_notices {d : Todo} (hb : d.blocked = ⟨false, false⟩) (hw : d.wait = ⟨false, false⟩) :
    d = { Todo.none with exam := d.exam } := by
  cases d
  subst hb hw
  rfl

theorem settle_noHolders {s : State} (hwait : s.arb.waiting = [])
    (hhost : s.arb.host.awaiting = none) (hfree : ∀ c z, s.holder z ≠ some c)
    (hb : s.todo.blocked = ⟨false, false⟩) (hw : s.todo.wait = ⟨false, false⟩) :
    s.settle.seq = s.seq ∧ s.settle.port = s.port := by
  have htodo := todo_of_notices hb hw
  cases hexam : s.todo.exam with
  | false =>
    rw [hexam] at htodo
    rw [settle_rested s (by rw [State.rested, htodo]; rfl)]
    exact ⟨rfl, rfl⟩
  | true =>
    rw [hexam] at htodo
    obtain ⟨hseq, hport, hdone⟩ := examPass_noHolders hwait hhost hfree
    rw [settle_pass htodo rfl (hdone.trans (by rw [htodo]; rfl))]
    exact ⟨hseq, hport⟩

/-! ### Power-on -/

/-- A part with no carriage referenced and nothing to decide but the gates. -/
structure Fresh (s : State) : Prop where
  cell : s.cell = State.reset.cell
  car : ∀ c, (s.sq c).state = .unreferenced
  waiting : s.arb.waiting = []
  host : s.arb.host.awaiting = none
  blocked : s.todo.blocked = ⟨false, false⟩
  wait : s.todo.wait = ⟨false, false⟩

theorem Fresh.addSource {s : State} (h : Fresh s) (src p) : Fresh (s.addSource src p) :=
  ⟨(mapZones_cell s _).trans h.cell, fun c => (congrArg Sequencer.state (mapZones_sq s _ c)).trans
    (h.car c), h.waiting, h.host, h.blocked, h.wait⟩

theorem Fresh.raise {s : State} (h : Fresh s) (kind src d) : Fresh (s.raise kind src d) := by
  obtain ⟨l, u, k, heq⟩ := raise_frame s kind src d
  rw [heq]
  exact ⟨h.cell, h.car, h.waiting, h.host, h.blocked, h.wait⟩

theorem Fresh.breach {s : State} (h : Fresh s) (k : Curtain) : Fresh (s.breach k) := by
  have hrange : s.cell.curtains[k] = none := by
    rw [h.cell]
    exact Vector.getElem_replicate _
  have hraised : Fresh ((s.addSource (.curtain k) (inOptRange none)).raise .curtainBreach
      (.curtain k) (s.breachCount none)) := (h.addSource _ _).raise _ _ _
  have hnone : ∀ c, ((s.addSource (.curtain k) (inOptRange none)).raise .curtainBreach
      (.curtain k) (s.breachCount none)).breached none c = false := fun c => by
    rw [State.breached, hraised.car c]
    rfl
  have hbreach : s.breach k = (s.addSource (.curtain k) (inOptRange none)).raise .curtainBreach
      (.curtain k) (s.breachCount none) := by
    rw [State.breach, hrange]
    exact breachStops_none hnone
  rw [hbreach]
  exact hraised

theorem Fresh.requestAccess {s : State} (h : Fresh s) (g : Gate) : Fresh (s.requestAccess g) :=
  ⟨h.cell, h.car, h.waiting, h.host, h.blocked, h.wait⟩

theorem Fresh.retakeCurtains {s : State} (l : List Curtain) (h : Fresh s) :
    Fresh (l.foldl (fun t k => t.retakeCurtain k) s) := by
  induction l generalizing s with
  | nil => exact h
  | cons k rest ih =>
    have hstep : Fresh (s.retakeCurtain k) := by
      unfold State.retakeCurtain
      split
      · exact h.breach k
      · exact h
    exact ih hstep

theorem Fresh.retakeGates {s : State} (l : List Gate) (h : Fresh s) :
    Fresh (l.foldl (fun t g => t.retakeAccess g) s) := by
  induction l generalizing s with
  | nil => exact h
  | cons g rest ih =>
    have hstep : Fresh (s.retakeAccess g) := by
      unfold State.retakeAccess
      split
      · exact h.requestAccess g
      · exact h
    exact ih hstep

/-- The part at power-on, before the asserted lines are taken (R114). -/
def State.switchedOn (s : State) : State :=
  { State.reset with pending := s.pending, lines := s.lines, free := s.free }

/-- The part at power-on with the curtains and the gates taken (R114). -/
def State.linesTaken (s : State) : State :=
  (List.finRange 2).foldl (fun t g => t.retakeAccess g)
    ((List.finRange 4).foldl (fun t k => t.retakeCurtain k) s.switchedOn)

theorem powerOn_eq (s : State) :
    s.powerOn = if s.lines.eStop then s.linesTaken.eStopOn else s.linesTaken := rfl

theorem fresh_switchedOn (s : State) : Fresh s.switchedOn :=
  ⟨rfl, fun c => by cases c <;> rfl, rfl, rfl, rfl, rfl⟩

theorem fresh_linesTaken (s : State) : Fresh s.linesTaken :=
  ((fresh_switchedOn s).retakeCurtains _).retakeGates _

/-- What every block's operation keeps, power-on keeps. -/
theorem Stable.powerOn {P : State → Prop} (h : Stable P) {s : State} (hs : P s.switchedOn) :
    P s.powerOn := by
  have hcurtain : ∀ (t : State) (k : Curtain), P t → P (t.retakeCurtain k) := fun t k ht => by
    unfold State.retakeCurtain
    split
    · exact h.breach k ht
    · exact ht
  have hgate : ∀ (t : State) (g : Gate), P t → P (t.retakeAccess g) := fun t g ht => by
    unfold State.retakeAccess
    split
    · exact h.requestAccess g ht
    · exact ht
  have htaken : P s.linesTaken :=
    Stable.foldl _ hgate _ _ (Stable.foldl _ hcurtain _ _ hs)
  rw [powerOn_eq]
  split
  · exact h.eStopOn htaken
  · exact htaken

/-- Without orders and stack records none come from the blocks' operations. -/
theorem Stable.bare :
    Stable fun s => s.queue.entries = [] ∧ ∀ p : Place, s.stackRecs[p] = none where
  seq _ _ h := h
  port _ _ h := h
  arb _ _ h := h
  todo _ _ h := h
  free _ _ h := h
  saw _ _ _ _ h := h
  stack s p f h := by
    refine ⟨h.1, fun q => ?_⟩
    have hset : (s.modStack p f).stackRecs = s.stackRecs.set p.val (s.stackRecs[p].map f) := rfl
    rw [hset, h.2 p, Fin.getElem_fin, Vector.getElem_set]
    split
    · rfl
    · exact h.2 q
  orders s p f _ h := ⟨by rw [State.mapOrders, h.1]; rfl, h.2⟩
  drop s n h := ⟨by rw [State.dropOrder, h.1]; rfl, h.2⟩
  returns _ _ h := h
  rank s h := by
    refine ⟨?_, h.2⟩
    dsimp only [OrderQueue.takeRank]
    split
    · exact h.1
    · dsimp only [OrderQueue.renumber]
      rw [h.1]
      rfl
  counters _ _ _ h := h
  raise s k src d _ h := by
    rw [raise_eq_reporting]
    exact h
  clear _ _ h := h

/-- With E-STOP asserted at power-on both carriages are stopped and disabled (R114, R139). -/
theorem powerOn_stops {s : State} (hline : s.lines.eStop = true) (c : Carriage) :
    (s.powerOn.settle.sq c).state = .stopped ∧ (s.powerOn.settle.pt c).link = .disabled := by
  have hfresh := fresh_linesTaken s
  have hs : s.linesTaken.noChoosers = true := (noChoosers_iff _).2 fun d => by rw [hfresh.car]; rfl
  have hon : s.powerOn = s.linesTaken.eStopOn := if_pos hline
  obtain ⟨hstopped, hexam, -⟩ := eStopOn_stops hfresh.waiting hs
  rw [← hon] at hstopped hexam
  obtain ⟨hseq, hport⟩ := settle_noHolders (hexam.claims.trans hfresh.waiting)
    (by rw [hexam.host]; exact hfresh.host) (fun d z => (hstopped d).1.zones z)
    (hexam.blocked.trans hfresh.blocked) (hexam.wait.trans hfresh.wait)
  rw [State.sq, State.pt, hseq, hport]
  exact ⟨(hstopped c).1.state, (hstopped c).1.link⟩

/-- With no line asserted nothing is taken at power-on (R114). -/
theorem powerOn_quiet {s : State}
    (hlines : s.lines = ⟨Vector.replicate 4 false, Vector.replicate 2 false, false⟩) :
    s.powerOn = s.switchedOn := by
  have hcurtains : ∀ l : List Curtain,
      l.foldl (fun t k => t.retakeCurtain k) s.switchedOn = s.switchedOn := fun l => by
    induction l with
    | nil => rfl
    | cons k rest ih =>
      have hlow : s.switchedOn.lines.curtain[k] = false := by
        rw [State.switchedOn, hlines]
        exact Vector.getElem_replicate _
      rw [List.foldl_cons, State.retakeCurtain, if_neg (by rw [hlow]; exact Bool.false_ne_true), ih]
  have hgates : ∀ l : List Gate,
      l.foldl (fun t g => t.retakeAccess g) s.switchedOn = s.switchedOn := fun l => by
    induction l with
    | nil => rfl
    | cons g rest ih =>
      have hlow : s.switchedOn.lines.access[g] = false := by
        rw [State.switchedOn, hlines]
        exact Vector.getElem_replicate _
      rw [List.foldl_cons, State.retakeAccess, if_neg (by rw [hlow]; exact Bool.false_ne_true), ih]
  have htaken : s.linesTaken = s.switchedOn := by rw [State.linesTaken, hcurtains, hgates]
  rw [powerOn_eq, htaken, hlines]
  rfl

/-- Settles O58: the values after power-on, and the lines taken just after it. -/
theorem powerOnResets : Obligations.PowerOnResets := by
  refine ⟨?values, fun s => ⟨fun hlines => ?quiet, ?taken⟩⟩
  case quiet =>
    have hreset : s.switchedOn = { State.reset with pending := s.pending, free := s.free } := by
      rw [State.switchedOn, hlines]
      rfl
    have hsettled : s.powerOn.settle = { State.reset with pending := s.pending, free := s.free } := by
      rw [powerOn_quiet hlines, hreset]
      exact settle_rested _ rfl
    exact congrArg (fun u => (.next u : Result)) hsettled
  case taken =>
    have hbare := Stable.bare.settle (Stable.bare.powerOn (s := s)
      ⟨rfl, fun p => Vector.getElem_replicate _⟩)
    have houtside : s.powerOn.settle.pending = s.pending ∧ s.powerOn.settle.cell = State.reset.cell
        ∧ s.powerOn.settle.lines = s.lines :=
      (Stable.outside fun l m n => l = s.pending ∧ m = State.reset.cell ∧ n = s.lines).settle
        ((Stable.outside fun l m n => l = s.pending ∧ m = State.reset.cell ∧ n = s.lines).powerOn
          ⟨rfl, rfl, rfl⟩)
    exact ⟨s.powerOn.settle, rfl, houtside.2.1, houtside.2.2, houtside.1, hbare.1, hbare.2,
      fun hline c => powerOn_stops hline c⟩
  case values =>
    refine ⟨?_, ?_, ?_, ?_, ?_, rfl, rfl, rfl, rfl, rfl, rfl, rfl, rfl, ?_, ?_, rfl, rfl, rfl, rfl, rfl,
      rfl, rfl, rfl, rfl, rfl⟩
    · intro z
      simp [State.reset, CellMap.reset, Arbiter.reset, ZoneRec.reset]
    · intro p
      simp [State.reset, CellMap.reset, PlaceDef.reset]
    · intro k
      simp [State.reset, CellMap.reset]
    · intro g
      simp [State.reset, CellMap.reset, Arbiter.reset]
    · intro p
      simp [State.reset, CellMap.reset]
    · intro c
      cases c <;> decide
    · intro w
      simp [State.reset, OrderQueue.reset, SawStation.reset, Timer.stopped]

end Sys2Proof.Machine
end

section
/-! The drive reports READY (O43), DRIVE FAULT and VACUUM LOW (O50), and STOPPED (O49). -/

namespace Sys2Proof.Machine

/-! ### Reports and ports -/

/-- Two changes of one port are one. -/
theorem modPort_modPort (s : State) (c f g) :
    (s.modPort c f).modPort c g = s.modPort c fun d => g (f d) := by
  cases c <;> rfl

theorem raise_pt (s : State) (kind src d c) : (s.raise kind src d).pt c = s.pt c := by
  rw [raise_eq_reporting]
  rfl

theorem recordPos_eq (s : State) (c : Carriage) (pos : Pos) : s.recordPos c pos = reportedAt s c pos := rfl

theorem Unmoved.reported {s : State} (c : Carriage) (pos : Pos) : Unmoved s (reportedAt s c pos) :=
  (Unmoved.refl s).modPort c _

theorem reportedAt_sq (s : State) (c d : Carriage) (pos : Pos) : (reportedAt s c pos).sq d = s.sq d :=
  rfl

theorem reportedAt_pt (s : State) (c : Carriage) (pos : Pos) :
    (reportedAt s c pos).pt c = { s.pt c with position := some pos } :=
  modPort_pt_self s c _

/-- A carriage enters IDLE where nothing waits on it, and asks for work with no load and no work (R81). -/
theorem enterIdle_eq {s : State} {c : Carriage} (hother : (s.sq (other c)).state.unmoved = true)
    (hne : (s.sq c).state ≠ .idle) : s.enterIdle c = (s.modSeq c fun q =>
      { q with state := .idle, ask := q.ask || (q.load = none && q.work = none) }).dueExam := by
  have hfields : (s.modSeq c fun q => { q with state := .idle }).modSeq c (fun q =>
      if q.load.isNone && q.work.isNone then { q with ask := true } else q)
      = s.modSeq c fun q =>
        { q with state := .idle, ask := q.ask || (q.load = none && q.work = none) } := by
    rw [modSeq_modSeq]
    refine modSeq_congr ?_
    cases (s.sq c).load <;> cases (s.sq c).work <;> simp
  rw [State.enterIdle, setCarState_eq hother hne, ← hfields]
  rfl

theorem unexpected_lost {s : State} {c : Carriage}
    (h : (s.sq c).state = .unreferenced ∨ (s.sq c).state = .homing ∨ (s.sq c).state = .stopped
      ∨ (s.sq c).state = .faulted) : s.unexpected c = s := by
  refine if_neg ?_
  rcases h with h | h | h | h <;> rw [h] <;> decide

theorem unexpected_working {s : State} {c : Carriage}
    (h : (s.sq c).state = .idle ∨ (s.sq c).state = .claiming ∨ (s.sq c).state = .moving) :
    s.unexpected c = s.takeDriveFault c 0 := by
  refine if_pos ?_
  rcases h with h | h | h <;> rw [h] <;> decide

/-! ### READY -/

/-- The link is READY (R122). -/
def State.linkReady (s : State) (c : Carriage) : State :=
  s.modPort c fun d => { d with link := .ready, clearPending := false }

section
variable {s : State} {c : Carriage}

theorem clearAnswered_homing (h : (s.sq c).state = .homing) : s.clearAnswered c
    = (s.linkReady c).modPort c fun d => { d with sent := d.sent ++ [.home], current := some .home } := by
  have hanswer : s.clearAnswered c = ((s.linkReady c).send c .home).setCurrent c .home := by
    rw [State.clearAnswered, h]
    rfl
  rw [hanswer, send_eq, State.setCurrent, modPort_modPort, State.linkReady, modPort_modPort,
    modPort_modPort]
  rfl

theorem clearAnswered_resumes (h : (s.sq c).state = .faulted) (hresume : (s.sq c).resumePending = true)
    (hother : (s.sq (other c)).state.unmoved = true) : s.clearAnswered c
      = ((s.linkReady c).modSeq c fun q => { q with
        state := .idle, resumePending := false
        ask := q.ask || (q.load = none && q.work = none) }).dueExam := by
  have hanswer : s.clearAnswered c
      = ((s.linkReady c).modSeq c fun q => { q with resumePending := false }).enterIdle c := by
    rw [State.clearAnswered, h]
    exact if_pos hresume
  have hidle := enterIdle_eq (s := (s.linkReady c).modSeq c fun q => { q with resumePending := false })
    (c := c) (by rw [modSeq_sq_other]; exact hother)
    (by rw [modSeq_sq_self]; exact fun e => CarState.noConfusion (h.symm.trans e))
  rw [hanswer, hidle, modSeq_modSeq]

theorem clearAnswered_other (hhoming : (s.sq c).state ≠ .homing)
    (hfaulted : ¬((s.sq c).state = .faulted ∧ (s.sq c).resumePending = true)) :
    s.clearAnswered c = s.linkReady c := by
  unfold State.clearAnswered
  dsimp only
  split
  · next h => exact absurd h hhoming
  · next h => exact if_neg fun e => hfaulted ⟨h, e⟩
  · rfl

end

/-- Settles O43: what a READY answers. -/
theorem readyAnswersClear : Obligations.ReadyAnswersClear := by
  intro s c pos hrested
  have hhere := Unmoved.reported (s := s) c pos
  have hport := reportedAt_pt s c pos
  have hready : Unmoved s ((reportedAt s c pos).linkReady c) := hhere.modPort c _
  have hstops : (s.pt c).stopping = true → (reportedAt s c pos).takeReady c = reportedAt s c pos :=
    fun hstop => if_pos (by rw [hport, hstop])
  have hanswers : (s.pt c).stopping = false → (s.pt c).clearPending = true →
      (reportedAt s c pos).takeReady c = (reportedAt s c pos).clearAnswered c := fun hstop hclear => by
    rw [State.takeReady, hport, hstop, hclear]
    rfl
  refine ⟨fun hstop => hhere.next_settle hrested (hstops hstop), fun hstop hclear hlost => ?_,
    fun hstop hclear hhoming => ?_, fun hstop hclear hfaulted hresume hclaims hother => ?_,
    fun hstop hclear hhoming hfaulted => ?_⟩
  · refine hhere.next_settle hrested ?_
    have hunexpected := unexpected_lost (s := reportedAt s c pos) hlost
    rw [recordPos_eq, State.takeReady, hport, hstop, hclear, hunexpected]
    rfl
  · exact (hready.modPort c _).next_settle hrested
      ((hanswers hstop hclear).trans (clearAnswered_homing hhoming))
  · have hresumed := (hanswers hstop hclear).trans
      (clearAnswered_resumes (s := reportedAt s c pos) hfaulted hresume hother)
    have hexam : ExamOnly s ((reportedAt s c pos).linkReady c) := .of_unmoved hready
    refine Eq.trans (congrArg (fun u => (.next (State.settle u) : Result)) hresumed) ?_
    exact ((hexam.modSeq c _).dueExam).next_settle hrested hclaims (dueExam_undone rfl)
  · exact hready.next_settle hrested
      ((hanswers hstop hclear).trans (clearAnswered_other hhoming hfaulted))

/-! ### A carriage stopped and faulted -/

/-- What a stop and a fault make of a carriage (R130, R131, R132). -/
structure Faults (s t : State) (c : Carriage) : Prop where
  exam : ExamOnly s t
  sq : t.sq c = (s.sq c).faultedNow
  link : (t.pt c).link = (s.pt c).link
  stopping : (t.pt c).stopping = true
  orders : t.leftBy c
  events : t.events = s.events

/-- A carriage is sent STOP and FAULTED where nothing waits on it. -/
theorem stopAndFault_faults {s : State} {c : Carriage} (hclaims : s.noClaims = true)
    (hother : (s.sq (other c)).state.unmoved = true) (hstate : (s.sq c).state ≠ .faulted) :
    Faults s (s.stopAndFault c) c := by
  obtain ⟨sent, hstop⟩ := stopDrive_frame s c
  have hfault := enterFaulted_eq (s := s.modPort c fun d => { d with sent := sent, stopping := true })
    (c := c) (by rw [modPort_pt_self]) hclaims hother hstate
  have hback := (Told.refl (s.modPort c fun d => { d with
    sent := sent, stopping := true })).handBack c
  obtain ⟨a, l, hseq⟩ := hback.seq c
  rw [State.stopAndFault, hstop, hfault]
  refine ⟨(((((ExamOnly.refl s).modPort c _).trans (.of_unmoved hback.unmoved)).modSeq c
    _).dueExam), ?_, ?_, ?_, ?_, ?_⟩
  · rw [dueExam_sq, modSeq_sq_self, hseq, modPort_sq]
    rfl
  · rw [dueExam_pt, modSeq_pt, hback.pt, modPort_pt_self]
  · rw [dueExam_pt, modSeq_pt, hback.pt, modPort_pt_self]
  · exact (leftBy_congr ((dueExam_queue _).trans (modSeq_queue _ _ _)) c).2 (handBack_leftBy _ c)
  · rw [dueExam_events, modSeq_events, hback.events, modPort_events]

/-! ### DRIVE FAULT and VACUUM LOW -/

/-- The link of the drive is FAULT and the alarm is raised (R131). -/
def State.driveBroken (s : State) (c : Carriage) (code : Nat) : State :=
  (s.modPort c fun d => { d with link := .fault, clearPending := false }).raise .driveFault
    (.carriage c) code

theorem Unmoved.driveBreaks (s : State) (c : Carriage) (code : Nat) : Unmoved s (s.driveBroken c code) :=
  ((Unmoved.refl s).modPort c _).raise _ _ _

theorem driveBroken_sq (s : State) (c : Carriage) (code : Nat) (d : Carriage) :
    (s.driveBroken c code).sq d = s.sq d := by
  rw [State.driveBroken, raise_sq, modPort_sq]

theorem driveBroken_pt (s : State) (c : Carriage) (code : Nat) :
    (s.driveBroken c code).pt c = { s.pt c with link := .fault, clearPending := false } := by
  rw [State.driveBroken, raise_pt, modPort_pt_self]

section
variable {s : State} {c : Carriage}

theorem takeDriveFault_lost (code : Nat) (h : (s.sq c).state = .unreferenced ∨ (s.sq c).state = .stopped) :
    s.takeDriveFault c code = s.driveBroken c code := by
  unfold State.takeDriveFault
  rcases h with h | h <;> rw [h] <;> rfl

theorem takeDriveFault_faulted (code : Nat) (h : (s.sq c).state = .faulted) : s.takeDriveFault c code
    = (s.driveBroken c code).modSeq c fun q => { q with resumePending := false } := by
  unfold State.takeDriveFault
  rw [h]
  rfl

theorem takeDriveFault_homing (code : Nat) (h : (s.sq c).state = .homing) :
    s.takeDriveFault c code = (s.driveBroken c code).stopHoming c := by
  unfold State.takeDriveFault
  rw [h]
  rfl

/-- The states in which a carriage is at its work. -/
def CarState.working (st : CarState) : Prop := st = .idle ∨ st = .claiming ∨ st = .moving

theorem takeDriveFault_working (code : Nat) (h : (s.sq c).state.working) :
    s.takeDriveFault c code = (s.driveBroken c code).stopAndFault c := by
  unfold State.takeDriveFault
  rcases h with h | h | h <;> rw [h] <;> rfl

theorem CarState.working.not_faulted {st : CarState} (h : st.working) : st ≠ .faulted := by
  rcases h with h | h | h <;> rw [h] <;> exact CarState.noConfusion

/-- The load, and the coming one of a pick past its LIFT, is UNCERTAIN and the alarm is raised (R130). -/
def State.gripLost (s : State) (c : Carriage) (vacuum : Nat) : State :=
  ((s.modSeq c fun q => { q with load := q.load.map fun l => { l with sure := false } }).modPort c
    fun d => { d with current := d.current.map slipStep }).raise .gripLoss (.carriage c) vacuum

theorem Unmoved.losesGrip (s : State) (c : Carriage) (vacuum : Nat) : Unmoved s (s.gripLost c vacuum) :=
  (((Unmoved.refl s).modSeq c _ fun _ => by rfl).modPort c _).raise _ _ _

theorem gripLost_sq (s : State) (c : Carriage) (vacuum : Nat) : (s.gripLost c vacuum).sq c
    = { s.sq c with load := (s.sq c).load.map fun l => { l with sure := false } } := by
  rw [State.gripLost, raise_sq, modPort_sq, modSeq_sq_self]

theorem gripLost_pt (s : State) (c : Carriage) (vacuum : Nat) :
    (s.gripLost c vacuum).pt c = { s.pt c with current := (s.pt c).current.map slipStep } := by
  rw [State.gripLost, raise_pt, modPort_pt_self, modSeq_pt]

theorem gripLoss_working (vacuum : Nat) (h : (s.sq c).state.working) :
    s.gripLoss c vacuum = (s.gripLost c vacuum).stopAndFault c := by
  unfold State.gripLoss
  rcases h with h | h | h <;> rw [h] <;> rfl

theorem gripLoss_homing (vacuum : Nat) (h : (s.sq c).state = .homing) :
    s.gripLoss c vacuum = (s.gripLost c vacuum).stopHoming c := by
  unfold State.gripLoss
  rw [h]
  rfl

/-- There is something to lose: a load, or a pick past its LIFT (R130). -/
def State.grips (s : State) (c : Carriage) : Prop :=
  (s.sq c).load ≠ none ∨ ∃ p top search prof sl,
    (s.pt c).current = some (.pick p top search prof .lifting sl)

theorem grips_iff (s : State) (c : Carriage) :
    ((s.sq c).load.isSome || (s.pt c).pastLift) = true ↔ s.grips c := by
  have hlift : (s.pt c).pastLift = true ↔ ∃ p top search prof sl,
      (s.pt c).current = some (.pick p top search prof .lifting sl) := by
    unfold DrivePort.pastLift
    split
    · next p top search prof sl h => exact ⟨fun _ => ⟨p, top, search, prof, sl, h⟩, fun _ => rfl⟩
    · next h =>
      refine ⟨fun e => absurd e Bool.false_ne_true, ?_⟩
      rintro ⟨p, top, search, prof, sl, e⟩
      exact absurd e (h p top search prof sl)
  rw [Bool.or_eq_true, hlift, Option.isSome_iff_ne_none]
  rfl

theorem takeVacuumLow_grips (vacuum : Nat) (h : s.grips c) :
    s.takeVacuumLow c vacuum = s.gripLoss c vacuum := if_pos ((grips_iff s c).2 h)

theorem takeVacuumLow_bare (vacuum : Nat) (h : ¬s.grips c) :
    s.takeVacuumLow c vacuum = s.unexpected c := if_neg (mt (grips_iff s c).1 h)

end

/-- What a fault of a carriage at its work leaves with its alarm (R130, R131, R132). -/
def FaultedWith (t : State) (c : Carriage) (kind : EventKind) (n : Nat) : Prop :=
  (t.sq c).state = .faulted ∧ (t.pt c).stopping = true ∧ (t.sq c).work = none
    ∧ (t.sq c).suspended = [] ∧ (t.sq c).holdPending = false
    ∧ (t.sq c).cancelPending = false ∧ (t.sq c).wait.running = false
    ∧ (∀ e ∈ t.queue.entries, e.state ≠ .active c ∧ e.state ≠ .suspended c)
    ∧ ∃ e ∈ t.events.entries, e.kind = kind ∧ e.source = .carriage c ∧ e.detail = n

theorem Faults.faultedWith {s t : State} {c : Carriage} (h : Faults s t c) {kind : EventKind} {n : Nat}
    (hpending : hasEvent s.events.entries kind (.carriage c) n) : FaultedWith t c kind n := by
  refine ⟨?_, h.stopping, ?_, ?_, ?_, ?_, ?_, h.orders, ?_⟩
  iterate 6
    rw [h.sq]
    rfl
  rw [h.events]
  exact hpending

/-- A DRIVE FAULT of a carriage at its work (R131). -/
theorem takeDriveFault_faults {s : State} {c : Carriage} (n : Nat) (h : (s.sq c).state.working)
    (hclaims : s.noClaims = true) (hother : (s.sq (other c)).state.unmoved = true) :
    Faults (s.driveBroken c n) (s.takeDriveFault c n) c := by
  rw [takeDriveFault_working n h]
  exact stopAndFault_faults ((Unmoved.driveBreaks s c n).noClaims hclaims)
    (by rw [driveBroken_sq]; exact hother) (by rw [driveBroken_sq]; exact h.not_faulted)

/-- A VACUUM LOW of a carriage at its work that has something to lose (R130). -/
theorem takeVacuumLow_faults {s : State} {c : Carriage} (n : Nat) (h : (s.sq c).state.working)
    (hgrips : s.grips c) (hclaims : s.noClaims = true)
    (hother : (s.sq (other c)).state.unmoved = true) :
    Faults (s.gripLost c n) (s.takeVacuumLow c n) c := by
  have hlost := Unmoved.losesGrip s c n
  rw [takeVacuumLow_grips n hgrips, gripLoss_working n h]
  exact stopAndFault_faults (hlost.noClaims hclaims) (by rw [hlost.car]; exact hother)
    (by rw [hlost.car]; exact h.not_faulted)

theorem reportedAt_grips (s : State) (c : Carriage) (pos : Pos) :
    (reportedAt s c pos).grips c ↔ s.grips c := by
  rw [State.grips, State.grips, reportedAt_pt]
  rfl

/-- Settles O50: the outcomes of a DRIVE FAULT and of a VACUUM LOW by the carriage's state. -/
theorem driveAlarmsFault : Obligations.DriveAlarmsFault := by
  intro s c pos n hquiet
  obtain ⟨hrested, hclaims, hs⟩ := (quiet_iff s).1 hquiet
  have hhere := Unmoved.reported (s := s) c pos
  have hbroken := fun code => hhere.trans (Unmoved.driveBreaks (reportedAt s c pos) c code)
  have hlost := fun v => hhere.trans (Unmoved.losesGrip (reportedAt s c pos) c v)
  have hother := (noChoosers_iff s).1 hs (other c)
  refine ⟨fun hstate => ?_, fun hstate => ?_, fun hstate => ?_, fun hworking => ?_,
    fun hworking hholds => ?_, fun hstate hholds => ?_, fun hworking hholds => ?_,
    fun hstate hholds => ?_⟩
  · exact (hbroken n).next_settle hrested (takeDriveFault_lost (s := reportedAt s c pos) n hstate)
  · exact ((hbroken n).modSeq c _ fun _ => by rfl).next_settle hrested
      (takeDriveFault_faulted (s := reportedAt s c pos) n hstate)
  · have hstopped := stopHoming_eq (s := (reportedAt s c pos).driveBroken c n) (c := c)
      (by rw [driveBroken_sq]; exact hother) (by rw [driveBroken_sq]; exact hstate)
    have hexam : ExamOnly s ((reportedAt s c pos).driveBroken c n) := .of_unmoved (hbroken n)
    refine Eq.trans (congrArg (fun u => (.next (State.settle u) : Result))
      ((takeDriveFault_homing (s := reportedAt s c pos) n hstate).trans hstopped)) ?_
    exact (((hexam.modPort c _).modSeq c _).dueExam).next_settle hrested hclaims
      (dueExam_undone (hbroken n).todo)
  · have hfaults := takeDriveFault_faults (s := reportedAt s c pos) n hworking
      (hhere.noClaims hclaims) hother
    have hload := congrArg Sequencer.load hfaults.sq
    have hlink := hfaults.link
    rw [driveBroken_sq] at hload
    rw [driveBroken_pt] at hlink
    exact ⟨_, congrArg (fun u => (.next u : Result))
      (((ExamOnly.of_unmoved (hbroken n)).trans hfaults.exam).settles hrested hclaims),
      hfaults.faultedWith (raise_alarm _ _ _ rfl), hlink, hload⟩
  · have hfaults := takeVacuumLow_faults (s := reportedAt s c pos) n hworking
      ((reportedAt_grips s c pos).2 hholds) (hhere.noClaims hclaims) hother
    have hload := congrArg Sequencer.load hfaults.sq
    rw [gripLost_sq] at hload
    exact ⟨_, congrArg (fun u => (.next u : Result))
      (((ExamOnly.of_unmoved (hlost n)).trans hfaults.exam).settles hrested hclaims),
      hfaults.faultedWith (raise_alarm _ _ _ rfl), hload⟩
  · have hstopped := stopHoming_eq (s := (reportedAt s c pos).gripLost c n) (c := c)
      (by rw [(hlost n).car]; exact hother) (by rw [(hlost n).car]; exact hstate)
    rw [← gripLoss_homing (s := reportedAt s c pos) n hstate,
      ← takeVacuumLow_grips n ((reportedAt_grips s c pos).2 hholds)] at hstopped
    have hexam : ExamOnly s ((reportedAt s c pos).takeVacuumLow c n) := by
      rw [hstopped]
      exact (((ExamOnly.of_unmoved (hlost n)).modPort c _).modSeq c _).dueExam
    have hsq : ((reportedAt s c pos).takeVacuumLow c n).sq c = { s.sq c with
        state := .unreferenced, load := (s.sq c).load.map fun l => { l with sure := false } } := by
      rw [hstopped, dueExam_sq, modSeq_sq_self, modPort_sq, gripLost_sq]
      rfl
    have hpt : ((reportedAt s c pos).takeVacuumLow c n).pt c = { s.pt c with
        position := some pos, current := (s.pt c).current.map slipStep
        sent := sentTo (s.pt c) .stop, stopping := true } := by
      rw [hstopped, dueExam_pt, modSeq_pt, modPort_pt_self, gripLost_pt, reportedAt_pt]
      rfl
    exact ⟨_, congrArg (fun u => (.next u : Result)) (hexam.settles hrested hclaims),
      congrArg Sequencer.state hsq, congrArg DrivePort.stopping hpt, congrArg DrivePort.sent hpt,
      congrArg Sequencer.load hsq⟩
  · refine congrArg (fun u => (.next (State.settle u) : Result)) ?_
    rw [recordPos_eq, takeVacuumLow_bare n (mt (reportedAt_grips s c pos).1 hholds)]
    exact unexpected_working hworking
  · refine hhere.next_settle hrested ?_
    rw [recordPos_eq, takeVacuumLow_bare n (mt (reportedAt_grips s c pos).1 hholds)]
    exact unexpected_lost hstate

/-! ### STOPPED -/

/-- The zones, where of those a carriage holds it keeps one number alone (R95, R113). -/
def soleZone (s : State) (c : Carriage) (z : Nat) : Vector ZoneRec 16 :=
  Vector.ofFn fun k : Fin 16 =>
    if s.arb.zones[k].holder = some c ∧ k.val ≠ z then { s.arb.zones[k] with holder := none }
    else s.arb.zones[k]

theorem releaseZones_sole (s : State) (c : Carriage) (z : Nat) :
    s.releaseZones c (fun y => y = z) = { s with arb := { s.arb with zones := soleZone s c z } } := by
  simp only [State.releaseZones, State.mapZones, soleZone, Bool.and_eq_true, decide_eq_true_eq,
    Bool.not_eq_true', decide_eq_false_iff_not, ne_eq]

theorem holder_val (s : State) (k : Fin 16) : s.holder k.val = s.arb.zones[k].holder :=
  dif_pos k.isLt

/-- A carriage that holds the zone holds it alone (R111, R113). -/
theorem holdAlone_held {s : State} {c : Carriage} {z : Nat} (h : s.holder z = some c) :
    s.holdAlone c z = ({ s with arb := { s.arb with zones := soleZone s c z } } : State).dueExam := by
  have hheld : ∀ k : Fin 16, k.val = z → s.arb.zones[k].holder = some c := fun k hk => by
    rw [← h, ← hk, holder_val]
  have hzones : (({ s with arb := { s.arb with zones := soleZone s c z } } : State).holdZones c
      fun y => y = z) = { s with arb := { s.arb with zones := soleZone s c z } } := by
    have hsame : (Vector.ofFn fun k : Fin 16 => if decide (k.val = z) = true
        then { (soleZone s c z)[k] with holder := some c } else (soleZone s c z)[k])
        = soleZone s c z := by
      refine Vector.ext fun i hi => ?_
      rw [Vector.getElem_ofFn]
      split
      · next hz =>
        have hi' := hheld ⟨i, hi⟩ (of_decide_eq_true hz)
        have hkept : (soleZone s c z)[(⟨i, hi⟩ : Fin 16)] = s.arb.zones[(⟨i, hi⟩ : Fin 16)] := by
          simp only [soleZone, Fin.getElem_fin, Vector.getElem_ofFn]
          exact if_neg fun e => e.2 (of_decide_eq_true hz)
        rw [hkept, ← hi']
        exact hkept.symm
      · rfl
    exact congrArg (fun v => ({ s with arb := { s.arb with zones := v } } : State)) hsame
  rw [State.holdAlone, releaseZones_sole, hzones]

/-- The port of a drive that has stopped (R129). -/
def DrivePort.emptied (d : DrivePort) : DrivePort :=
  { d with current := none, next := none, withdrawing := false, stopping := false }

section
variable {s : State} {c : Carriage} {pos : Pos}

/-- The place claims of a carriage are released where no release waits for them. -/
theorem releasePlaces_eq (hother : (s.sq (other c)).state.unmoved = true)
    (hnone : ∀ w : Saw, s.saws[w].releasePending = false) : s.releasePlaces c
      = { s with stackRecs := s.stackRecs.map fun r => r.map (clearUser c) } := by
  obtain ⟨v, heq, hsaws⟩ := releasePlaces_frame hother
  rw [heq, hsaws hnone]

/-- The state after a STOPPED, once its position is checked (R22, R129). -/
def State.stoppedFrom (s : State) (c : Carriage) : State :=
  { s.modRec c fun r => { r with ordered := none } with
    stackRecs := s.stackRecs.map fun r => r.map (clearUser c) }

theorem driveStopped_eq {u : State} (hcheck : (s.modPort c DrivePort.emptied).stoppedCheck c pos = u)
    (hother : (u.sq (other c)).state.unmoved = true)
    (hnone : ∀ w : Saw, u.saws[w].releasePending = false) : s.driveStopped c pos
      = if (u.sq c).state = .moving then (u.stoppedFrom c).act c else u.stoppedFrom c := by
  have hrelease : (u.modRec c fun r => { r with ordered := none }).releasePlaces c = u.stoppedFrom c :=
    releasePlaces_eq (s := u.modRec c fun r => { r with ordered := none }) hother hnone
  have hstop : s.driveStopped c pos = (let s3 := ((((s.modPort c DrivePort.emptied).stoppedCheck c
      pos).modRec c fun r => { r with ordered := none }).releasePlaces c)
    if (s3.sq c).state = .moving then s3.act c else s3) := rfl
  rw [hstop, hcheck, hrelease]
  rfl

theorem stoppedCheck_none (h : s.heldZones c = []) : s.stoppedCheck c pos = s := if_pos h

theorem stoppedCheck_held (h : s.holder (s.posZone pos) = some c) : s.stoppedCheck c pos
    = (({ s with arb := { s.arb with zones := soleZone s c (s.posZone pos) } } : State).modRec c
        fun r => { r with accepted := some pos, zone := some (s.posZone pos) }).dueExam := by
  have hlt : s.posZone pos < 16 := by
    by_contra hge
    rw [State.holder, dif_neg hge] at h
    exact Option.some_ne_none c h.symm
  have hheld : ¬s.heldZones c = [] := fun e => by
    have hmem := mem_heldZones.2 ⟨hlt, h⟩
    rw [e] at hmem
    exact List.not_mem_nil hmem
  have hok : s.positionOk c pos = true := decide_eq_true h
  rw [State.stoppedCheck, if_neg hheld, if_pos hok, holdAlone_held h]
  rfl

/-- A carriage that holds the zone of its report alone, with its places free (R22, R113). -/
def State.stoppedAlone (s : State) (c : Carriage) (pos : Pos) : State :=
  { s with
    stackRecs := s.stackRecs.map fun r => r.map (clearUser c)
    arb := { s.arb with
      zones := soleZone s c (s.posZone pos)
      records := s.arb.records.set c ⟨some pos, some (s.posZone pos), none⟩ } }

theorem stoppedFrom_alone (s : State) (c : Carriage) (pos : Pos) :
    ((({ s with arb := { s.arb with zones := soleZone s c (s.posZone pos) } } : State).modRec c
        fun r => { r with accepted := some pos, zone := some (s.posZone pos) }).dueExam).stoppedFrom c
      = (s.stoppedAlone c pos).dueExam := by
  simp only [State.stoppedFrom, State.modRec, State.dueExam, State.arec, get_set_self, set_set]
  rfl

theorem driveStopped_held (hheld : s.holder (s.posZone pos) = some c)
    (hother : (s.sq (other c)).state.unmoved = true)
    (hnone : ∀ w : Saw, s.saws[w].releasePending = false) : s.driveStopped c pos
      = if (s.sq c).state = .moving then (((s.modPort c DrivePort.emptied).stoppedAlone c pos).dueExam).act c
        else ((s.modPort c DrivePort.emptied).stoppedAlone c pos).dueExam := by
  have hcheck := stoppedCheck_held (s := s.modPort c DrivePort.emptied) hheld
  have hstopped := driveStopped_eq (s := s) hcheck hother hnone
  rw [stoppedFrom_alone] at hstopped
  exact hstopped

/-- A carriage with no work and no hold pending is IDLE (R124). -/
theorem act_rests (hother : (s.sq (other c)).state.unmoved = true) (hne : (s.sq c).state ≠ .idle)
    (hhold : (s.sq c).holdPending = false) (hwork : (s.sq c).work = none) :
    s.act c = (s.modSeq c fun q =>
      { q with state := .idle, ask := q.ask || q.load = none }).dueExam := by
  have hnext : (s.sq c).nextAction = .rest := by rw [Sequencer.nextAction, hwork]
  rw [State.act, if_neg (by rw [hhold]; exact Bool.false_ne_true), hnext]
  dsimp only
  rw [enterIdle_eq hother hne]
  refine congrArg State.dueExam (modSeq_congr ?_)
  simp only [hwork, decide_true, Bool.and_true]

end

/-- Settles O49: what STOPPED leaves of a carriage, by its state and its holding. -/
theorem stoppedEmptiesSlots : Obligations.StoppedEmptiesSlots := by
  intro s c pos hquiet hnone
  obtain ⟨hrested, hclaims, hs⟩ := (quiet_iff s).1 hquiet
  have hhere := Unmoved.reported (s := s) c pos
  have hother := (noChoosers_iff s).1 hs (other c)
  have htake : (s.pt c).stopping = true →
      (reportedAt s c pos).takeStopped c pos = (reportedAt s c pos).driveStopped c pos := fun hstop =>
    if_pos (by rw [reportedAt_pt]; exact hstop)
  have hemptied : Unmoved s ((reportedAt s c pos).modPort c DrivePort.emptied) := hhere.modPort c _
  have halone := fun hheld => driveStopped_held (s := reportedAt s c pos) (c := c) (pos := pos) hheld
    hother hnone
  have hexam : ExamOnly s (((reportedAt s c pos).modPort c DrivePort.emptied).stoppedAlone c pos) :=
    (ExamOnly.of_unmoved hemptied).trans ⟨rfl, rfl, rfl, rfl, rfl, rfl⟩
  refine ⟨fun hstop hlost => ?_, fun hstop hlost hheld => ?_, fun hstop hfaulted hheld => ?_,
    fun hstop hmoving hwork hhold hheld => ?_⟩
  · refine hhere.next_settle hrested ?_
    rw [recordPos_eq, State.takeStopped, reportedAt_pt, hstop]
    exact unexpected_lost (s := reportedAt s c pos) (hlost.imp_right fun h => h.imp_right .inl)
  · have hstopped := driveStopped_eq (s := reportedAt s c pos) (c := c) (pos := pos)
      (stoppedCheck_none (s := (reportedAt s c pos).modPort c DrivePort.emptied) hheld) hother hnone
    rw [if_neg (by rcases hlost with h | h | h <;> exact fun e => CarState.noConfusion (h.symm.trans e))]
      at hstopped
    have hsettled : (((reportedAt s c pos).modPort c DrivePort.emptied).stoppedFrom c).settle
        = ((reportedAt s c pos).modPort c DrivePort.emptied).stoppedFrom c := settle_rested _ hrested
    refine congrArg (fun u => (.next u : Result)) ?_
    rw [recordPos_eq, htake hstop, hstopped, hsettled]
    rfl
  · have hstopped := halone hheld
    rw [reportedAt_sq, if_neg (fun e => CarState.noConfusion (hfaulted.symm.trans e))] at hstopped
    refine Eq.trans (congrArg (fun u => (.next (State.settle u) : Result))
      ((htake hstop).trans hstopped)) ?_
    exact hexam.dueExam.next_settle hrested hclaims (dueExam_undone rfl)
  · have hstopped := halone hheld
    rw [reportedAt_sq, if_pos hmoving] at hstopped
    have hidle := act_rests (s := (((reportedAt s c pos).modPort c DrivePort.emptied).stoppedAlone c
      pos).dueExam) (c := c) hother (fun e => CarState.noConfusion (hmoving.symm.trans e)) hhold hwork
    refine Eq.trans (congrArg (fun u => (.next (State.settle u) : Result))
      ((htake hstop).trans (hstopped.trans hidle))) ?_
    exact ((hexam.dueExam.modSeq c _).dueExam).next_settle hrested hclaims rfl

end Sys2Proof.Machine
end

section
/-! The verdicts on a pick: CONTACT and GRIP READING (O44). -/

namespace Sys2Proof.Machine

/-! ### The answer to the drive -/

theorem send_setCurrent (s : State) (c : Carriage) (cmd : DriveCmd) (x : Step) :
    (s.send c cmd).setCurrent c x
      = s.modPort c fun d => { d with sent := sentTo d cmd, current := some x } := by
  rw [send_eq, State.setCurrent, modPort_modPort]

/-! ### The checks at CONTACT -/

section
variable {s : State} {p : Place} {r : StackRec} {height : Nat}

theorem lockStack_eq (hr : s.stackRecs[p] = some r) (why : LockReason) :
    s.lockStack p why = s.setStack p (.locked why) r.runs := by
  rw [State.lockStack, runsAt_eq hr]

theorem topHeight_eq (hr : s.stackRecs[p] = some r) {h : Nat} (hh : runsHeight r.runs = some h) :
    s.topHeight p = some (s.cell.places[p].base + h) := by
  rw [State.topHeight, runsAt_eq hr, hh]
  rfl

theorem judgeContact_ready (hr : s.stackRecs[p] = some r) (hstate : r.state = .ready) :
    s.judgeContact p height = s.contactCheck p height := by
  rw [State.judgeContact, stackState_eq hr, hstate]

theorem judgeContact_measure (hr : s.stackRecs[p] = some r) (hstate : r.state = .measure) :
    s.judgeContact p height = s.measure p height := by
  rw [State.judgeContact, stackState_eq hr, hstate]

theorem contactCheck_within (hr : s.stackRecs[p] = some r) {h : Nat} (hh : runsHeight r.runs = some h)
    (hdev : ((height : Int) - ((s.cell.places[p].base + h : Nat) : Int)).natAbs ≤ s.cell.tolerance) :
    s.contactCheck p height = (s, true) := by
  rw [State.contactCheck, topHeight_eq hr hh]
  exact if_pos hdev

theorem contactCheck_off (hr : s.stackRecs[p] = some r) {h : Nat} (hh : runsHeight r.runs = some h)
    (hdev : s.cell.tolerance < ((height : Int) - ((s.cell.places[p].base + h : Nat) : Int)).natAbs) :
    s.contactCheck p height = ((s.setStack p (.locked .mismatch) r.runs).raise .stackMismatch (.place p)
      ((height : Int) - ((s.cell.places[p].base + h : Nat) : Int)), false) := by
  rw [State.contactCheck, topHeight_eq hr hh, ← lockStack_eq hr]
  exact if_neg (Nat.not_le.2 hdev)

/-! ### The measurement -/

/-- The rounded quotient is 0 for a height below half a piece, and the count between whose half pieces the
height lies otherwise (R29). -/
theorem pieceQuotient_eq {h : Int} {t n : Nat} (hpiece : 0 < t)
    (hn : (n = 0 ∧ 2 * h < (t : Int)) ∨ (1 ≤ n ∧ ((2 * n * t : Nat) : Int) ≤ 2 * h + (t : Int)
      ∧ 2 * h + (t : Int) < ((2 * (n + 1) * t : Nat) : Int))) : pieceQuotient h t = n := by
  obtain ⟨rfl, hlow⟩ | ⟨hone, hlow, hhigh⟩ := hn
  · exact if_pos hlow
  · have hhalf : t ≤ n * t := Nat.le_mul_of_pos_left t hone
    have hleft : 2 * n * t = 2 * (n * t) := Nat.mul_assoc 2 n t
    have hright : 2 * (n + 1) * t = 2 * (n * t) + 2 * t := by ring
    rw [hleft] at hlow
    rw [hright] at hhigh
    rw [pieceQuotient, if_neg (by omega)]
    refine Nat.div_eq_of_lt_le ?_ ?_
    · rw [Nat.mul_left_comm]
      omega
    · rw [Nat.add_mul, one_mul, Nat.mul_left_comm]
      omega

/-- The count measured for a stack of `run` at that height of CONTACT. -/
def State.measures (s : State) (p : Place) (height : Nat) (run : Run) (n : Nat) : Prop :=
  pieceQuotient ((height : Int) - (s.cell.places[p].base : Int)) run.piece.thickness = n

/-- The height left over once `n` pieces are taken from the one measured. -/
def State.residueOf (s : State) (p : Place) (height : Nat) (run : Run) (n : Nat) : Nat :=
  ((height : Int) - (s.cell.places[p].base : Int) - ((n * run.piece.thickness : Nat) : Int)).natAbs

/-- `n` pieces are more than a record or the place takes (R29). -/
def State.tooMany (s : State) (p : Place) (run : Run) (n : Nat) : Prop :=
  250 < n ∨ s.cell.places[p].pieceLimit < n
    ∨ s.cell.places[p].heightLimit < s.cell.places[p].base + n * run.piece.thickness

variable {run : Run} {below : List Run} {n : Nat} (hr : s.stackRecs[p] = some r)
  (hruns : r.runs = run :: below) (hq : s.measures p height run n)
include hr hruns hq

theorem measure_none (hn : n = 0) : s.measure p height
    = ((s.setStack p .empty []).raise .stackEmpty (.place p) run.piece.material, false) := by
  unfold State.measures at hq
  rw [State.measure, runsAt_eq hr, hruns]
  dsimp only
  rw [hq, if_pos hn]
  rfl

theorem measure_over (hn : 1 ≤ n) (hover : s.tooMany p run n) : s.measure p height
    = ((s.setStack p (.locked .overflow) r.runs).raise .stackOverflow (.place p) n, false) := by
  unfold State.measures at hq
  rw [State.measure, lockStack_eq hr, runsAt_eq hr, hruns]
  dsimp only
  rw [hq, if_neg (by omega)]
  exact if_pos hover

theorem measure_off (hn : 1 ≤ n) (hover : ¬s.tooMany p run n)
    (hres : s.cell.tolerance < s.residueOf p height run n) : s.measure p height
      = ((s.setStack p (.locked .mismatch) r.runs).raise .stackMismatch (.place p)
        (s.residueOf p height run n), false) := by
  unfold State.measures at hq
  rw [State.measure, lockStack_eq hr, lockStack_eq hr, runsAt_eq hr, hruns]
  dsimp only
  rw [hq, if_neg (by omega)]
  exact (if_neg hover).trans (if_pos hres)

theorem measure_counted (hn : 1 ≤ n) (hover : ¬s.tooMany p run n)
    (hres : s.residueOf p height run n ≤ s.cell.tolerance) : s.measure p height
      = ((s.modCounters fun k => { k with loaded := min (k.loaded + n) 1099511627775 }).setStack p
        .ready [{ run with count := some n }], true) := by
  unfold State.measures at hq
  rw [State.measure, runsAt_eq hr, hruns]
  dsimp only
  rw [hq, if_neg (by omega)]
  exact (if_neg hover).trans (if_neg (Nat.not_lt.2 hres))

end

/-! ### The verdicts -/

section
variable {s u : State} {c : Carriage} {p : Place} {top search height vacuum : Nat} {prof : GripProfile}

theorem contactVerdict_good (h : s.judgeContact p height = (u, true)) :
    s.contactVerdict c p top search prof height = u.modPort c fun d => { d with
      sent := sentTo d .grip, current := some (.pick p top search prof .firstGrip false) } := by
  rw [State.contactVerdict, h]
  exact send_setCurrent _ _ _ _

theorem contactVerdict_bad (h : s.judgeContact p height = (u, false)) :
    s.contactVerdict c p top search prof height = u.modPort c fun d => { d with
      sent := sentTo d .abandon, current := some (.pick p top search prof .abandoning false) } := by
  rw [State.contactVerdict, h]
  exact send_setCurrent _ _ _ _

theorem takeContact_descending {sl : Bool} (hstop : (s.pt c).stopping = false)
    (hcur : (s.pt c).current = some (.pick p top search prof .descending sl)) :
    s.takeContact c height = s.contactVerdict c p top search prof height := by
  rw [State.takeContact, hstop, hcur]
  rfl

theorem inBand_iff : inBand prof vacuum = true ↔ prof.low ≤ vacuum ∧ vacuum ≤ prof.high := by
  rw [inBand, Bool.and_eq_true, decide_eq_true_iff, decide_eq_true_iff]

section
variable {sl : Bool} (hstop : (s.pt c).stopping = false)
include hstop

theorem takeGrip_lifts (hgood : inBand prof vacuum = true)
    (hcur : (s.pt c).current = some (.pick p top search prof .firstGrip sl)
      ∨ (s.pt c).current = some (.pick p top search prof .secondGrip sl)) :
    s.takeGrip c vacuum = s.modPort c fun d => { d with
      sent := sentTo d .lift, current := some (.pick p top search prof .lifting false) } := by
  rw [← send_setCurrent, State.takeGrip, hstop]
  rcases hcur with hcur | hcur <;> rw [hcur] <;> exact if_pos hgood

theorem takeGrip_regrips (hbad : ¬inBand prof vacuum = true)
    (hcur : (s.pt c).current = some (.pick p top search prof .firstGrip sl)) :
    s.takeGrip c vacuum = s.modPort c fun d => { d with
      sent := sentTo d .regrip, current := some (.pick p top search prof .secondGrip false) } := by
  rw [← send_setCurrent, State.takeGrip, hstop, hcur]
  exact if_neg hbad

theorem takeGrip_fails (hbad : ¬inBand prof vacuum = true)
    (hcur : (s.pt c).current = some (.pick p top search prof .secondGrip sl)) :
    s.takeGrip c vacuum = (s.gripFail p vacuum).modPort c fun d => { d with
      sent := sentTo d .abandon, current := some (.pick p top search prof .abandoning false) } := by
  rw [← send_setCurrent, State.takeGrip, hstop, hcur]
  exact if_neg hbad

end
end

/-! ### The two reports -/

/-- Settles O44: CONTACT and GRIP READING. -/
theorem pickChecked : Obligations.PickChecked := by
  refine ⟨fun s c pos height top search p prof sl r hrested hchoosers hstop hcur hr => ?_,
    fun s c pos vacuum top search p prof sl hrested hchoosers hstop => ?_⟩
  · have hhere := Unmoved.reported (s := s) c pos
    have hport := reportedAt_pt s c pos
    have htaken := takeContact_descending (s := reportedAt s c pos) (height := height)
      (by rw [hport]; exact hstop) (by rw [hport]; exact hcur)
    have hrec : (reportedAt s c pos).stackRecs[p] = some r := hr
    refine ⟨fun h hready hh => ⟨fun hdev => ?_, fun hdev => ?_⟩,
      fun run below n hmeasure hruns hpiece hn => ?_⟩
    · exact (hhere.modPort c _).next_settle hrested (htaken.trans
        (contactVerdict_good ((judgeContact_ready hrec hready).trans (contactCheck_within hrec hh hdev))))
    · exact (((hhere.setStack hchoosers p _ _).raise _ _ _).modPort c _).next_settle hrested
        (htaken.trans (contactVerdict_bad
          ((judgeContact_ready hrec hready).trans (contactCheck_off hrec hh hdev))))
    · have hjudged := judgeContact_measure (height := height) hrec hmeasure
      have hcount : (reportedAt s c pos).measures p height run n := pieceQuotient_eq hpiece hn
      refine ⟨fun hnone => ?_, fun hone hover => ?_, fun hone hover hres => ?_,
        fun hone hover hres => ?_⟩
      · exact (((hhere.setStack hchoosers p _ _).raise _ _ _).modPort c _).next_settle hrested
          (htaken.trans (contactVerdict_bad (hjudged.trans (measure_none hrec hruns hcount hnone))))
      · exact (((hhere.setStack hchoosers p _ _).raise _ _ _).modPort c _).next_settle hrested
          (htaken.trans (contactVerdict_bad (hjudged.trans
            (measure_over hrec hruns hcount hone hover))))
      · exact (((hhere.setStack hchoosers p _ _).raise _ _ _).modPort c _).next_settle hrested
          (htaken.trans (contactVerdict_bad (hjudged.trans
            (measure_off hrec hruns hcount hone hover hres))))
      · exact (((hhere.modCounters _).setStack hchoosers p _ _).modPort c _).next_settle hrested
          (htaken.trans (contactVerdict_good (hjudged.trans
            (measure_counted hrec hruns hcount hone hover hres))))
  · have hhere := Unmoved.reported (s := s) c pos
    have hport := reportedAt_pt s c pos
    have hstands : ((reportedAt s c pos).pt c).stopping = false := by rw [hport]; exact hstop
    have hcurrent : ((reportedAt s c pos).pt c).current = (s.pt c).current := by rw [hport]
    refine ⟨fun hcur hgood => ?_, fun hcur hbad => ?_, fun hcur hbad => ?_⟩
    · exact (hhere.modPort c _).next_settle hrested
        (takeGrip_lifts hstands (inBand_iff.2 hgood)
          (hcur.imp hcurrent.trans hcurrent.trans))
    · exact (hhere.modPort c _).next_settle hrested
        (takeGrip_regrips hstands (fun h => hbad (inBand_iff.1 h)) (hcurrent.trans hcur))
    · exact (((hhere.setStack hchoosers p _ _).raise _ _ _).modPort c _).next_settle hrested
        (takeGrip_fails hstands (fun h => hbad (inBand_iff.1 h)) (hcurrent.trans hcur))

end Sys2Proof.Machine
end

section
/-! RELEASE DONE (O46). -/

namespace Sys2Proof.Machine

/-! ### One entry of its number -/

/-- The entry stands in the queue, and no other has its number (R41). -/
def State.soleOrder (s : State) (e : OrderEntry) : Prop :=
  e ∈ s.queue.entries ∧ ∀ x ∈ s.queue.entries, x.number = e.number → x = e

theorem soleOrder_of_ok {s : State} (hok : s.queue.ok = true) {e : OrderEntry}
    (he : e ∈ s.queue.entries) : s.soleOrder e :=
  ⟨he, fun _ hx hn => number_unique hok hx he hn⟩

namespace State.soleOrder
variable {s : State} {e : OrderEntry} (h : s.soleOrder e)
include h

theorem orderOf : s.orderOf e.number = some e := by
  obtain ⟨he, honly⟩ := h
  obtain ⟨x, hx⟩ := Option.isSome_iff_exists.1 ((orderOf_isSome_iff s e.number).2 ⟨e, he, rfl⟩)
  have hnumber : x.number = e.number := by simpa using List.find?_some hx
  rw [hx, honly x (List.mem_of_find?_eq_some hx) hnumber]

theorem requeueWhere {p : OrderEntry → Bool} (hp : p e = false) : (s.requeueWhere p).soleOrder e := by
  obtain ⟨he, honly⟩ := h
  have hself : (if p e then { e with state := backState s e } else e) = e :=
    if_neg (by rw [hp]; exact Bool.false_ne_true)
  have hnumber : ∀ y : OrderEntry, (if p y then { y with state := backState s y } else y).number
      = y.number := fun y => by split <;> rfl
  unfold State.soleOrder
  rw [requeueWhere_entries]
  refine ⟨List.mem_map.2 ⟨e, he, hself⟩, fun x hx hn => ?_⟩
  obtain ⟨y, hy, rfl⟩ := List.mem_map.1 hx
  rw [honly y hy ((hnumber y).symm.trans hn)]
  exact hself

/-- A change of the entry is a change of the entries of its number. -/
theorem mapOrders {f g : OrderEntry → OrderEntry} (hfg : f e = g e) :
    s.mapOrders (fun x => x = e) f = { s with
      queue := { s.queue with
        entries := s.queue.entries.map fun y => if y.number = e.number then g y else y } } := by
  obtain ⟨-, honly⟩ := h
  have hmap : (s.queue.entries.map fun y => if decide (y = e) then f y else y)
      = s.queue.entries.map fun y => if y.number = e.number then g y else y := by
    refine List.map_congr_left fun y hy => ?_
    by_cases hn : y.number = e.number
    · rw [if_pos hn, if_pos (decide_eq_true (honly y hy hn)), honly y hy hn, hfg]
    · rw [if_neg hn, if_neg (by rw [decide_eq_true_iff]; rintro rfl; exact hn rfl)]
  exact congrArg (fun l => { s with queue := { s.queue with entries := l } }) hmap

/-! ### The countdown -/

variable {c : Carriage} (hactive : e.state = .active c)
include hactive

theorem countdown_left (hleft : 1 < e.remaining) : s.countdown c e.number = { s with
    queue := { s.queue with
      entries := s.queue.entries.map fun y =>
        if y.number = e.number then
          { y with placed := e.placed + 1, remaining := e.remaining - 1 }
        else y } } := by
  rw [State.countdown, h.orderOf]
  dsimp only
  rw [if_pos hactive, if_neg (Nat.not_le.2 hleft)]
  exact h.mapOrders rfl

theorem countdown_last (hleft : e.remaining = 1) : s.countdown c e.number
    = (((s.dropOrder e.number).raise .orderDone (.order e.number) (e.placed + 1)).modSeq c fun q =>
      { q with orderDone := true }).orderEnd e.saw := by
  rw [State.countdown, h.orderOf]
  dsimp only
  rw [if_pos hactive, if_pos (le_of_eq hleft)]

end State.soleOrder

/-! ### A piece let go -/

section
variable {s : State} {c : Carriage} {p : Place} {x : Piece} {w : Saw}

/-- The record of a saw takes a piece on an open infeed that leaves the book incomplete (R150, R162). -/
def bookedOn (x : Piece) (y : SawStation) : SawStation :=
  { y with
    bookTimer := ⟨y.timeout ≠ 0, y.timeout * 1000⟩
    lastFed := ((x.material, x.profile) :: y.lastFed.filter fun f => f.1 ≠ x.material).take 8 }

/-- The book on the infeed, with `n` pieces, takes further ones of that thickness (R150). -/
structure OpenBook (s : State) (w : Saw) (p : Place) (thickness : Nat) : Prop where
  mode : s.saws[w].mode = .book
  opened : s.saws[w].state = .opened
  count : s.bookCount w < s.saws[w].threshold
  height : s.bookFullHeight p thickness = false

theorem placement_booked (h : OpenBook s w p x.thickness) :
    s.placement w p x = s.modSaw w (bookedOn x) := by
  have hfirst := saws_modSaw_self s w fun y => { y with lastFed := fedList x y.lastFed }
  have hsecond := modSaw_modSaw s w (fun y => { y with lastFed := fedList x y.lastFed })
    fun y => { y with bookTimer := ⟨y.timeout ≠ 0, s.saws[w].timeout * 1000⟩ }
  have hthreshold := congrArg SawStation.threshold (saws_modSaw_self s w fun y => { y with
    lastFed := fedList x y.lastFed, bookTimer := ⟨y.timeout ≠ 0, s.saws[w].timeout * 1000⟩ })
  have hbooked : s.modSaw w (fun y => { y with
      lastFed := fedList x y.lastFed, bookTimer := ⟨y.timeout ≠ 0, s.saws[w].timeout * 1000⟩ })
      = s.modSaw w (bookedOn x) := by
    rw [State.modSaw, State.modSaw, bookedOn, fedList]
  have hnot : (s.modSaw w (fun y => { y with
      lastFed := fedList x y.lastFed, bookTimer := ⟨y.timeout ≠ 0, s.saws[w].timeout * 1000⟩
      })).bookComplete w p x.thickness = false := by
    refine Bool.or_eq_false_iff.2 ⟨decide_eq_false ?_, h.height⟩
    rw [hthreshold]
    exact Nat.not_le.2 h.count
  unfold State.placement
  dsimp only
  rw [hfirst, h.mode]
  dsimp only
  unfold State.bookPlacement
  rw [hfirst, h.opened]
  dsimp only
  rw [hsecond, if_neg (by rw [hnot]; exact Bool.false_ne_true), hbooked]

theorem fed_elsewhere (h : s.cell.places[p].kind ≠ .infeed) : s.fed c p x = s := by
  unfold State.fed
  split
  · next hkind _ => exact absurd hkind h
  · rfl

theorem fed_order {k : Work} {n : Nat} (hkind : s.cell.places[p].kind = .infeed)
    (hsaw : s.cell.places[p].saw = some w) (hwork : (s.sq c).work = some k)
    (hnumber : k.orderNumber = some n) : s.fed c p x = (s.placement w p x).countdown c n := by
  rw [State.fed, show s.kindAt p = _ from hkind, hsaw, hwork]
  dsimp only
  rw [hnumber]

theorem Work.orderNumber_order {k : Work} {n : Nat} {w : Saw} {m t : Nat} {infeed : Place}
    {g : Option Place} (h : k.kind = .order n w m t infeed g) : k.orderNumber = some n := by
  rw [Work.orderNumber, h]

/-- A record with the piece laid on the runs of `r` (R32). -/
def StackRec.laidOn (r : StackRec) (x : Piece) (y : StackRec) : StackRec :=
  { y with
    state := if r.state = .empty then .ready else r.state
    runs := layRuns [⟨x, some 1⟩] r.runs }

/-- The piece has joined the record of the place and the load is removed (R32, R128). -/
def State.laidDown (s : State) (c : Carriage) (p : Place) (x : Piece) (r : StackRec) : State :=
  (s.setStack p (if r.state = .empty then .ready else r.state)
    (layRuns [⟨x, some 1⟩] r.runs)).modSeq c fun q => { q with load := none }

theorem letGo_eq {r : StackRec} (hr : s.stackRecs[p] = some r) : s.letGo c p x = s.laidDown c p x r := by
  rw [State.letGo, addTo_eq hr, State.laidDown]

theorem laidDown_cell (r : StackRec) : (s.laidDown c p x r).cell = s.cell := by
  rw [State.laidDown, modSeq_cell, State.setStack, contentChange_cell, modStack_cell]

/-- On a place that is no return place the other orders are requeued, and that is all that follows. -/
theorem laidDown_requeues (hchoosers : s.noChoosers = true) (r : StackRec)
    (hkind : s.cell.places[p].kind ≠ .return_) : s.laidDown c p x r
      = ((s.modStack p (r.laidOn x)).requeueWhere OrderEntry.isStarved).modSeq c fun q =>
        { q with load := none } := by
  have hnotices := contentChange_requeues (s := s.modStack p (r.laidOn x)) hchoosers hkind
  rw [← hnotices]
  rfl

theorem modStack_runsAt {r : StackRec} (hr : s.stackRecs[p] = some r) (f : StackRec → StackRec) :
    (s.modStack p f).runsAt p = (f r).runs := by
  refine runsAt_eq (r := f r) ?_
  rw [modStack_stackRecs, Fin.getElem_fin, Vector.getElem_set_self]
  exact congrArg (Option.map f) hr

/-- What the piece laid on an infeed leaves of the records a placement reads. -/
structure LaidOnInfeed (s u : State) (c : Carriage) (p : Place) (runs : List Run) : Prop where
  cell : u.cell = s.cell
  saws : u.saws = s.saws
  runs : u.runsAt p = runs
  work : (u.sq c).work = (s.sq c).work
  sole : ∀ e, s.soleOrder e → e.state = .active c → u.soleOrder e

theorem laidDown_onInfeed (hchoosers : s.noChoosers = true) {r : StackRec}
    (hr : s.stackRecs[p] = some r) (hkind : s.cell.places[p].kind = .infeed) :
    LaidOnInfeed s (s.laidDown c p x r) c p (layRuns [⟨x, some 1⟩] r.runs) := by
  rw [laidDown_requeues hchoosers r (by rw [hkind]; exact PlaceKind.noConfusion)]
  have hruns := modStack_runsAt hr (r.laidOn x)
  have hsole : ∀ e, s.soleOrder e → (s.modStack p (r.laidOn x)).soleOrder e := fun e h => h
  have hwork := congrArg Sequencer.work (modStack_sq s p (r.laidOn x) c)
  have hcell := modStack_cell s p (r.laidOn x)
  have hsaws := modStack_saws s p (r.laidOn x)
  generalize s.modStack p _ = u at hruns hsole hwork hcell hsaws ⊢
  refine ⟨?_, ?_, ?_, ?_, fun e he hactive => ?_⟩
  · rw [modSeq_cell, requeueWhere_cell, hcell]
  · rw [modSeq_saws, requeueWhere_saws, hsaws]
  · obtain ⟨entries, v, heq, -⟩ := requeueWhere_frame u OrderEntry.isStarved
    rw [heq]
    exact hruns
  · rw [modSeq_sq_self, requeueWhere_work, hwork]
  · have hstarved : e.isStarved = false := by rw [OrderEntry.isStarved, hactive]
    exact (hsole e he).requeueWhere hstarved

/-! ### The report -/

theorem takeRelease_placing {top floor : Nat} {l : Load} {r : StackRec}
    (hstop : (s.pt c).stopping = false)
    (hcur : (s.pt c).current = some (.place p top floor false)) (hload : (s.sq c).load = some l)
    (hr : s.stackRecs[p] = some r) : s.takeRelease c
      = ((s.laidDown c p l.piece r).fed c p l.piece).modPort c fun d =>
        { d with current := some (.place p top floor true) } := by
  rw [State.takeRelease, hstop, hcur, ← letGo_eq hr]
  refine (if_neg Bool.false_ne_true).trans ?_
  dsimp only
  rw [State.pieceReleased, hload]
  rfl

theorem Unmoved.laysDown {u : State} (h : Unmoved s u) (hchoosers : s.noChoosers = true) (c : Carriage)
    (p : Place) (x : Piece) (r : StackRec) : Unmoved s (u.laidDown c p x r) :=
  (h.setStack hchoosers p _ _).modSeq c _ fun _ => by rfl

theorem Unmoved.withQueue {u : State} (h : Unmoved s u) (q : OrderQueue) :
    Unmoved s { u with queue := q } :=
  ⟨h.todo, h.arb, h.waiting, h.car⟩

theorem infeedPlace_congr {s u : State} (hcell : u.cell = s.cell) (w : Saw) :
    u.infeedPlace w = s.infeedPlace w := by
  cases s
  cases u
  dsimp only at hcell
  subst hcell
  rfl

/-- The book of the infeed where a piece was laid is open and not complete. -/
theorem LaidOnInfeed.openBook {u : State} {runs : List Run} (h : LaidOnInfeed s u c p runs)
    (hinfeed : s.infeedPlace w = some p) (hmode : s.saws[w].mode = .book)
    (hopened : s.saws[w].state = .opened) {n height : Nat} (hcount : pieceCount runs = some n)
    (hthreshold : n < s.saws[w].threshold) (hheight : runsHeight runs = some height)
    (hlimit : s.cell.places[p].base + height + x.thickness ≤ s.cell.places[p].heightLimit) :
    OpenBook u w p x.thickness := by
  have hplace : u.infeedPlace w = some p := by
    rw [infeedPlace_congr h.cell, hinfeed]
  refine ⟨by rw [h.saws, hmode], by rw [h.saws, hopened], ?_, ?_⟩
  · rw [State.bookCount, hplace]
    dsimp only
    rw [h.runs, knownCount, hcount, h.saws]
    exact hthreshold
  · rw [State.bookFullHeight, State.topHeight, h.runs, hheight, h.cell]
    exact decide_eq_false (Nat.not_lt.2 hlimit)

/-- The order has left with ORDER DONE, and its saw has taken the order end notice (R55, R56). -/
def State.lastCounted (s : State) (c : Carriage) (e : OrderEntry) (w : Saw) : State :=
  let done := ({ s with
    queue := { s.queue with
      entries := s.queue.entries.filter fun y =>
        y.number ≠ e.number } } : State).raise .orderDone (.order e.number) (e.placed + 1)
  ({ done with saws := done.saws.set w.val (afterOrderEnd done w) } : State).modSeq c fun q =>
    { q with orderDone := true }

theorem Unmoved.countsLast {u : State} (h : Unmoved s u) (c : Carriage) (e : OrderEntry) (w : Saw) :
    Unmoved s (u.lastCounted c e w) := by
  have hdone := (h.dropOrder e.number).raise .orderDone (.order e.number) (e.placed + 1)
  exact (hdone.modSaw w fun _ => afterOrderEnd ((u.dropOrder e.number).raise .orderDone
    (.order e.number) (e.placed + 1)) w).modSeq c (fun q => { q with orderDone := true })
      fun _ => by rfl

theorem modPort_modSaw (u : State) (w : Saw) (f : SawStation → SawStation) (c : Carriage)
    (g : DrivePort → DrivePort) : (u.modSaw w f).modPort c g = (u.modPort c g).modSaw w f := rfl

/-- A drive's step and the counting down of the last piece are changed in either order. -/
theorem modPort_lastCounted (u : State) (c : Carriage) (f : DrivePort → DrivePort) (e : OrderEntry)
    (w : Saw) :
    ((((u.dropOrder e.number).raise .orderDone (.order e.number) (e.placed + 1)).modSeq c fun q =>
      { q with orderDone := true }).orderEnd w).modPort c f = (u.modPort c f).lastCounted c e w := by
  have hraise := raise_comm (f := fun v => v.modPort c f) (fun _ _ => rfl) (u.dropOrder e.number)
    .orderDone (.order e.number) (e.placed + 1)
  have hdone : (u.modPort c f).lastCounted c e w
      = ((((u.dropOrder e.number).modPort c f).raise .orderDone (.order e.number)
        (e.placed + 1)).modSaw w fun _ => afterOrderEnd (((u.dropOrder e.number).modPort c f).raise
          .orderDone (.order e.number) (e.placed + 1)) w).modSeq c fun q =>
            { q with orderDone := true } := rfl
  rw [orderEnd_eq, hdone, hraise]
  rfl

end

/-- Settles O46: RELEASE DONE. -/
theorem releaseDoneSetsDown : Obligations.ReleaseDoneSetsDown := by
  intro s c pos p top floor l r hrested hchoosers hstop hcur hload hr
  have hport := reportedAt_pt s c pos
  have htaken := takeRelease_placing (s := reportedAt s c pos) (c := c) (p := p) (top := top)
    (floor := floor) (l := l) (r := r) (by rw [hport]; exact hstop) (by rw [hport]; exact hcur)
    hload hr
  have hdown := (Unmoved.reported (s := s) c pos).laysDown hchoosers c p l.piece r
  refine ⟨fun hkind => ?_, fun w k e n height x y infeed g hkind hsaw hinfeed hmode hopened hwork horder
    hok he hew hactive hcount hthreshold hheight hlimit => ?_⟩
  · refine (hdown.modPort c _).next_settle hrested (htaken.trans ?_)
    rw [fed_elsewhere (by rw [laidDown_cell]; exact hkind), State.laidDown]
  · have hlaid := laidDown_onInfeed (s := reportedAt s c pos) (c := c) (x := l.piece) hchoosers hr hkind
    have hbook := hlaid.openBook (x := l.piece) hinfeed hmode hopened hcount hthreshold hheight hlimit
    have hsole := hlaid.sole e (soleOrder_of_ok (s := reportedAt s c pos) hok he) hactive
    have hfed := fed_order (s := (reportedAt s c pos).laidDown c p l.piece r) (x := l.piece)
      (by rw [hlaid.cell]; exact hkind) (by rw [hlaid.cell]; exact hsaw) (hlaid.work.trans hwork)
      (Work.orderNumber_order horder)
    rw [hfed, placement_booked hbook] at htaken
    have hbooked : (((reportedAt s c pos).laidDown c p l.piece r).modSaw w
      (bookedOn l.piece)).soleOrder e := hsole
    refine ⟨fun hleft => ?_, fun hleft => ?_⟩
    · rw [hbooked.countdown_left hactive hleft] at htaken
      refine Unmoved.next_settle ?_ hrested (htaken.trans ?_)
      · exact ((hdown.modPort c _).modSaw w _).withQueue _
      · rfl
    · rw [hbooked.countdown_last hactive hleft, hew, modPort_lastCounted, modPort_modSaw] at htaken
      exact (((hdown.modPort c _).modSaw w (bookedOn l.piece)).countsLast c e w).next_settle hrested
        htaken

end Sys2Proof.Machine
end

section
/-! HOME DONE (O48). -/

namespace Sys2Proof.Machine

/-! ### An alarm outlasts a notice -/

theorem oldestLowest_mem {l : List EventEntry} {e : EventEntry} (h : oldestLowest l = some e) : e ∈ l := by
  unfold oldestLowest at h
  split at h
  · next hnotice =>
    cases h
    exact List.mem_of_find?_eq_some hnotice
  · split at h
    · next hwarning =>
      cases h
      exact List.mem_of_find?_eq_some hwarning
    · exact List.mem_of_mem_head? h

section
variable {kind k : EventKind} {src src' : EventSource} {d d' : Int}
  (hkind : eventClass kind ≠ .alarm) (hk : eventClass k = .alarm)
include hkind hk

/-- A pending alarm stays pending through the raising of an event that is none (R170). -/
theorem raiseUnit_keepsAlarm {u : EventUnit} (h : hasEvent u.entries k src' d') :
    hasEvent (u.raise kind src d).1.entries k src' d' := by
  have hne : k ≠ kind := by
    rintro rfl
    exact hkind hk
  unfold EventUnit.raise
  split
  · obtain ⟨e, he, hek, hes, hed⟩ := h
    have hnot : ¬sameEvent kind src e = true := by
      simp only [sameEvent, Bool.and_eq_true, decide_eq_true_eq, not_and]
      exact fun e' => absurd (hek.symm.trans e') hne
    exact ⟨e, List.mem_map.2 ⟨e, he, if_neg hnot⟩, hek, hes, hed⟩
  · split
    · exact hasEvent_create _ _ _ _ _ _ _ (.inr h)
    · cases hold : oldestLowest u.entries with
      | none => exact h
      | some old =>
        dsimp only
        split
        · next hle =>
          refine hasEvent_create _ _ _ _ _ _ _ (.inr ?_)
          obtain ⟨e, he, hek, hes, hed⟩ := h
          refine ⟨e, List.mem_filter.2 ⟨he, ?_⟩, hek, hes, hed⟩
          have hclass : eventClass old.kind ≠ .alarm := by
            intro e'
            rw [e'] at hle
            revert hle hkind
            cases eventClass kind <;> decide
          simp only [sameEvent, Bool.not_eq_true', Bool.and_eq_false_iff, decide_eq_false_iff_not]
          left
          intro e'
          exact hclass (by rw [← e', hek, hk])
        · exact h

theorem raise_keepsAlarm {s : State} (h : hasEvent s.events.entries k src' d') :
    hasEvent (s.raise kind src d).events.entries k src' d' :=
  raise_pending (raiseUnit_keepsAlarm hkind hk h)

end

/-! ### The home zone -/

/-- The zones, where a carriage holds one number alone (R100, R111). -/
def aloneZones (s : State) (c : Carriage) (z : Nat) : Vector ZoneRec 16 :=
  Vector.ofFn fun k : Fin 16 =>
    if k.val = z then { s.arb.zones[k] with holder := some c }
    else if s.arb.zones[k].holder = some c then { s.arb.zones[k] with holder := none }
    else s.arb.zones[k]

theorem holdAlone_eq (s : State) (c : Carriage) (z : Nat) : s.holdAlone c z
    = ({ s with arb := { s.arb with zones := aloneZones s c z } } : State).dueExam := by
  have hzones : (s.releaseZones c (fun y => y = z)).holdZones c (fun y => y = z)
      = { s with arb := { s.arb with zones := aloneZones s c z } } := by
    rw [releaseZones_sole]
    have hall : (Vector.ofFn fun k : Fin 16 => if decide (k.val = z) = true
        then { (soleZone s c z)[k] with holder := some c } else (soleZone s c z)[k])
        = aloneZones s c z := by
      refine Vector.ext fun i hi => ?_
      simp only [soleZone, aloneZones, Vector.getElem_ofFn, Fin.getElem_fin, decide_eq_true_eq]
      by_cases hz : i = z
      · simp only [hz, ne_eq, not_true_eq_false, and_false, if_false, if_true]
      · simp only [hz, ne_eq, not_false_eq_true, and_true, if_false]
    exact congrArg (fun v => { s with arb := { s.arb with zones := v } }) hall
  rw [State.holdAlone, hzones]

/-- The carriage holds one zone alone, its accepted position is this and its zone that one (R100). -/
def State.homesIn (s : State) (c : Carriage) (p : Pos) (z : Nat) : State :=
  { s with arb := { s.arb with
      zones := aloneZones s c z
      records := s.arb.records.set c { s.arec c with accepted := some p, zone := some z } } }

theorem homeHolding_eq {s : State} {c : Carriage} {p : Pos} {z : Nat}
    (hz : (if s.posZone p ≠ homeZone c ∧ s.keepable c (s.posZone p) = true then s.posZone p
      else homeZone c) = z) : s.homeHolding c p = (s.homesIn c p z).dueExam := by
  have hheld : s.homeHolding c p = (s.holdAlone c z).modRec c fun r =>
      { r with accepted := some p, zone := some z } := by
    rw [State.homeHolding, hz]
  rw [hheld, holdAlone_eq]
  rfl

theorem ExamOnly.homesIn {s u : State} (h : ExamOnly s u) (c : Carriage) (p : Pos) (z : Nat) :
    ExamOnly s (u.homesIn c p z) := ⟨h.1, h.2, h.3, h.4, h.5, h.6⟩

theorem homesIn_arec (s : State) (c : Carriage) (p : Pos) (z : Nat) : (s.homesIn c p z).arec c
    = { s.arec c with accepted := some p, zone := some z } :=
  get_set_self s.arb.records c _

theorem loadUnsure_iff (q : Sequencer) : q.loadUnsure = true ↔ ¬∀ l, q.load = some l → l.sure = true := by
  cases h : q.load with
  | none => simp [Sequencer.loadUnsure, h]
  | some l => simp [Sequencer.loadUnsure, h]

/-! ### A fault after a homing -/

section
variable {s : State} {c : Carriage}

theorem ExamOnly.withdrawNext {u : State} (h : ExamOnly s u) (c) : ExamOnly s (u.withdrawNext c) := by
  unfold State.withdrawNext
  split
  · exact h
  · exact (h.send _ _).modPort _ _

theorem withdrawNext_frame (s : State) (c : Carriage) : ∃ v, s.withdrawNext c = { s with port := v } := by
  unfold State.withdrawNext
  split
  · exact ⟨s.port, rfl⟩
  · rw [send_eq]
    exact ⟨_, rfl⟩

/-- What FAULTED keeps of the arbiter and of the events, whether or not the port is stopping (R132). -/
structure FaultedKeeps (s t : State) (c : Carriage) : Prop where
  exam : ExamOnly s t
  state : (t.sq c).state = .faulted
  arb : t.arb = s.arb
  events : t.events = s.events

theorem releaseUnlessStopping_frame (hother : (s.sq (other c)).state.unmoved = true) :
    ∃ r v, s.releaseUnlessStopping c = { s with stackRecs := r, saws := v } := by
  unfold State.releaseUnlessStopping
  split
  · exact ⟨s.stackRecs, s.saws, rfl⟩
  · obtain ⟨v, heq, -⟩ := releasePlaces_frame hother
    exact ⟨_, v, heq⟩

theorem enterFaulted_keeps (hclaims : s.noClaims = true)
    (hother : (s.sq (other c)).state.unmoved = true) (hstate : (s.sq c).state ≠ .faulted) :
    FaultedKeeps s (s.enterFaulted c) c := by
  have hback := (Told.refl s).handBack c
  have hcleared : Unmoved s ((s.handBack c).modSeq c Sequencer.cleared) :=
    hback.unmoved.modSeq c _ fun _ => by rfl
  have hbackEvents := hback.events
  unfold State.enterFaulted
  dsimp only
  have hevents : ((s.handBack c).modSeq c Sequencer.cleared).events = s.events :=
    (modSeq_events _ _ _).trans hbackEvents
  generalize (s.handBack c).modSeq c Sequencer.cleared = u at hcleared hevents ⊢
  have hu : (u.sq (other c)).state.unmoved = true := by rw [hcleared.car]; exact hother
  obtain ⟨r, v, hreleased⟩ := releaseUnlessStopping_frame hu
  obtain ⟨port, hwithdrawn⟩ := withdrawNext_frame (u.releaseUnlessStopping c) c
  rw [hwithdrawn, hreleased]
  have hexam : ExamOnly s ({ u with stackRecs := r, saws := v, port := port }) :=
    ⟨congrArg _ hcleared.todo, congrArg _ hcleared.todo, hcleared.waiting,
      congrArg _ hcleared.arb, congrArg _ hcleared.arb, congrArg _ hcleared.arb⟩
  have hnone := claimOf_noClaims (hexam.noClaims hclaims) c
  have hne : ((({ u with stackRecs := r, saws := v, port := port }) : State).sq c).state
      ≠ .faulted := fun e => hstate ((hcleared.car c).symm.trans e)
  rw [withdrawClaim_none hnone, setCarState_eq (s := { u with stackRecs := r, saws := v, port := port })
    hu hne]
  refine ⟨(hexam.modSeq _ _).dueExam, ?_, ?_, ?_⟩
  · rw [dueExam_sq, modSeq_sq_self]
  · rw [dueExam_arb, modSeq_arb]
    exact hcleared.arb
  · rw [dueExam_events, modSeq_events]
    exact hevents

theorem FaultedKeeps.requeueStarved {t : State} (h : FaultedKeeps s t c) :
    FaultedKeeps s t.requeueStarved c := by
  have htold := (Told.refl t).requeueWhere OrderEntry.isStarved
  exact ⟨h.exam.trans (.of_unmoved htold.unmoved), (htold.unmoved.car c).trans h.state,
    htold.arb.trans h.arb, htold.events.trans h.events⟩

end

/-! ### The report -/

theorem requeueWhere_dueExam (s : State) (f : OrderEntry → Bool) :
    s.dueExam.requeueWhere f = (s.requeueWhere f).dueExam := by
  rw [requeueWhere_eq, requeueWhere_eq]
  by_cases h : ∃ e ∈ s.queue.entries, f e = true ∧ backState s e = .queued
  · rw [if_pos h, workNotice_eq]
    refine (if_pos h).trans ?_
    rw [workNotice_eq]
    rfl
  · rw [if_neg h]
    exact if_neg h

section
variable {s : State} {c : Carriage} {p : Pos}

/-- The carriage homes in a zone, its drive standing (R100). -/
def State.homedIn (s : State) (c : Carriage) (p : Pos) (z : Nat) : State :=
  (s.modPort c fun d => { d with current := none }).homesIn c p z

theorem ExamOnly.homedIn {u : State} (h : ExamOnly s u) (c : Carriage) (p : Pos) (z : Nat) :
    ExamOnly s (u.homedIn c p z) := (h.modPort _ _).homesIn _ _ _

/-- The alarms of the carriage are cleared and it is IDLE, asking for work with no load and no work. -/
def State.idleAgain (s : State) (c : Carriage) : State :=
  (s.clearEvents (carriageAlarm c)).modSeq c fun q =>
    { q with state := .idle, ask := q.ask || (q.load = none && q.work = none) }

theorem idleAgain_dueExam (s : State) (c : Carriage) :
    s.dueExam.idleAgain c = (s.idleAgain c).dueExam := rfl

theorem idleAgain_todo (s : State) (c : Carriage) : (s.idleAgain c).todo = s.todo := rfl

theorem ExamOnly.idlesAgain {u : State} (h : ExamOnly s u) (c : Carriage) : ExamOnly s (u.idleAgain c) :=
  (h.clearEvents _).modSeq _ _

/-- A carriage homed in its home zone, with a load that is sure if there is one, is IDLE (R100, R135). -/
theorem homed_home (hother : (s.sq (other c)).state.unmoved = true) (hstate : (s.sq c).state = .homing)
    (hzone : s.posZone p = homeZone c) (hsure : ∀ l, (s.sq c).load = some l → l.sure = true) :
    s.homed c p = (((s.homedIn c p (homeZone c)).raise .homeDone (.carriage c) p.x).idleAgain
      c).requeueStarved.dueExam := by
  have hheld := homeHolding_eq (s := s.modPort c fun d => { d with current := none }) (c := c) (p := p)
    (if_neg fun h => h.1 hzone)
  have hnotAstray : ¬s.posZone p ≠ homeZone c := fun h => h hzone
  have hnot : ¬(s.posZone p ≠ homeZone c ∨ (s.sq c).loadUnsure = true) := by
    rw [loadUnsure_iff]
    exact not_or.2 ⟨hnotAstray, not_not_intro hsure⟩
  have hidle := enterIdle_eq (c := c)
    (s := ((s.homedIn c p (homeZone c)).raise .homeDone (.carriage c) p.x).dueExam.clearEvents
      (carriageAlarm c))
    (by
      rw [clearEvents_sq, dueExam_sq, raise_sq]
      exact hother)
    (by
      rw [clearEvents_sq, dueExam_sq, raise_sq]
      exact fun e => CarState.noConfusion (hstate.symm.trans e))
  have hhomed : s.homed c p = ((((((s.modPort c fun d => { d with current := none }).homeHolding c
      p).raise .homeDone (.carriage c) p.x).clearEvents (carriageAlarm c)).enterIdle c).requeueStarved)
      := by
    unfold State.homed
    simp only [if_neg hnot, if_neg hnotAstray]
  have hagain : (((s.homedIn c p (homeZone c)).raise .homeDone (.carriage c) p.x).dueExam.clearEvents
      (carriageAlarm c)).enterIdle c = (((s.homedIn c p (homeZone c)).raise .homeDone (.carriage c)
        p.x).idleAgain c).dueExam := hidle
  rw [hhomed, hheld, raise_dueExam]
  refine (congrArg State.requeueStarved hagain).trans ?_
  exact requeueWhere_dueExam _ _

/-- The zone of a carriage homed astray (R100). -/
def State.homedZone (s : State) (c : Carriage) (p : Pos) : Nat :=
  if s.posZone p ≠ homeZone c ∧ s.keepable c (s.posZone p) = true then s.posZone p else homeZone c

/-- A carriage homed elsewhere, or with an UNCERTAIN load, is FAULTED where it is (R100, R135). -/
theorem homed_faulted (hclaims : s.noClaims = true)
    (hother : (s.sq (other c)).state.unmoved = true) (hstate : (s.sq c).state = .homing)
    (hfault : s.posZone p ≠ homeZone c ∨ ¬∀ l, (s.sq c).load = some l → l.sure = true) :
    ∃ u, FaultedKeeps u (s.homed c p) c ∧ ExamOnly s u
      ∧ u.arec c = { s.arec c with accepted := some p, zone := some (s.homedZone c p) }
      ∧ (s.posZone p ≠ homeZone c →
        hasEvent u.events.entries .zoneConflict (.carriage c) (s.posZone p)) := by
  have hheld := homeHolding_eq (s := s.modPort c fun d => { d with current := none }) (c := c) (p := p)
    (z := s.homedZone c p) rfl
  have hfaults : s.posZone p ≠ homeZone c ∨ (s.sq c).loadUnsure = true := by
    rw [loadUnsure_iff]
    exact hfault
  have hplaced : ∃ v, (if s.posZone p ≠ homeZone c then ((s.homedIn c p (s.homedZone c p)).dueExam.raise
      .zoneConflict (.carriage c) (s.posZone p)) else (s.homedIn c p (s.homedZone c p)).dueExam) = v
      ∧ Unmoved (s.homedIn c p (s.homedZone c p)).dueExam v ∧ (∀ d, v.sq d = s.sq d)
      ∧ (s.posZone p ≠ homeZone c →
        hasEvent v.events.entries .zoneConflict (.carriage c) (s.posZone p)) := by
    by_cases hastray : s.posZone p ≠ homeZone c
    · exact ⟨_, if_pos hastray, (Unmoved.refl _).raise _ _ _, fun d => raise_sq _ _ _ _ d,
        fun _ => raise_alarm _ _ _ rfl⟩
    · exact ⟨_, if_neg hastray, Unmoved.refl _, fun d => rfl, fun h => absurd h hastray⟩
  obtain ⟨v, hv, hvUnmoved, hvSq, hvEvent⟩ := hplaced
  have hhomed : s.homed c p
      = ((v.raise .homeDone (.carriage c) p.x).enterFaulted c).requeueStarved := by
    unfold State.homed
    simp only [if_pos hfaults]
    rw [hheld]
    exact congrArg (fun v => ((State.raise v .homeDone (.carriage c) p.x).enterFaulted
      c).requeueStarved) hv
  have hexam : ExamOnly s v :=
    (((ExamOnly.refl s).homedIn c p (s.homedZone c p)).dueExam).trans (.of_unmoved hvUnmoved)
  have htold : ExamOnly s (v.raise .homeDone (.carriage c) p.x) :=
    hexam.trans (.of_unmoved ((Unmoved.refl v).raise _ _ _))
  have harb : (v.raise .homeDone (.carriage c) p.x).arec c
      = { s.arec c with accepted := some p, zone := some (s.homedZone c p) } := by
    have hsame : (v.raise .homeDone (.carriage c) p.x).arb
        = (s.homedIn c p (s.homedZone c p)).dueExam.arb :=
      (((Unmoved.refl v).raise .homeDone (.carriage c) p.x).arb).trans hvUnmoved.arb
    rw [State.arec, hsame]
    exact homesIn_arec (s.modPort c fun d => { d with current := none }) c p (s.homedZone c p)
  refine ⟨_, ?_, htold, harb, fun hastray =>
    raise_keepsAlarm (by decide) (by decide) (hvEvent hastray)⟩
  rw [hhomed]
  refine (enterFaulted_keeps (htold.noClaims hclaims) ?_ ?_).requeueStarved
  · rw [raise_sq, hvSq]
    exact hother
  · rw [raise_sq, hvSq, hstate]
    exact CarState.noConfusion

end

/-- Settles O48: HOME DONE. -/
theorem homeDoneReferences : Obligations.HomeDoneReferences := by
  intro s c pos hquiet
  obtain ⟨hrested, hclaims, hchoosers⟩ := (quiet_iff s).1 hquiet
  have hhere := Unmoved.reported (s := s) c pos
  have hport := reportedAt_pt s c pos
  have hother : ((reportedAt s c pos).sq (other c)).state.unmoved = true :=
    (noChoosers_iff s).1 hchoosers (other c)
  have htaken : (s.sq c).state = .homing ∧ (s.pt c).current = some .home
      ∧ (s.pt c).stopping = false →
      (reportedAt s c pos).takeHomeDone c pos = (reportedAt s c pos).homed c pos := fun h =>
    if_pos (by rw [hport]; exact h)
  have hignored : ¬((s.sq c).state = .homing ∧ (s.pt c).current = some .home
      ∧ (s.pt c).stopping = false) →
      (reportedAt s c pos).takeHomeDone c pos = reportedAt s c pos := fun h =>
    if_neg (by rw [hport]; exact h)
  refine ⟨fun hnot => ?_, fun hhoming hzone hsure => ?_, fun hhoming hfault => ?_⟩
  · exact hhere.next_settle hrested (hignored hnot)
  · have hhomed := (htaken hhoming).trans (homed_home (s := reportedAt s c pos) (c := c) (p := pos) hother
      hhoming.1 hzone hsure)
    have hexam : ExamOnly s (((reportedAt s c pos).homedIn c pos (homeZone c)).raise .homeDone
        (.carriage c) pos.x) :=
      ((ExamOnly.of_unmoved hhere).homedIn _ _ _).trans (.of_unmoved ((Unmoved.refl _).raise _ _ _))
    have hback := (Told.refl ((((reportedAt s c pos).homedIn c pos (homeZone c)).raise .homeDone
      (.carriage c) pos.x).idleAgain c)).requeueWhere OrderEntry.isStarved
    have htodo : ((((reportedAt s c pos).homedIn c pos (homeZone c)).raise .homeDone (.carriage c)
        pos.x).idleAgain c).requeueStarved.todo = s.todo := by
      refine hback.unmoved.todo.trans ?_
      rw [idleAgain_todo, ((Unmoved.refl _).raise _ _ _).todo]
      rfl
    refine (congrArg (fun u => (.next (State.settle u) : Result)) hhomed).trans ?_
    refine (((hexam.idlesAgain c).trans (.of_unmoved hback.unmoved)).dueExam).next_settle hrested hclaims
      ((dueExam_undone htodo).trans ?_)
    simp only [State.homedIn, State.homesIn, aloneZones, State.idleAgain]
    rfl
  · obtain ⟨u, hkeeps, hexam, harec, hevent⟩ := homed_faulted (s := reportedAt s c pos)
      (hhere.noClaims hclaims) hother hhoming.1 hfault
    have hend : ExamOnly s ((reportedAt s c pos).homed c pos) :=
      (ExamOnly.of_unmoved hhere).trans (hexam.trans hkeeps.exam)
    refine ⟨{ (reportedAt s c pos).homed c pos with todo := s.todo },
      (congrArg (fun u => (.next (State.settle u) : Result)) (htaken hhoming)).trans
        (hend.next_settle hrested hclaims rfl), hkeeps.state, ?_, ?_, fun hastray => ?_⟩
    · have hrec : ((reportedAt s c pos).homed c pos).arec c = u.arec c := by
        rw [State.arec, hkeeps.arb]
        rfl
      exact congrArg ArbRecord.accepted (hrec.trans harec)
    · have hrec : ((reportedAt s c pos).homed c pos).arec c = u.arec c := by
        rw [State.arec, hkeeps.arb]
        rfl
      exact congrArg ArbRecord.zone (hrec.trans harec)
    · have hpending := hevent hastray
      rw [← hkeeps.events] at hpending
      exact hpending

end Sys2Proof.Machine
end

section
/-! A carriage that makes its next move: the span granted, or a claim that waits. -/

namespace Sys2Proof.Machine

/-! ### No closing -/

/-- No closing waits for its range to clear. -/
structure NoClosings (s : State) : Prop where
  gate0 : s.arb.gates[(0 : Gate)].isAwaiting = false
  gate1 : s.arb.gates[(1 : Gate)].isAwaiting = false
  host : s.arb.host.awaiting = none

theorem noClosings_of_noClaims {s : State} (h : s.noClaims = true) : NoClosings s := by
  obtain ⟨-, h0, h1, hhost⟩ := (noClaims_iff s).1 h
  exact ⟨h0, h1, hhost⟩

theorem waiting_of_noClaims {s : State} (h : s.noClaims = true) : s.arb.waiting = [] :=
  ((noClaims_iff s).1 h).1

namespace NoClosings
variable {s : State} (h : NoClosings s)
include h

theorem judgeClosings : s.judgeClosings = s := by
  obtain ⟨h0, h1, hhost⟩ := h
  have hover (c : Carriage) : s.closingsOver c = [] := by
    simp only [State.closingsOver, State.awaitingRange, List.filterMap_cons, List.filterMap_nil,
      isAwaiting_range h0, isAwaiting_range h1, hhost]
  rw [State.judgeClosings, judgeGate_noClaims s 0 h0, judgeGate_noClaims s 1 h1]
  simp only [State.judgeHost, hhost, clearOut_none (hover _)]

end NoClosings

/-! ### A claim that waits on a carriage that moves -/

section
variable {s : State} {w : WaitingClaim}

theorem grantClaims_none (h : ∀ x ∈ s.arb.waiting, s.claimGrantable x = false) : s.grantClaims = s := by
  have hnone : s.arb.waiting.filter s.claimGrantable = [] :=
    List.filter_eq_nil_iff.2 fun x hx => by rw [h x hx]; exact Bool.false_ne_true
  simp only [State.grantClaims, hnone]

/-- A claim waits on a carriage that is in motion (R96). -/
theorem helpClaim_motion {st : CarState} (hst : (s.sq (other w.carriage)).state = st)
    (hmotion : st = .moving ∨ st = .homing ∨ st = .unreferenced ∨ st = .stopped) : s.helpClaim w = s := by
  have hmovable : s.movable (other w.carriage) = false := by
    rw [State.movable, hst]
    rcases hmotion with h | h | h | h <;> rw [h] <;> rfl
  unfold State.helpClaim
  split
  · rfl
  · next x hx =>
    split
    · rfl
    · dsimp only
      rw [hst, hmovable]
      rcases hmotion with rfl | rfl | rfl | rfl <;>
        exact (if_neg Bool.false_ne_true).trans (ite_self s)

/-- An examination leaves a waiting claim that is not claimable, and whose other carriage moves. -/
theorem settle_waits (hdue : s.todo = { Todo.none with exam := true }) (hclosings : NoClosings s)
    (hwait : s.arb.waiting = [w]) (hgrant : s.claimGrantable w = false)
    (hmoving : (s.sq (other w.carriage)).state = .moving) :
    s.settle = { s with todo := Todo.none } := by
  have hreset : ({ s with todo := { s.todo with exam := false } } : State)
      = { s with todo := Todo.none } := by
    rw [hdue]
    rfl
  have hgrants : ({ s with todo := Todo.none } : State).grantClaims = { s with todo := Todo.none } :=
    grantClaims_none (s := { s with todo := Todo.none }) fun x hx => by
      have hx' : x ∈ [w] := hwait ▸ hx
      rw [List.mem_singleton.1 hx']
      exact hgrant
  have hclosings' : ({ s with todo := Todo.none } : State).judgeClosings = { s with todo := Todo.none } :=
    NoClosings.judgeClosings ⟨hclosings.1, hclosings.2, hclosings.3⟩
  have hhelps : ({ s with todo := Todo.none } : State).helpClaims = { s with todo := Todo.none } := by
    have hhelp := helpClaim_motion (s := { s with todo := Todo.none }) (w := w) hmoving (.inl rfl)
    rw [State.helpClaims, show ({ s with todo := Todo.none } : State).arb.waiting = [w] from hwait,
      List.foldl_cons, List.foldl_nil, hhelp]
  refine settle_pass hdue ?_ rfl
  rw [State.examPass, hreset, hgrants, hclosings', hhelps]

end

/-! ### A claim for a move -/

section
variable {s : State} {c : Carriage} {cur target : Nat}

theorem strayed_inPlace {p : Pos} (hpos : (s.pt c).position = some p) (hzone : (s.arec c).zone = some cur)
    (hplace : s.posZone p = cur) : s.strayed c = none := by
  rw [State.strayed, hpos, hzone]
  exact if_pos hplace

theorem claimSpan_eq {w : WaitingClaim} (hzone : (s.arec w.carriage).zone = some cur) :
    s.claimSpan w = spanOf cur w.target := by
  rw [State.claimSpan, hzone]

theorem claimMove_grants (hzone : (s.arec c).zone = some cur) (hplace : s.strayed c = none)
    (hspan : s.spanClaimable c false (spanOf cur target) = true) :
    s.claimMove c target = s.grantSpan c (spanOf cur target) := by
  simp only [State.claimMove, hzone, hplace]
  exact if_pos hspan

theorem claimMove_waits (hzone : (s.arec c).zone = some cur) (hplace : s.strayed c = none)
    (hspan : s.spanClaimable c false (spanOf cur target) = false) :
    s.claimMove c target = (({ s with
      arb := { s.arb with
        waiting := s.arb.waiting ++ [⟨c, target, (s.sq c).workClass, false⟩] } } : State).setCarState c
          .claiming).dueExam := by
  simp only [State.claimMove, hzone, hplace]
  exact if_neg (by rw [hspan]; exact Bool.false_ne_true)

/-- The step of a granted move is a command to the drive, not SAW WAIT. -/
def State.issues (s : State) (c : Carriage) : Prop :=
  ∀ p w, (s.sq c).nextAction = .deliver p w → (s.sq c).atInfeed = true →
    s.infeedTakes w = true ∧ (s.sq c).hasDest = true

theorem ExamOnly.todo_due {u : State} (h : ExamOnly s u) :
    ({ u.todo with exam := true } : Todo) = { s.todo with exam := true } := by
  simp only [h.blocked, h.wait]

theorem ExamOnly.issue {u : State} (h : ExamOnly s u) (hissues : u.issues c) :
    ExamOnly s (u.issue c) := by
  unfold State.issue
  split
  · exact h.issueMove _ _ _
  · exact h.issueMove _ _ _
  · next p w haction =>
    split
    · next hat =>
      obtain ⟨htakes, hdest⟩ := hissues p w haction hat
      rw [htakes, hdest]
      exact h.handStep _ _
    · exact h.handStep _ _
  · exact h

theorem setCarState_same {st : CarState} (h : (s.sq c).state = st) : s.setCarState c st = s := if_pos h

/-- A carriage in motion is granted a further span (R92). -/
theorem grantSpan_moving (h : (s.sq c).state = .moving) (r : ZoneRange) :
    s.grantSpan c r = ((s.holdZones c (inRange r)).dueExam).issue c := by
  have hstate : ((s.holdZones c (inRange r)).sq c).state = .moving := by
    rw [State.holdZones, mapZones_sq]
    exact h
  rw [State.grantSpan, setCarState_same hstate]

theorem issues_congr {u : State} (hsq : u.sq c = s.sq c)
    (htakes : ∀ w, u.infeedTakes w = s.infeedTakes w) (h : s.issues c) : u.issues c := by
  intro p w haction hat
  rw [hsq] at haction hat
  rw [hsq, htakes]
  exact h p w haction hat

theorem infeedTakes_congr {u : State} (hcell : u.cell = s.cell) (hrecs : u.stackRecs = s.stackRecs)
    (hsaws : u.saws = s.saws) (w : Saw) : u.infeedTakes w = s.infeedTakes w := by
  rw [State.infeedTakes, State.infeedTakes, bookCount_congr hcell hrecs, hsaws]

theorem ExamOnly.grantsMoving {u : State} (h : ExamOnly s u) (hstate : (u.sq c).state = .moving)
    (hissues : u.issues c) (r : ZoneRange) : ExamOnly s (u.grantSpan c r) := by
  rw [grantSpan_moving hstate]
  have hzones : ExamOnly s (u.holdZones c (inRange r)).dueExam := (h.mapZones _).dueExam
  refine hzones.issue (issues_congr (s := u) ?_ (infeedTakes_congr ?_ ?_ ?_) hissues)
  · rw [dueExam_sq, State.holdZones, mapZones_sq]
  · rw [dueExam_cell, State.holdZones, mapZones_cell]
  · rw [dueExam_stackRecs, State.holdZones, mapZones_stackRecs]
  · rw [dueExam_saws, State.holdZones, mapZones_saws]

/-- A claim is not seen by what makes a zone claimable. -/
theorem spanClaimable_claiming (s : State) (c : Carriage) (l : List WaitingClaim) (q : Sequencer)
    (t : Todo) (b : Bool) (r : ZoneRange) :
    ({ s with arb := { s.arb with waiting := l }, seq := s.seq.set c q, todo := t } :
      State).spanClaimable c b r = s.spanClaimable c b r := by
  cases c <;> rfl

/-- A carriage in motion goes on to its next move, and the step ends there (R92, R96). -/
theorem claimMove_movesOn {u x : State} {cls : WorkClass} (hexam : ExamOnly s u)
    (hrested : s.rested = true) (hclaims : s.noClaims = true) (hx : { u with todo := s.todo } = x)
    (hmoving : (u.sq c).state = .moving) (hzone : (u.arec c).zone = some cur)
    (hplace : u.strayed c = none) (hcls : (u.sq c).workClass = cls) (hissues : u.issues c) :
    movesOn x (u.claimMove c target).settle c cur target cls := by
  have htodo := todo_of_rested hrested
  subst hx
  refine ⟨fun hspan => ?_, fun hspan hother => ?_⟩
  · have hspan' : u.spanClaimable c false (spanOf cur target) = true := hspan
    rw [claimMove_grants hzone hplace hspan',
      (hexam.grantsMoving hmoving hissues _).settles hrested hclaims]
    have hmoving' : (({ u with todo := s.todo } : State).sq c).state = .moving := hmoving
    have hsame : (u.holdZones c (inRange (spanOf cur target))).dueExam
        = (({ u with todo := s.todo } : State).holdZones c (inRange (spanOf cur target))).dueExam :=
      congrArg (fun t => { u.holdZones c (inRange (spanOf cur target)) with todo := t })
        hexam.todo_due
    rw [grantSpan_moving hmoving, grantSpan_moving hmoving', hsame]
  · have hspan' : u.spanClaimable c false (spanOf cur target) = false := hspan
    have hother' : (u.sq (other c)).state = .moving := hother
    rw [claimMove_waits hzone hplace hspan', hcls, waiting_of_noClaims (hexam.noClaims hclaims),
      List.nil_append]
    have hset := setCarState_eq (st := .claiming) (c := c)
      (s := { u with arb := { u.arb with waiting := [⟨c, target, cls, false⟩] } })
      (by
        have hmotion : CarState.unmoved (u.sq (other c)).state = true := by rw [hother']; rfl
        exact hmotion)
      (fun e => CarState.noConfusion (hmoving.symm.trans e))
    have hclosings := noClosings_of_noClaims (hexam.noClaims hclaims)
    have hdue : ({ u.todo with exam := true } : Todo) = { Todo.none with exam := true } := by
      rw [hexam.todo_due, htodo]
    have hwaits := settle_waits (w := ⟨c, target, cls, false⟩)
      (s := (({ u with
        arb := { u.arb with waiting := [⟨c, target, cls, false⟩] } } : State).modSeq c fun q =>
          { q with state := .claiming }).dueExam) hdue
      ⟨hclosings.gate0, hclosings.gate1, hclosings.host⟩ rfl ?_ ?_
    · rw [hset, htodo]
      exact hwaits
    · have hsame := spanClaimable_claiming u c [⟨c, target, cls, false⟩]
        { u.sq c with state := .claiming } { u.todo with exam := true } false (spanOf cur target)
      have hspanNow := claimSpan_eq (w := ⟨c, target, cls, false⟩)
        (s := (({ u with
          arb := { u.arb with waiting := [⟨c, target, cls, false⟩] } } : State).modSeq c fun q =>
            { q with state := .claiming }).dueExam) hzone
      rw [State.claimGrantable, hspanNow]
      exact hsame.trans hspan'
    · rw [dueExam_sq, modSeq_sq_other]
      exact hother'

end

end Sys2Proof.Machine
end

section
/-! The records of a completed step are made before or after the drive port takes the completion: the
operations on the other records commute with a change of the ports. -/

namespace Sys2Proof.Machine

/-- The state with these drive ports. -/
def State.withPort (s : State) (v : PerCarriage DrivePort) : State := { s with port := v }

theorem withPort_self (s : State) : s.withPort s.port = s := rfl

theorem withPort_port (s : State) (v : PerCarriage DrivePort) : (s.withPort v).port = v := rfl

theorem ite_withPort (c : Prop) [Decidable c] (a b : State) (v : PerCarriage DrivePort) :
    (if c then a.withPort v else b.withPort v) = (if c then a else b).withPort v :=
  (apply_ite (State.withPort · v) c a b).symm

/-- The operation neither reads nor changes the ports. -/
def PortFree (f : State → State) : Prop := ∀ s v, f (s.withPort v) = (f s).withPort v

namespace PortFree
variable {f g : State → State}

theorem comp (hf : PortFree f) (hg : PortFree g) : PortFree fun s => g (f s) := fun s v =>
  (congrArg g (hf s v)).trans (hg (f s) v)

theorem port (hf : PortFree f) (s : State) : (f s).port = s.port := by
  have h := hf s s.port
  rw [withPort_self] at h
  rw [h, withPort_port]

theorem modPort (hf : PortFree f) (s : State) (c : Carriage) (k : DrivePort → DrivePort) :
    f (s.modPort c k) = (f s).modPort c k := by
  have hpt : (f s).pt c = s.pt c := congrArg (PerCarriage.get · c) (hf.port s)
  have hset := hf s (s.port.set c (k (s.pt c)))
  refine hset.trans ?_
  rw [State.modPort, hpt, hf.port]
  rfl

theorem modSeq (c h) : PortFree fun s => s.modSeq c h := fun _ _ => rfl

theorem raise (kind src d) : PortFree fun s => s.raise kind src d := fun s v =>
  raise_comm (f := fun s => s.withPort v) (fun _ _ => rfl) s kind src d

theorem workNotice : PortFree State.workNotice := fun s v => by
  rw [workNotice_eq, workNotice_eq]
  rfl

theorem requeueWhere (p) : PortFree fun s => s.requeueWhere p := fun s v => by
  have hnotice := workNotice (s.mapOrders p fun e => { e with state := s.requeuedState e }) v
  unfold State.requeueWhere
  rw [← ite_withPort, ← hnotice]
  rfl

theorem judge (w) : PortFree fun s => s.judge w := fun s v => by
  have hdue (r : ReturnEntry) : (if r.isDue s.cell.trigger = true then
        (({ s.withPort v with queue := s.queue.takeRank.2 } : State).modReturn w fun y =>
          { y with state := .due s.queue.takeRank.1 }).workNotice else s.withPort v)
      = (if r.isDue s.cell.trigger = true then
        (({ s with queue := s.queue.takeRank.2 } : State).modReturn w fun y =>
          { y with state := .due s.queue.takeRank.1 }).workNotice else s).withPort v := by
    rw [← ite_withPort, ← workNotice]
    rfl
  unfold State.judge
  dsimp only
  rw [show (s.withPort v).queue = s.queue from rfl]
  cases s.queue.returns[w] with
  | none => rfl
  | some r =>
    dsimp only
    cases r.state with
    | notDue => exact hdue r
    | due n =>
      exact ite_withPort (r.isDue s.cell.trigger = true) s
        (s.modReturn w fun x => { x with state := .notDue }) v
    | taken c n => rfl
    | suspended c n => rfl

theorem handCount (w n b) : PortFree fun s => s.handCount w n b := fun s v =>
  judge w (s.modReturn w fun r => { r with count := n, ready := b }) v

theorem handPermit (w b) : PortFree fun s => s.handPermit w b := fun s v =>
  judge w (s.modReturn w fun r => { r with withdrawn := b }) v

theorem setPermitHold (w b) : PortFree fun s => s.setPermitHold w b := fun s v => by
  unfold State.setPermitHold
  rw [← ite_withPort, ← handPermit w b]
  rfl

theorem permitByCount (w n) : PortFree fun s => s.permitByCount w n := fun s v => by
  unfold State.permitByCount
  rw [← ite_withPort, ← ite_withPort, ← setPermitHold w true, ← setPermitHold w false]
  rfl

theorem contentNotice (p c) : PortFree fun s => s.contentNotice p c := fun s v => by
  dsimp only
  rw [contentNotice_eq, contentNotice_eq]
  rfl

theorem contentChange (p) : PortFree fun s => s.contentChange p := fun s v => by
  have hnotices := ((requeueWhere OrderEntry.isStarved).comp (contentNotice p .A)).comp
    (contentNotice p .B) s v
  unfold State.contentChange State.requeueStarved
  dsimp only at hnotices ⊢
  rw [hnotices]
  generalize ((s.requeueWhere OrderEntry.isStarved).contentNotice p .A).contentNotice p .B = u
  have hcount (w : Saw) := ((handCount w (knownCount (u.runsAt p))
    (u.stackState p = some .ready)).comp (permitByCount w (knownCount (u.runsAt p)))) u v
  rw [show (u.withPort v).kindAt p = u.kindAt p from rfl, show (u.withPort v).cell = u.cell from rfl]
  cases u.kindAt p with
  | return_ =>
    cases u.cell.places[p].saw with
    | none => rfl
    | some w => exact hcount w
  | _ => rfl

theorem setStack (p st runs) : PortFree fun s => s.setStack p st runs := fun s v =>
  contentChange p (s.modStack p fun r => { r with state := st, runs := runs }) v

theorem nudgeBlocked (c l) : PortFree fun s => s.nudgeBlocked c l := fun s v => by
  unfold State.nudgeBlocked
  dsimp only
  rw [show (s.withPort v).sq c = s.sq c from rfl]
  cases (s.sq c).state <;> rfl

theorem userCleared (p) : PortFree fun s => s.userCleared p := fun s v => by
  unfold State.userCleared
  dsimp only
  rw [show (s.withPort v).kindAt p = s.kindAt p from rfl, show (s.withPort v).cell = s.cell from rfl]
  cases s.kindAt p with
  | infeed =>
    cases s.cell.places[p].saw with
    | none => rfl
    | some w =>
      exact ite_withPort ((s.saws[w].releasePending && s.saws[w].servable) = true)
        (s.releaseBook w) s v
  | _ => rfl

theorem releasePlace (c p) : PortFree fun s => s.releasePlace c p := fun s v => by
  have hcleared := (userCleared p).comp (nudgeBlocked (other c) fun l => { l with release := true })
    (s.setUser p none) v
  unfold State.releasePlace
  rw [← ite_withPort, ← hcleared]
  rfl

end PortFree

end Sys2Proof.Machine
end

section
/-! What a completed step leads to: the records of a pick and of a place, and the next move. -/

namespace Sys2Proof.Machine

/-! ### Changes that a sequencer at work does not notice -/

/-- Of the sequencers only the notices are changed; the Cell Map, the ports and the arbiter stay. -/
structure Noted (s u : State) : Prop where
  unmoved : Unmoved s u
  cell : u.cell = s.cell
  port : u.port = s.port
  seq : ∀ d, ∃ a l, u.sq d = { s.sq d with ask := a, latched := l }

namespace Noted
variable {s u v : State}

theorem of_told (h : Told s u) : Noted s u := ⟨h.unmoved, h.cell, h.port, h.seq⟩

theorem of_same (h : Unmoved s u) (hcell : u.cell = s.cell) (hport : u.port = s.port)
    (hseq : u.seq = s.seq) : Noted s u :=
  ⟨h, hcell, hport, fun d => ⟨(s.sq d).ask, (s.sq d).latched, by rw [State.sq, State.sq, hseq]⟩⟩

theorem refl (s : State) : Noted s s := of_told (.refl s)

theorem trans (h : Noted s u) (k : Noted u v) : Noted s v := by
  refine ⟨h.unmoved.trans k.unmoved, k.cell.trans h.cell, k.port.trans h.port, fun d => ?_⟩
  obtain ⟨a, l, hd⟩ := h.seq d
  obtain ⟨a', l', kd⟩ := k.seq d
  exact ⟨a', l', by rw [kd, hd]⟩

theorem arb (h : Noted s u) : u.arb = s.arb := h.unmoved.arb

theorem arec (h : Noted s u) (c : Carriage) : u.arec c = s.arec c := by
  rw [State.arec, State.arec, h.arb]

theorem pt (h : Noted s u) (c : Carriage) : u.pt c = s.pt c := by rw [State.pt, State.pt, h.port]

theorem modSaw (h : Noted s u) (w f) : Noted s (u.modSaw w f) :=
  h.trans (of_same ((Unmoved.refl u).modSaw w f) rfl rfl rfl)

theorem judge (h : Noted s u) (w) : Noted s (u.judge w) := by
  refine h.trans (of_told ?_)
  unfold State.judge
  split
  · exact .refl u
  · split
    · split
      · exact ((Told.of_queue u u.queue.takeRank.2).modReturn w _).workNotice
      · exact .refl u
    · split
      · exact .refl u
      · exact (Told.refl u).modReturn w _
    · exact .refl u

theorem handCount (h : Noted s u) (w n b) : Noted s (u.handCount w n b) :=
  (h.trans (of_told ((Told.refl u).modReturn w _))).judge w

theorem handPermit (h : Noted s u) (w b) : Noted s (u.handPermit w b) :=
  (h.trans (of_told ((Told.refl u).modReturn w _))).judge w

theorem setPermitHold (h : Noted s u) (w b) : Noted s (u.setPermitHold w b) := by
  unfold State.setPermitHold
  split
  · exact h
  · exact (h.modSaw w _).handPermit w b

theorem permitByCount (h : Noted s u) (w n) : Noted s (u.permitByCount w n) := by
  unfold State.permitByCount
  split
  · exact h.setPermitHold w _
  · split
    · exact h
    · exact h.setPermitHold w _

/-- The notices of a content change go to no carriage at work. -/
theorem contentChange (h : Noted s u) (hs : s.noChoosers = true) (p : Place) :
    Noted s (u.contentChange p) := by
  have hrequeued : Noted s u.requeueStarved := h.trans (of_told ((Told.refl u).requeueWhere _))
  rw [contentChange_noChoosers (h.unmoved.noChoosers hs), State.handsOnCount]
  split
  · exact (hrequeued.handCount _ _ _).permitByCount _ _
  · exact hrequeued

theorem setStack (h : Noted s u) (hs : s.noChoosers = true) (p st runs) :
    Noted s (u.setStack p st runs) :=
  (h.trans (of_same ((Unmoved.refl u).modStack p fun r => { r with state := st, runs := runs })
    rfl rfl rfl)).contentChange hs p

theorem raise (h : Noted s u) (kind src d) : Noted s (u.raise kind src d) := by
  refine h.trans (of_same ((Unmoved.refl u).raise kind src d) ?_ ?_ ?_)
  · rw [raise_eq_reporting]
    rfl
  · rw [raise_eq_reporting]
    rfl
  · rw [raise_eq_reporting]
    rfl

theorem releasePlace (h : Noted s u) (hs : s.noChoosers = true) (c : Carriage) (p : Place) :
    Noted s (u.releasePlace c p) := by
  obtain ⟨v, hv, -⟩ := releasePlace_frame (s := u) (c := c)
    ((noChoosers_iff u).1 (h.unmoved.noChoosers hs) (other c)) p
  rw [hv]
  exact h.trans (of_same ⟨rfl, rfl, rfl, fun _ => rfl⟩ rfl rfl rfl)

theorem setUser (h : Noted s u) (p : Place) (c : Option Carriage) : Noted s (u.setUser p c) :=
  h.trans (of_same ((Unmoved.refl u).modStack p fun r => { r with user := c }) rfl rfl rfl)

theorem placeZone (h : Noted s u) (p : Place) : u.placeZone p = s.placeZone p := by
  rw [State.placeZone, State.placeZone, h.cell]

end Noted

/-! ### Releasing a place -/

/-- The release of a place by a carriage leaves its own sequencer to later changes. -/
theorem releasePlace_modSeq (s : State) (c : Carriage) (p : Place) (f : Sequencer → Sequencer) :
    (s.modSeq c f).releasePlace c p = (s.releasePlace c p).modSeq c f := by
  have hnudge (u : State) : (u.modSeq c f).nudgeBlocked (other c) (fun l => { l with release := true })
      = (u.nudgeBlocked (other c) fun l => { l with release := true }).modSeq c f := by
    unfold State.nudgeBlocked
    rw [modSeq_sq_other]
    cases (u.sq (other c)).state with
    | blocked => rfl
    | held => cases c <;> rfl
    | _ => rfl
  have hcleared (u : State) : (u.modSeq c f).userCleared p = (u.userCleared p).modSeq c f := by
    unfold State.userCleared
    rw [show (u.modSeq c f).kindAt p = u.kindAt p from rfl, modSeq_cell]
    cases u.kindAt p with
    | infeed =>
      cases u.cell.places[p].saw with
      | none => rfl
      | some w =>
        exact (apply_ite (fun v : State => v.modSeq c f)
          ((u.saws[w].releasePending && u.saws[w].servable) = true) (u.releaseBook w) u).symm
    | _ => rfl
  unfold State.releasePlace
  by_cases h : s.userAt p = some c
  · rw [if_pos h]
    refine (if_pos h).trans ?_
    rw [← hnudge, ← hcleared]
    rfl
  · rw [if_neg h]
    exact if_neg h

section
variable {s : State} {c : Carriage} {w : Work} {p : Place}

theorem modWork_eq (hwork : (s.sq c).work = some w) (f : Work → Work) :
    s.modWork c f = s.modSeq c fun q => { q with work := some (f w) } := by
  refine modSeq_congr ?_
  rw [hwork]
  rfl

theorem releaseSource_eq (hwork : (s.sq c).work = some w) (hsource : w.source = some p) :
    s.releaseSource c = (s.releasePlace c p).modSeq c fun q =>
      { q with work := some { w with source := none } } := by
  rw [State.releaseSource, hwork]
  dsimp only
  rw [hsource]
  dsimp only
  rw [modWork_eq hwork, releasePlace_modSeq]

theorem releaseDest_eq (hwork : (s.sq c).work = some w) (hdest : w.dest = some p) :
    s.releaseDest c = (s.releasePlace c p).modSeq c fun q =>
      { q with work := some { w with dest := none } } := by
  rw [State.releaseDest, hwork]
  dsimp only
  rw [hdest]
  dsimp only
  rw [modWork_eq hwork, releasePlace_modSeq]

end

/-! ### The port takes a completion -/

theorem modPort_congr {s : State} {c : Carriage} {f g : DrivePort → DrivePort}
    (h : f (s.pt c) = g (s.pt c)) : s.modPort c f = s.modPort c g := by
  unfold State.modPort
  rw [h]

theorem completion_next {d : DrivePort} (h : d.next ≠ none) : d.completion .next = .goesOn := by
  obtain ⟨x, hx⟩ := Option.ne_none_iff_exists'.1 h
  unfold DrivePort.completion
  rw [hx]

theorem completion_stands {d : DrivePort} (h : d.next = none) (k : Continuation) :
    d.completion k = .stands := by
  unfold DrivePort.completion
  rw [h]

theorem completeStep_next {s : State} {c : Carriage} (h : (s.pt c).next ≠ none) :
    s.completeStep c .next = wentOn s c := by
  refine modPort_congr ?_
  rw [DrivePort.complete, completion_next h]

theorem completeStep_stands {s : State} {c : Carriage} (h : (s.pt c).next = none) (k : Continuation) :
    s.completeStep c k = wentOn s c := by
  refine modPort_congr ?_
  rw [DrivePort.complete, completion_stands h]
  dsimp only
  rw [h]

/-- An operation on the other records is made before or after the drive goes on. -/
theorem PortFree.wentOn {f : State → State} (hf : PortFree f) (s : State) (c : Carriage) :
    f (wentOn s c) = wentOn (f s) c := hf.modPort s c _

theorem Unmoved.wentOn {s u : State} (h : Unmoved s u) (c : Carriage) : Unmoved s (wentOn u c) :=
  h.modPort c _

theorem wentOn_pt (s : State) (c : Carriage) : (wentOn s c).pt c
    = { s.pt c with current := (s.pt c).next, next := none, withdrawing := false } :=
  modPort_pt_self s c _

theorem wentOn_sq (s : State) (c d : Carriage) : (wentOn s c).sq d = s.sq d := modPort_sq s c _ d

/-! ### The standing carriage goes on -/

section
variable {s : State} {c : Carriage}

/-- The work has a source to pick at, a place to put its load or a load to deliver. -/
def Action.moves : Action → Prop
  | .pick _ => True
  | .place _ => True
  | .deliver _ _ => True
  | _ => False

theorem advance_stays (h : (s.sq c).nextAction.moves ∨ (s.sq c).nextAction = .choose) :
    s.advance c = s := by
  unfold State.advance State.advanceN
  rcases hnext : (s.sq c).nextAction with _ | _ | p | _ | p | p | ⟨p, w⟩
  · rw [hnext] at h
    exact h.elim False.elim Action.noConfusion
  · rw [hnext] at h
    exact h.elim False.elim Action.noConfusion
  · rw [hnext] at h
    exact h.elim False.elim Action.noConfusion
  · rfl
  · rfl
  · rfl
  · rfl

theorem advance_rests (hwork : (s.sq c).work = none) (hnone : (s.sq c).suspended = []) :
    s.advance c = s := by
  have hnext : (s.sq c).nextAction = .rest := by rw [Sequencer.nextAction, hwork]
  unfold State.advance State.advanceN
  rw [hnext]
  exact if_pos (by rw [hnone]; rfl)

/-- No notice of a cancel and no expired wait keeps the carriage from going on. -/
theorem goOn_proceeds (hcancel : (s.sq c).cancelPending = false) (hexpired : (s.sq c).expired = false) :
    s.goOn c = s.proceed c := by
  rw [State.goOn, hcancel, hexpired]
  rfl

/-- The next move of the work leads to this zone. -/
def State.movesTo (s : State) (c : Carriage) (z : Nat) : Prop :=
  (∃ p, ((s.sq c).nextAction = .pick p ∨ (s.sq c).nextAction = .place p) ∧ s.placeZone p = z)
    ∨ ∃ p w, (s.sq c).nextAction = .deliver p w ∧ (s.sq c).atInfeed = false
      ∧ s.standsAt c p = false ∧ s.placeZone p = z

namespace State.movesTo
variable {z : Nat} (h : s.movesTo c z)
include h

theorem moves : (s.sq c).nextAction.moves := by
  rcases h with ⟨p, haction | haction, -⟩ | ⟨p, w, haction, -, -⟩ <;> rw [haction] <;> trivial

theorem moveOn : s.moveOn c = s.claimMove c z := by
  unfold State.moveOn
  rcases h with ⟨p, haction | haction, rfl⟩ | ⟨p, w, haction, hat, hstands, rfl⟩
  · rw [haction]
  · rw [haction]
  · rw [haction]
    dsimp only
    rw [hat, hstands]
    rfl

theorem issues : s.issues c := by
  intro p w haction hat
  rcases h with ⟨q, haction' | haction', -⟩ | ⟨q, x, -, hat', -⟩
  · exact Action.noConfusion (haction.symm.trans haction')
  · exact Action.noConfusion (haction.symm.trans haction')
  · exact Bool.noConfusion (hat.symm.trans hat')

theorem act (hhold : (s.sq c).holdPending = false) : s.act c = s.claimMove c z := by
  rw [← h.moveOn, State.act, hhold]
  refine (if_neg Bool.false_ne_true).trans ?_
  rcases h with ⟨p, haction | haction, -⟩ | ⟨p, w, haction, -, -⟩ <;> rw [haction]

theorem goOn (hcancel : (s.sq c).cancelPending = false) (hexpired : (s.sq c).expired = false)
    (hhold : (s.sq c).holdPending = false) : s.goOn c = s.claimMove c z := by
  rw [goOn_proceeds hcancel hexpired, State.proceed, advance_stays (.inl h.moves), h.act hhold]

end State.movesTo

/-- A carriage that enters HELD where nothing waits on it (R136, R137). -/
theorem enterHeld_eq (hother : (s.sq (other c)).state.unmoved = true) (hne : (s.sq c).state ≠ .held) :
    s.enterHeld c = (s.modSeq c fun q => { q with
      state := .held, holdPending := false, expired := false
      wait := ⟨false, q.wait.ms⟩ }).dueExam := by
  have hfields := modSeq_modSeq s c (fun q => { q with state := .held })
    fun q => { q with holdPending := false, wait := q.wait.halt, expired := false }
  rw [State.enterHeld, setCarState_eq hother hne]
  exact congrArg State.dueExam hfields

theorem act_holds (hhold : (s.sq c).holdPending = true) : s.act c = s.enterHeld c := if_pos hhold

end

end Sys2Proof.Machine
end

section
/-! LIFT DONE (O45). -/

namespace Sys2Proof.Machine

/-! ### The piece lifted -/

section
variable {s : State} {c : Carriage} {p : Place} {r : StackRec} {x : Piece} {n : Nat} {below : List Run}

/-- The record of a place once its top piece is lifted, STACK EMPTY being raised for the last one (R31). -/
def State.liftedTo (s : State) (p : Place) (x : Piece) (st : StackState) (rest : List Run) : State :=
  if rest = [] then (s.setStack p .empty []).raise .stackEmpty (.place p) x.material
  else s.setStack p st rest

theorem liftFrom_eq (hr : s.stackRecs[p] = some r) (hruns : r.runs = ⟨x, some n⟩ :: below) :
    s.liftFrom p = s.liftedTo p x r.state (if n ≤ 1 then below else ⟨x, some (n - 1)⟩ :: below) := by
  have hrest : dropPiece (s.runsAt p) = if n ≤ 1 then below else ⟨x, some (n - 1)⟩ :: below := by
    rw [runsAt_eq hr, hruns]
    rfl
  have htop : s.topPiece p = some x := by
    rw [State.topPiece, runsAt_eq hr, hruns]
    rfl
  unfold State.liftFrom
  dsimp only
  rw [hrest, htop, stackState_eq hr]
  rfl

theorem PortFree.liftedTo (p x st rest) : PortFree fun s => s.liftedTo p x st rest := by
  unfold State.liftedTo
  by_cases h : rest = []
  · simp only [if_pos h]
    exact (PortFree.setStack p _ _).comp (PortFree.raise _ _ _)
  · simp only [if_neg h]
    exact PortFree.setStack p _ _

theorem Noted.liftedTo {u : State} (h : Noted s u) (hs : s.noChoosers = true) (p x st rest) :
    Noted s (u.liftedTo p x st rest) := by
  unfold State.liftedTo
  split
  · exact (h.setStack hs _ _ _).raise _ _ _
  · exact h.setStack hs _ _ _

/-! ### The records of a completed PICK -/

variable {w : Work} {prof : GripProfile} {slipped : Bool} (hr : s.stackRecs[p] = some r)
  (hruns : r.runs = ⟨x, some n⟩ :: below) (hs : s.noChoosers = true)
  (hwork : (s.sq c).work = some w) (horder : ∃ m v a b infeed g, w.kind = .order m v a b infeed g)
include hr hruns hs hwork horder

/-- The state of the record and the order after its wanted piece is lifted (R75, R127). -/
theorem pickDone_source (hphase : w.phase = .source) (hsource : w.source = some p) :
    s.pickDone c p prof slipped
      = ((s.liftedTo p x r.state (if n ≤ 1 then below else ⟨x, some (n - 1)⟩ :: below)).releasePlace
        c p).modSeq c fun q => { q with
          load := some ⟨x, p, !slipped, prof⟩, atInfeed := false
          work := some { w with source := none, phase := .deliver } } := by
  obtain ⟨m, v, a, b, infeed, g, hkind⟩ := horder
  have htop : s.topPiece p = some x := by
    rw [State.topPiece, runsAt_eq hr, hruns]
    rfl
  have hnoted := (Noted.refl s).liftedTo hs p x r.state
    (if n ≤ 1 then below else ⟨x, some (n - 1)⟩ :: below)
  obtain ⟨ask, latched, hsq⟩ := hnoted.seq c
  unfold State.pickDone
  rw [htop, liftFrom_eq hr hruns, hwork]
  dsimp only
  rw [hkind, hphase]
  dsimp only
  generalize s.liftedTo p x r.state (if n ≤ 1 then below else ⟨x, some (n - 1)⟩ :: below) = u at *
  have hworkNow : ((u.modSeq c fun q => { q with load := some ⟨x, p, !slipped, prof⟩ }).sq c).work
      = some w := by
    rw [modSeq_sq_self, hsq]
    exact hwork
  rw [releaseSource_eq hworkNow hsource, releasePlace_modSeq, State.modWork, modSeq_modSeq,
    modSeq_modSeq, modSeq_modSeq, ← hkind]
  rfl

omit hs in
/-- A DIG keeps its claims (R72, R127). -/
theorem pickDone_dig {k : Nat} {dug : Place} (hphase : w.phase = .dig k dug) :
    s.pickDone c p prof slipped
      = (s.liftedTo p x r.state (if n ≤ 1 then below else ⟨x, some (n - 1)⟩ :: below)).modSeq c
        fun q => { q with load := some ⟨x, p, !slipped, prof⟩ } := by
  obtain ⟨m, v, a, b, infeed, g, hkind⟩ := horder
  have htop : s.topPiece p = some x := by
    rw [State.topPiece, runsAt_eq hr, hruns]
    rfl
  unfold State.pickDone
  rw [htop, liftFrom_eq hr hruns, hwork]
  dsimp only
  rw [hkind, hphase]

end

/-! ### The report of a PICK -/

section
variable {s : State} {c : Carriage}

theorem takeLift_pick {k : Continuation} {p : Place} {top search : Nat} {prof : GripProfile}
    {slipped : Bool} (hstop : (s.pt c).stopping = false)
    (hcur : (s.pt c).current = some (.pick p top search prof .lifting slipped)) :
    s.takeLift c k = ((s.completeStep c k).pickDone c p prof slipped).follow c
      ((s.pt c).completion k) := by
  rw [State.takeLift, hstop, hcur]
  rfl

theorem takeLift_place {k : Continuation} {p : Place} {top floor : Nat}
    (hstop : (s.pt c).stopping = false)
    (hcur : (s.pt c).current = some (.place p top floor true)) :
    s.takeLift c k = ((s.completeStep c k).placeDone c).follow c ((s.pt c).completion k) := by
  rw [State.takeLift, hstop, hcur]
  rfl

/-- The report is taken with a next step in the drive, which then runs (R124). -/
theorem follow_next {u : State} (h : (s.pt c).next ≠ none) :
    u.follow c ((s.pt c).completion .next) = u := by
  rw [completion_next h]
  rfl

theorem follow_stands {u : State} (h : (s.pt c).next = none) (k : Continuation) :
    u.follow c ((s.pt c).completion k) = u.goOn c := by
  rw [completion_stands h]
  rfl

end

/-! ### What the carriage does next -/

section
variable {q : Sequencer} {w : Work}
  {m : Nat} {v : Saw} {a b : Nat} {infeed : Place} {g : Option Place}

theorem nextAction_deliver (hwork : q.work = some w) (hkind : w.kind = .order m v a b infeed g)
    (hphase : w.phase = .deliver) : q.nextAction = .deliver infeed v := by
  rw [Sequencer.nextAction, hwork]
  dsimp only
  rw [hkind, hphase]

theorem nextAction_source (hwork : q.work = some w) (hkind : w.kind = .order m v a b infeed g)
    (hphase : w.phase = .source) {p : Place} (hsource : w.source = some p) :
    q.nextAction = .pick p := by
  rw [Sequencer.nextAction, hwork]
  dsimp only
  rw [hkind, hphase]
  dsimp only
  rw [hsource]

variable {k : Nat} {dug : Place} (hwork : q.work = some w)
  (hkind : w.kind = .order m v a b infeed g) (hphase : w.phase = .dig k dug)
include hwork hkind hphase

theorem nextAction_digPlace {d : Place} (hload : q.load ≠ none) (hdest : w.dest = some d) :
    q.nextAction = .place d := by
  obtain ⟨l, hl⟩ := Option.ne_none_iff_exists'.1 hload
  rw [Sequencer.nextAction, hwork]
  dsimp only
  rw [hkind, hphase]
  dsimp only
  rw [hl, hdest]
  rfl

theorem nextAction_digPick {d : Place} (hload : q.load = none) (hdest : w.dest = some d) :
    q.nextAction = .pick dug := by
  rw [Sequencer.nextAction, hwork]
  dsimp only
  rw [hkind, hphase]
  dsimp only
  rw [hload, hdest]

theorem nextAction_digChoose (hload : q.load = none) (hdest : w.dest = none) :
    q.nextAction = .choose := by
  rw [Sequencer.nextAction, hwork]
  dsimp only
  rw [hkind, hphase]
  dsimp only
  rw [hload, hdest]

end

/-! ### The carriage standing after its step -/

section
variable {s : State} {c : Carriage} {pos : Pos}

/-- The carriage stands where its report came from, in its zone, with nothing but its work to go on with;
the sequencer is the one before but for what the step has changed. -/
structure StandsReady (s u : State) (c : Carriage) (cur : Nat) (cls : WorkClass) : Prop where
  exam : ExamOnly s u
  zone : (u.arec c).zone = some cur
  place : u.strayed c = none
  moving : (u.sq c).state = .moving
  cancel : (u.sq c).cancelPending = false
  expired : (u.sq c).expired = false
  hold : (u.sq c).holdPending = false
  cls : (u.sq c).workClass = cls

theorem StandsReady.movesOn {u : State} {cur z : Nat} {cls : WorkClass}
    (h : StandsReady s u c cur cls) (hrested : s.rested = true) (hclaims : s.noClaims = true)
    (hto : u.movesTo c z) {x : State} (hx : { u with todo := s.todo } = x) :
    movesOn x (u.goOn c).settle c cur z cls := by
  rw [hto.goOn h.cancel h.expired h.hold]
  exact claimMove_movesOn h.exam hrested hclaims hx h.moving h.zone h.place h.cls hto.issues

/-- A change of its own sequencer and of the records of a pick leaves the carriage where it stands. -/
theorem standsReady_of_noted {u : State} {cur : Nat} {f : Sequencer → Sequencer} {w : Work}
    (hu : Noted (reportedAt s c pos) u) (hwork : goesOnAtWork s c)
    (hzone : (s.arec c).zone = some cur) (hplace : s.posZone pos = cur)
    (hf : ∀ q, (f q).state = q.state ∧ (f q).cancelPending = q.cancelPending
      ∧ (f q).expired = q.expired ∧ (f q).holdPending = q.holdPending)
    (hworkNow : (f (u.sq c)).work = some w) :
    StandsReady s (wentOn (u.modSeq c f) c) c cur w.cls := by
  obtain ⟨hmoving, hhold, hcancel, hexpired, -⟩ := hwork
  obtain ⟨ask, latched, hsq⟩ := hu.seq c
  obtain ⟨hf1, hf2, hf3, hf4⟩ := hf (u.sq c)
  have hnow : (wentOn (u.modSeq c f) c).sq c = f (u.sq c) := by rw [wentOn_sq, modSeq_sq_self]
  have hbefore : u.sq c = { s.sq c with ask := ask, latched := latched } := hsq
  have harec : (wentOn (u.modSeq c f) c).arec c = s.arec c := hu.arec c
  have hpos : ((wentOn (u.modSeq c f) c).pt c).position = some pos := by
    rw [wentOn_pt, modSeq_pt, hu.pt, reportedAt_pt]
  have hposZone : (wentOn (u.modSeq c f) c).posZone pos = cur := by
    rw [← hplace, State.posZone, State.posZone, ← show u.cell = s.cell from hu.cell]
    rfl
  have hexam : ExamOnly s (wentOn (u.modSeq c f) c) :=
    ((ExamOnly.of_unmoved ((Unmoved.reported c pos).trans hu.unmoved)).modSeq c f).modPort c _
  have hzoneNow : ((wentOn (u.modSeq c f) c).arec c).zone = some cur := by rw [harec, hzone]
  refine ⟨hexam, hzoneNow, strayed_inPlace hpos hzoneNow hposZone, ?_, ?_, ?_, ?_, ?_⟩
  · rw [hnow, hf1, hbefore]
    exact hmoving
  · rw [hnow, hf2, hbefore]
    exact hcancel
  · rw [hnow, hf3, hbefore]
    exact hexpired
  · rw [hnow, hf4, hbefore]
    exact hhold
  · rw [hnow, Sequencer.workClass, hworkNow]

end

/-! ### A wanted piece, and a piece of a DIG -/

theorem Unmoved.todo_same {s u : State} (h : Unmoved s u) : { u with todo := s.todo } = u := by
  rw [← h.todo]

section
variable {s : State} {c : Carriage} {p : Place} {r : StackRec} {x : Piece} {n : Nat} {below : List Run}
  {w : Work} {prof : GripProfile} {slipped : Bool}

/-- The wanted piece is the load, and its source is released (R75, R127). -/
def State.wantedLifted (s : State) (c : Carriage) (p : Place) (x : Piece) (st : StackState)
    (rest : List Run) (l : Load) (w : Work) : State :=
  ((s.liftedTo p x st rest).releasePlace c p).modSeq c fun q => { q with
    load := some l, atInfeed := false
    work := some { w with source := none, phase := .deliver } }

/-- A piece dug off is the load (R72, R127). -/
def State.dugLifted (s : State) (c : Carriage) (p : Place) (x : Piece) (st : StackState)
    (rest : List Run) (l : Load) : State :=
  (s.liftedTo p x st rest).modSeq c fun q => { q with load := some l }

theorem Unmoved.liftsWanted {u : State} (h : Unmoved s u) (hs : s.noChoosers = true) (c p x st rest l w) :
    Unmoved s (u.wantedLifted c p x st rest l w) :=
  (h.trans (((Noted.refl u).liftedTo (h.noChoosers hs) p x st rest).releasePlace (h.noChoosers hs)
    c p).unmoved).modSeq c _ fun _ => by rfl

theorem Unmoved.liftsDug {u : State} (h : Unmoved s u) (hs : s.noChoosers = true) (c p x st rest l) :
    Unmoved s (u.dugLifted c p x st rest l) :=
  (h.trans ((Noted.refl u).liftedTo (h.noChoosers hs) p x st rest).unmoved).modSeq c _ fun _ => by rfl

variable (hr : s.stackRecs[p] = some r) (hruns : r.runs = ⟨x, some n⟩ :: below)
  (hs : s.noChoosers = true) (hwork : (s.sq c).work = some w)
  (horder : ∃ m v a b infeed g, w.kind = .order m v a b infeed g)
include hr hruns hs hwork horder

theorem wentOn_pickDone_source (hphase : w.phase = .source) (hsource : w.source = some p) :
    (wentOn s c).pickDone c p prof slipped
      = wentOn (s.wantedLifted c p x r.state (if n ≤ 1 then below else ⟨x, some (n - 1)⟩ :: below)
        ⟨x, p, !slipped, prof⟩ w) c := by
  have hlifted := pickDone_source (s := wentOn s c) (prof := prof) (slipped := slipped) hr hruns hs
    (by rw [wentOn_sq]; exact hwork) horder hphase hsource
  rw [hlifted]
  exact (((PortFree.liftedTo p x r.state _).comp (PortFree.releasePlace c p)).comp
    (PortFree.modSeq c _)).wentOn s c

omit hs in
theorem wentOn_pickDone_dig {k : Nat} {dug : Place} (hphase : w.phase = .dig k dug) :
    (wentOn s c).pickDone c p prof slipped
      = wentOn (s.dugLifted c p x r.state (if n ≤ 1 then below else ⟨x, some (n - 1)⟩ :: below)
        ⟨x, p, !slipped, prof⟩) c := by
  have hlifted := pickDone_dig (s := wentOn s c) (prof := prof) (slipped := slipped) hr hruns
    (by rw [wentOn_sq]; exact hwork) horder hphase
  rw [hlifted]
  exact ((PortFree.liftedTo p x r.state _).comp (PortFree.modSeq c _)).wentOn s c

end

/-- A carriage with a hold pending is HELD where its drive comes to stand (R137). -/
theorem goOn_held {s u : State} {c : Carriage} (hexam : ExamOnly s u) (hrested : s.rested = true)
    (hclaims : s.noClaims = true) (htodo : u.todo = s.todo)
    (hother : (u.sq (other c)).state.unmoved = true) (hmoving : (u.sq c).state = .moving)
    (hcancel : (u.sq c).cancelPending = false) (hexpired : (u.sq c).expired = false)
    (hhold : (u.sq c).holdPending = true) (hmoves : (u.sq c).nextAction.moves) :
    (.next (u.goOn c).settle : Result) = .next (u.modSeq c fun q =>
      { q with state := .held, holdPending := false, wait := ⟨false, q.wait.ms⟩ }) := by
  have hheld := enterHeld_eq hother (c := c) (by rw [hmoving]; exact CarState.noConfusion)
  rw [goOn_proceeds hcancel hexpired, State.proceed, advance_stays (.inl hmoves), act_holds hhold, hheld]
  refine ((hexam.modSeq c _).dueExam).next_settle hrested hclaims
    ((dueExam_undone ((modSeq_todo _ _ _).trans htodo)).trans ?_)
  refine modSeq_congr ?_
  rw [← hexpired]

/-- The first part of O45: LIFT DONE of a PICK for an order. -/
theorem liftDone_pick (s : State) (c : Carriage) (pos : Pos) (p : Place) (top search n : Nat)
    (prof : GripProfile) (slipped : Bool) (r : StackRec) (x : Piece) (below : List Run) (w : Work)
    (hrested : s.rested = true) (hs : s.noChoosers = true) (hstop : (s.pt c).stopping = false)
    (hcur : (s.pt c).current = some (.pick p top search prof .lifting slipped))
    (hr : s.stackRecs[p] = some r) (hruns : r.runs = ⟨x, some n⟩ :: below)
    (hwork : (s.sq c).work = some w)
    (horder : ∃ m v a b infeed g, w.kind = .order m v a b infeed g) :
    let rest := if n ≤ 1 then below else ⟨x, some (n - 1)⟩ :: below
    let load : Load := ⟨x, p, !slipped, prof⟩
    let freed := (reportedAt s c pos).wantedLifted c p x r.state rest load w
    let dug := (reportedAt s c pos).dugLifted c p x r.state rest load
    (w.phase = .source → w.source = some p → (s.pt c).next ≠ none →
        exec (.liftDone c pos .next) s = .next (wentOn freed c))
      ∧ (∀ k buffer, w.phase = .dig k buffer → (s.pt c).next ≠ none →
          exec (.liftDone c pos .next) s = .next (wentOn dug c))
      ∧ (w.phase = .source → w.source = some p → (s.pt c).next = none →
          (s.sq c).holdPending = true → (s.sq c).cancelPending = false →
          (s.sq c).expired = false → (s.sq c).state = .moving → s.noClaims = true →
          exec (.liftDone c pos .standing) s = .next (wentOn (freed.modSeq c fun q =>
            { q with state := .held, holdPending := false, wait := ⟨false, q.wait.ms⟩ }) c))
      ∧ ∀ cur, (s.pt c).next = none → goesOnAtWork s c → s.noClaims = true →
          (s.arec c).zone = some cur → s.posZone pos = cur →
          (∀ m v a b infeed g, w.kind = .order m v a b infeed g → w.phase = .source →
            w.source = some p → (wentOn freed c).standsAt c infeed = false →
            ∃ t, exec (.liftDone c pos .standing) s = .next t
              ∧ movesOn (wentOn freed c) t c cur (s.placeZone infeed) w.cls)
            ∧ ∀ k buffer d, w.phase = .dig k buffer → w.dest = some d →
                ∃ t, exec (.liftDone c pos .standing) s = .next t
                  ∧ movesOn (wentOn dug c) t c cur (s.placeZone d) w.cls := by
  intro rest load freed dug
  have hport := reportedAt_pt s c pos
  have hhere := Unmoved.reported (s := s) c pos
  have hhereChoosers := hhere.noChoosers hs
  have htaken (k : Continuation) : (reportedAt s c pos).takeLift c k
      = (((reportedAt s c pos).completeStep c k).pickDone c p prof slipped).follow c
        (((reportedAt s c pos).pt c).completion k) :=
    takeLift_pick (by rw [hport]; exact hstop) (by rw [hport]; exact hcur)
  have hsource : w.phase = .source → w.source = some p →
      (wentOn (reportedAt s c pos) c).pickDone c p prof slipped = wentOn freed c :=
    wentOn_pickDone_source (s := reportedAt s c pos) hr hruns hhereChoosers hwork horder
  have hdig : ∀ k buffer, w.phase = .dig k buffer →
      (wentOn (reportedAt s c pos) c).pickDone c p prof slipped = wentOn dug c := fun k buffer =>
    wentOn_pickDone_dig (s := reportedAt s c pos) hr hruns hwork horder
  have hnext : (s.pt c).next ≠ none → (reportedAt s c pos).takeLift c .next
      = (wentOn (reportedAt s c pos) c).pickDone c p prof slipped := fun h => by
    have h' : ((reportedAt s c pos).pt c).next ≠ none := by rw [hport]; exact h
    rw [htaken, completeStep_next h', follow_next h']
  have hstands : (s.pt c).next = none → (reportedAt s c pos).takeLift c .standing
      = ((wentOn (reportedAt s c pos) c).pickDone c p prof slipped).goOn c := fun h => by
    have h' : ((reportedAt s c pos).pt c).next = none := by rw [hport]; exact h
    rw [htaken, completeStep_stands h', follow_stands h']
  have hfreed : Unmoved s (wentOn freed c) := (hhere.liftsWanted hs c p x _ rest load w).wentOn c
  have hdug : Unmoved s (wentOn dug c) := (hhere.liftsDug hs c p x _ rest load).wentOn c
  have hliftedNoted : Noted (reportedAt s c pos) ((reportedAt s c pos).liftedTo p x r.state rest) :=
    (Noted.refl _).liftedTo hhereChoosers p x r.state rest
  have hfreedNoted := hliftedNoted.releasePlace hhereChoosers c p
  obtain ⟨ask, latched, hfreedSq⟩ := hfreedNoted.seq c
  obtain ⟨ask', latched', hdugSq⟩ := hliftedNoted.seq c
  have hfreedNow : (wentOn freed c).sq c = { s.sq c with
      ask := ask, latched := latched, load := some load, atInfeed := false
      work := some { w with source := none, phase := .deliver } } := by
    rw [wentOn_sq]
    refine (modSeq_sq_self _ c _).trans ?_
    rw [hfreedSq, reportedAt_sq]
  have hdugNow : (wentOn dug c).sq c = { s.sq c with
      ask := ask', latched := latched', load := some load } := by
    rw [wentOn_sq]
    refine (modSeq_sq_self _ c _).trans ?_
    rw [hdugSq, reportedAt_sq]
  refine ⟨fun hphase hsrc hnn => ?_, fun k buffer hphase hnn => ?_,
    fun hphase hsrc hnn hhold hcancel hexpired hmoving hclaims => ?_,
    fun cur hnn hwent hclaims hzone hplace => ⟨fun m v a b infeed g hkind hphase hsrc hat => ?_,
      fun k buffer d hphase hdest => ?_⟩⟩
  · exact hfreed.next_settle hrested ((hnext hnn).trans (hsource hphase hsrc))
  · exact hdug.next_settle hrested ((hnext hnn).trans (hdig k buffer hphase))
  · obtain ⟨m, v, a, b, infeed, g, hkind⟩ := horder
    have hgoes := goOn_held (.of_unmoved hfreed) hrested hclaims hfreed.todo (c := c)
      (by rw [hfreed.car]; exact (noChoosers_iff s).1 hs (other c))
      (by rw [hfreedNow]; exact hmoving) (by rw [hfreedNow]; exact hcancel)
      (by rw [hfreedNow]; exact hexpired) (by rw [hfreedNow]; exact hhold)
      (by
        rw [nextAction_deliver (congrArg Sequencer.work hfreedNow) hkind rfl]
        trivial)
    exact (congrArg (fun u => (.next (State.settle u) : Result)) ((hstands hnn).trans
      (congrArg (State.goOn · c) (hsource hphase hsrc)))).trans hgoes
  · have hready := standsReady_of_noted (f := fun q => { q with
        load := some load, atInfeed := false
        work := some { w with source := none, phase := .deliver } })
      hfreedNoted hwent hzone hplace (fun q => ⟨rfl, rfl, rfl, rfl⟩) rfl
    have hto : (wentOn freed c).movesTo c (s.placeZone infeed) :=
      .inr ⟨infeed, v, nextAction_deliver (congrArg Sequencer.work hfreedNow) hkind rfl,
        congrArg Sequencer.atInfeed hfreedNow, hat,
        hfreedNoted.placeZone infeed⟩
    exact ⟨_, congrArg (fun u => (.next (State.settle u) : Result)) ((hstands hnn).trans
      (congrArg (State.goOn · c) (hsource hphase hsrc))),
        hready.movesOn hrested hclaims hto hfreed.todo_same⟩
  · obtain ⟨m, v, a, b, infeed, g, hkind⟩ := horder
    have hready := standsReady_of_noted (f := fun q => { q with load := some load })
      hliftedNoted hwent hzone hplace (fun q => ⟨rfl, rfl, rfl, rfl⟩)
        (by rw [hdugSq]; exact hwork)
    have hto : (wentOn dug c).movesTo c (s.placeZone d) :=
      .inl ⟨d, .inr (nextAction_digPlace (by rw [hdugNow]; exact hwork) hkind hphase
        (by rw [hdugNow]; exact Option.some_ne_none load) hdest), hliftedNoted.placeZone d⟩
    exact ⟨_, congrArg (fun u => (.next (State.settle u) : Result)) ((hstands hnn).trans
      (congrArg (State.goOn · c) (hdig k buffer hphase))),
        hready.movesOn hrested hclaims hto hdug.todo_same⟩

end Sys2Proof.Machine
end

section
/-! LIFT DONE of a PLACE, and the statement on LIFT DONE (O45). -/

namespace Sys2Proof.Machine

/-! ### Users of places -/

section
variable {s : State} {c : Carriage} (hother : (s.sq (other c)).state.unmoved = true)
include hother

theorem releasePlace_stackRecs (p q : Place) : (s.releasePlace c p).stackRecs[q]
    = if p = q then s.stackRecs[q].map (clearUser c) else s.stackRecs[q] := by
  obtain ⟨v, hv, -⟩ := releasePlace_frame (c := c) hother p
  rw [hv]
  simp only [Fin.getElem_fin, Vector.getElem_set, Fin.ext_iff]
  split
  · next h => simp only [h]
  · rfl

theorem releasePlace_runsAt (p q : Place) : (s.releasePlace c p).runsAt q = s.runsAt q := by
  have hruns (r : StackRec) : (clearUser c r).runs = r.runs := by
    unfold clearUser
    split <;> rfl
  rw [State.runsAt, State.runsAt, releasePlace_stackRecs hother]
  by_cases hpq : p = q
  · rw [if_pos hpq]
    cases s.stackRecs[q] with
    | none => rfl
    | some r => exact hruns r
  · rw [if_neg hpq]

theorem releasePlace_topPiece (p q : Place) : (s.releasePlace c p).topPiece q = s.topPiece q := by
  rw [State.topPiece, State.topPiece, releasePlace_runsAt hother]

/-- A carriage that used a place and no other uses none once it is released. -/
theorem releasePlace_users {p : Place} (h : ∀ q, q ≠ p → s.userAt q ≠ some c) (q : Place) :
    (s.releasePlace c p).userAt q ≠ some c := by
  intro huser
  obtain ⟨r, hr, hc⟩ := (userAt_iff _ q c).1 huser
  rw [releasePlace_stackRecs hother] at hr
  by_cases hpq : p = q
  · rw [if_pos hpq] at hr
    obtain ⟨x, -, hx⟩ := Option.map_eq_some_iff.1 hr
    rw [← hx] at hc
    exact clearUser_user c x hc
  · rw [if_neg hpq] at hr
    exact h q (fun e => hpq e.symm) ((userAt_iff s q c).2 ⟨r, hr, hc⟩)

end

theorem releasePlaces_unused {s : State} {c : Carriage} (h : ∀ q, s.userAt q ≠ some c) :
    s.releasePlaces c = s := by
  have hall (l : List Place) : l.foldl (fun t p => t.releasePlace c p) s = s := by
    induction l with
    | nil => rfl
    | cons p rest ih =>
      have hp : s.releasePlace c p = s := if_neg (h p)
      rw [List.foldl_cons, hp, ih]
  exact hall allPlaces

/-! ### The records of a completed PLACE -/

section
variable {s : State} {c : Carriage} {w : Work} {d : Place}

/-- A DIG with pieces still to dig asks for better work, and gets none (R73, R80). -/
theorem placeDone_digs {m : Nat} {v : Saw} {a b : Nat} {infeed : Place} {g : Option Place} {n : Nat}
    {dug : Place} {w1 : Work} {u : State} (hwork : (s.sq c).work = some w) (hkind : w.kind = .order m v a b infeed g)
    (hphase : w.phase = .dig n dug) (hn : 2 ≤ n) (hdest : w.dest = some d)
    (hcancel : (s.sq c).cancelPending = false)
    (hw1 : w1 = { w with phase := .dig (n - 1) dug, dest := none })
    (hu : u = (s.releasePlace c d).modSeq c fun q => { q with work := some w1 })
    (hnone : u.request c (some w.cls) = (u, none)) : s.placeDone c = u := by
  have hafter (x : State) : x.afterPlace c w = .preempts w1 .dig (some dug) := by
    unfold State.afterPlace
    rw [hw1, hkind, hphase]
    exact if_neg (by omega)
  have hrecords : (s.releaseDest c).modSeq c (fun q => { q with work := some w1 }) = u := by
    rw [releaseDest_eq hwork hdest, modSeq_modSeq, hu]
  have hworkNow : (u.sq c).work = some w1 := by rw [hu, modSeq_sq_self]
  have hcls : w1.cls = w.cls := by rw [hw1]
  have hasked : u.preempt c .dig (some dug) = u := by
    unfold State.preempt
    rw [hworkNow]
    dsimp only
    rw [hcls, hnone]
  unfold State.placeDone
  rw [hwork]
  dsimp only
  rw [hafter]
  dsimp only
  rw [hrecords, hcancel]
  exact hasked

theorem popNext_empty (h : (s.sq c).suspended = []) : s.popNext c = s := by
  rw [State.popNext, h]
  rfl

/-- The notice of work passes a carriage that is not IDLE and not HELD. -/
theorem workNotice_other (hmoving : (s.sq c).state = .moving) :
    s.workNotice = s.modSeq (other c) noticed := by
  have hself : noticed (s.sq c) = s.sq c := by
    unfold noticed
    rw [hmoving]
    exact (if_neg fun h => CarState.noConfusion h.1).trans (if_neg CarState.noConfusion)
  rw [workNotice_eq]
  cases c with
  | A => exact congrArg (fun q => { s with seq := ⟨q, noticed s.seq.b⟩ }) hself
  | B => exact congrArg (fun q => { s with seq := ⟨noticed s.seq.a, q⟩ }) hself

theorem sq_modSeq_other (x : State) (c : Carriage) (f : Sequencer → Sequencer) :
    (x.modSeq (other c) f).sq c = x.sq c := by
  cases c <;> rfl

/-- A work that is no return job ends, where the carriage claims no place and has no work suspended
(R81). -/
theorem endWork_ends (hwork : (s.sq c).work = some w) (htold : ∀ x : State, x.tellEnded w = x)
    (hunused : ∀ q, s.userAt q ≠ some c) (hmoving : (s.sq c).state = .moving)
    (hsuspended : (s.sq c).suspended = []) :
    s.endWork c = (s.modSeq c fun q => { q with
      work := none, orderDone := false, expired := false, fullRaised := false }).modSeq (other c)
        noticed := by
  have hnotice := workNotice_other (c := c) (s := s.modSeq c fun q => { q with
    work := none, orderDone := false, expired := false, fullRaised := false })
    (by rw [modSeq_sq_self]; exact hmoving)
  unfold State.endWork
  rw [hwork, releasePlaces_unused hunused]
  dsimp only
  rw [htold, hnotice]
  refine popNext_empty ?_
  rw [sq_modSeq_other, modSeq_sq_self]
  exact hsuspended

/-- A SET DOWN ends with its PLACE (R81, R87). -/
theorem placeDone_setDown {t g : Option Place} (hwork : (s.sq c).work = some w)
    (hkind : w.kind = .setDown t g) (hdest : w.dest = some d)
    (hother : (s.sq (other c)).state.unmoved = true) (hmoving : (s.sq c).state = .moving)
    (hcancel : (s.sq c).cancelPending = false) (hsuspended : (s.sq c).suspended = [])
    (husers : ∀ q, q ≠ d → s.userAt q ≠ some c) :
    s.placeDone c = ((s.releasePlace c d).modSeq c fun q =>
      { q with work := none, orderDone := false, expired := false, fullRaised := false }).modSeq
        (other c) noticed := by
  have hafter (x : State) : x.afterPlace c w = .ends := by
    unfold State.afterPlace
    rw [hkind]
  have hreleased := releaseDest_eq hwork hdest
  obtain ⟨v, hframe, -⟩ := releasePlace_frame (c := c) hother d
  have hsq : (s.releasePlace c d).sq c = s.sq c := by rw [hframe]; rfl
  have htold (x : State) : x.tellEnded { w with dest := none } = x := by
    unfold State.tellEnded
    rw [hkind]
  have hends := endWork_ends (c := c) (w := { w with dest := none })
    (s := (s.releasePlace c d).modSeq c fun q => { q with work := some { w with dest := none } })
    (by rw [modSeq_sq_self]) htold (releasePlace_users hother husers)
    (by rw [modSeq_sq_self, hsq]; exact hmoving) (by rw [modSeq_sq_self, hsq]; exact hsuspended)
  rw [modSeq_modSeq] at hends
  unfold State.placeDone
  rw [hwork]
  dsimp only
  rw [hafter]
  dsimp only
  rw [hcancel, hreleased]
  exact hends

/-! ### The choice of a buffer -/

theorem choose_takes {x : Piece} {p : Place} (hpiece : s.pieceToPlace c = some x)
    (hdest : s.chooseDest c x = some p) (hclaim : s.mayClaimDest c p x = true) :
    s.choose c = (((s.setUser p (some c)).modWork c (Work.withDest p)).modSeq c fun q =>
      { q with fullRaised := false }).moveOn c := by
  unfold State.choose
  rw [hpiece]
  dsimp only
  rw [hdest]
  exact if_pos hclaim

theorem act_chooses (hhold : (s.sq c).holdPending = false) (hnext : (s.sq c).nextAction = .choose) :
    s.act c = s.choose c := by
  rw [State.act, hhold, hnext]
  rfl

end

/-! ### The report of a PLACE -/

theorem takeLift_placeStands {s : State} {c : Carriage} {p : Place} {top floor : Nat}
    (hstop : (s.pt c).stopping = false) (hcur : (s.pt c).current = some (.place p top floor true))
    (hnext : (s.pt c).next = none) :
    s.takeLift c .standing = ((wentOn s c).placeDone c).goOn c := by
  rw [takeLift_place hstop hcur, completeStep_stands hnext, follow_stands hnext]

/-- The place let go of, with the DIG counted down (R73). -/
def State.digPlaced (s : State) (c : Carriage) (d : Place) (w1 : Work) : State :=
  (wentOn (s.releasePlace c d) c).modSeq c fun q => { q with work := some w1 }

/-- The next buffer of a DIG claimed (R72). -/
def State.bufferTaken (s : State) (c : Carriage) (dest : Place) (w : Work) : State :=
  (s.setUser dest (some c)).modSeq c fun q => { q with fullRaised := false, work := some w }

/-- The second part of O45: LIFT DONE of the PLACE of a DIG. -/
theorem liftDone_dig (s : State) (c : Carriage) (pos : Pos) (d dug dest : Place)
    (top floor cur n : Nat) (w w1 : Work) (x : Piece) (hquiet : s.quiet = true)
    (hstop : (s.pt c).stopping = false)
    (hcur : (s.pt c).current = some (.place d top floor true)) (hnext : (s.pt c).next = none)
    (hwork : (s.sq c).work = some w) (horder : ∃ m v a b infeed g, w.kind = .order m v a b infeed g)
    (hphase : w.phase = .dig n dug) (hn : 2 ≤ n) (hdest : w.dest = some d)
    (hsource : w.source = some dug) (hload : (s.sq c).load = none) (hwent : goesOnAtWork s c)
    (hzone : (s.arec c).zone = some cur) (hplace : s.posZone pos = cur)
    (hw1 : w1 = { w with phase := .dig (n - 1) dug, dest := none })
    (hnone : ((reportedAt s c pos).digPlaced c d w1).request c (some w.cls)
      = ((reportedAt s c pos).digPlaced c d w1, none)) (hpiece : s.topPiece dug = some x)
    (hbuffer : ((reportedAt s c pos).digPlaced c d w1).digBuffer c dug x = some dest)
    (hclaim : ((reportedAt s c pos).digPlaced c d w1).mayClaimDest c dest x = true) :
    ∃ t, exec (.liftDone c pos .standing) s = .next t
      ∧ movesOn (((reportedAt s c pos).digPlaced c d w1).bufferTaken c dest
        { w1 with dest := some dest }) t c cur (s.placeZone dug) w.cls := by
  obtain ⟨hrested, hclaims, hs⟩ := (quiet_iff s).1 hquiet
  obtain ⟨m, v, a, b, infeed, g, hkind⟩ := horder
  have hport := reportedAt_pt s c pos
  have hhere := Unmoved.reported (s := s) c pos
  have hhereChoosers := hhere.noChoosers hs
  have hother : ((reportedAt s c pos).sq (other c)).state.unmoved = true := (noChoosers_iff s).1 hs _
  have hnoted := (Noted.refl (reportedAt s c pos)).releasePlace hhereChoosers c d
  obtain ⟨ask, latched, hsq⟩ := hnoted.seq c
  have htaken := takeLift_placeStands (s := reportedAt s c pos) (c := c) (by rw [hport]; exact hstop)
    (by rw [hport]; exact hcur) (by rw [hport]; exact hnext)
  have hplaced : (wentOn (reportedAt s c pos) c).placeDone c
      = (reportedAt s c pos).digPlaced c d w1 := by
    refine placeDone_digs (w := w) (d := d) ?_ hkind hphase hn hdest ?_ hw1 ?_ hnone
    · rw [wentOn_sq]
      exact hwork
    · rw [wentOn_sq]
      exact hwent.2.2.1
    · rw [State.digPlaced, (PortFree.releasePlace c d).wentOn]
  have hplacedSq : ((reportedAt s c pos).digPlaced c d w1).sq c
      = { s.sq c with ask := ask, latched := latched, work := some w1 } := by
    refine (modSeq_sq_self _ c _).trans ?_
    rw [wentOn_sq, hsq, reportedAt_sq]
  have hw1Kind : w1.kind = .order m v a b infeed g := by rw [hw1]; exact hkind
  have hw1Phase : w1.phase = .dig (n - 1) dug := by rw [hw1]
  have hw1Dest : w1.dest = none := by rw [hw1]
  have hw1Source : w1.source = some dug := by rw [hw1]; exact hsource
  have hw1Cls : w1.cls = w.cls := by rw [hw1]
  have hworkNow := congrArg Sequencer.work hplacedSq
  have hloadNow := (congrArg Sequencer.load hplacedSq).trans hload
  have hchooses := nextAction_digChoose hworkNow hw1Kind hw1Phase hloadNow hw1Dest
  have htop : ((reportedAt s c pos).digPlaced c d w1).topPiece dug = some x :=
    (releasePlace_topPiece hother d dug).trans hpiece
  have hpieceNow : ((reportedAt s c pos).digPlaced c d w1).pieceToPlace c = some x := by
    rw [State.pieceToPlace, hloadNow, hworkNow]
    dsimp only
    rw [hw1Source]
    exact htop
  have hdestNow : ((reportedAt s c pos).digPlaced c d w1).chooseDest c x = some dest := by
    unfold State.chooseDest
    rw [hworkNow]
    dsimp only
    rw [hw1Kind, hw1Phase]
    exact hbuffer
  have hwithDest : Work.withDest dest w1 = { w1 with dest := some dest } := by
    rw [Work.withDest, hw1Kind]
  have hmodWork := modWork_eq (c := c) (s := ((reportedAt s c pos).digPlaced c d w1).setUser dest (some c))
    (w := w1) hworkNow (Work.withDest dest)
  have hgoes : ((reportedAt s c pos).digPlaced c d w1).goOn c
      = (((reportedAt s c pos).digPlaced c d w1).bufferTaken c dest
        { w1 with dest := some dest }).moveOn c := by
    rw [goOn_proceeds ((congrArg Sequencer.cancelPending hplacedSq).trans hwent.2.2.1)
        ((congrArg Sequencer.expired hplacedSq).trans hwent.2.2.2.1), State.proceed,
      advance_stays (.inr hchooses),
      act_chooses ((congrArg Sequencer.holdPending hplacedSq).trans hwent.2.1) hchooses,
      choose_takes hpieceNow hdestNow hclaim, hmodWork, modSeq_modSeq, hwithDest]
    rfl
  have htakenUser := hnoted.setUser dest (some c)
  have hready := standsReady_of_noted (w := { w1 with dest := some dest })
    (f := fun q => { q with fullRaised := false, work := some { w1 with dest := some dest } })
    htakenUser hwent hzone hplace (fun q => ⟨rfl, rfl, rfl, rfl⟩) rfl
  have hsame : ((reportedAt s c pos).digPlaced c d w1).bufferTaken c dest { w1 with dest := some dest }
      = wentOn ((((reportedAt s c pos).releasePlace c d).setUser dest (some c)).modSeq c fun q =>
        { q with fullRaised := false, work := some { w1 with dest := some dest } }) c :=
    modSeq_modSeq (wentOn (((reportedAt s c pos).releasePlace c d).setUser dest (some c)) c) c
      (fun q => { q with work := some w1 })
      fun q => { q with fullRaised := false, work := some { w1 with dest := some dest } }
  have htodo : ((((reportedAt s c pos).digPlaced c d w1).bufferTaken c dest
      { w1 with dest := some dest })).todo = s.todo := (hhere.trans htakenUser.unmoved).todo
  rw [← hsame] at hready
  have hloadThen : ((((reportedAt s c pos).digPlaced c d w1).bufferTaken c dest
      { w1 with dest := some dest }).sq c).load = none :=
    (congrArg Sequencer.load (modSeq_sq_self _ c _)).trans hloadNow
  have hto : (((reportedAt s c pos).digPlaced c d w1).bufferTaken c dest
      { w1 with dest := some dest }).movesTo c (s.placeZone dug) :=
    .inl ⟨dug, .inl (nextAction_digPick (congrArg Sequencer.work (modSeq_sq_self _ c _)) hw1Kind hw1Phase
      hloadThen rfl), htakenUser.placeZone dug⟩
  have hmoves : ((reportedAt s c pos).digPlaced c d w1).goOn c
      = (((reportedAt s c pos).digPlaced c d w1).bufferTaken c dest
        { w1 with dest := some dest }).goOn c := by
    rw [hgoes, hto.moveOn, hto.goOn hready.cancel hready.expired hready.hold]
  refine ⟨_, congrArg (fun u => (.next (State.settle u) : Result)) (htaken.trans
    ((congrArg (State.goOn · c) hplaced).trans hmoves)), ?_⟩
  have hgone := hready.movesOn hrested hclaims hto (x := ((reportedAt s c pos).digPlaced c d
    w1).bufferTaken c dest { w1 with dest := some dest }) (by rw [← htodo])
  rw [← hw1Cls]
  exact hgone

theorem modSeq_comm (s : State) (c : Carriage) (f g : Sequencer → Sequencer) :
    (s.modSeq (other c) f).modSeq c g = (s.modSeq c g).modSeq (other c) f := by
  cases c <;> rfl

/-- The third part of O45: LIFT DONE of the PLACE of a SET DOWN. -/
theorem liftDone_setDown (s : State) (c : Carriage) (pos : Pos) (p : Place) (top floor : Nat)
    (w : Work) (t g : Option Place) (hquiet : s.quiet = true) (hstop : (s.pt c).stopping = false)
    (hcur : (s.pt c).current = some (.place p top floor true)) (hnext : (s.pt c).next = none)
    (hwork : (s.sq c).work = some w) (hkind : w.kind = .setDown t g) (hdest : w.dest = some p)
    (hmoving : (s.sq c).state = .moving) (hsuspended : (s.sq c).suspended = [])
    (hload : (s.sq c).load = none) (hhold : (s.sq c).holdPending = false)
    (hcancel : (s.sq c).cancelPending = false) (hexpired : (s.sq c).expired = false)
    (husers : ∀ q, q ≠ p → s.userAt q ≠ some c) :
    exec (.liftDone c pos .standing) s = .next (wentOn ((((reportedAt s c pos).releasePlace c
      p).modSeq c fun q =>
        { q with
          state := .idle, work := none, orderDone := false, fullRaised := false
          ask := true }).modSeq (other c) noticed) c) := by
  obtain ⟨hrested, hclaims, hs⟩ := (quiet_iff s).1 hquiet
  have hport := reportedAt_pt s c pos
  have hhere := Unmoved.reported (s := s) c pos
  have hother : ((reportedAt s c pos).sq (other c)).state.unmoved = true := (noChoosers_iff s).1 hs _
  have hnoted := (Noted.refl (reportedAt s c pos)).releasePlace (hhere.noChoosers hs) c p
  obtain ⟨ask, latched, hsq⟩ := hnoted.seq c
  have htaken := takeLift_placeStands (s := reportedAt s c pos) (c := c) (by rw [hport]; exact hstop)
    (by rw [hport]; exact hcur) (by rw [hport]; exact hnext)
  have hplaced := placeDone_setDown (s := wentOn (reportedAt s c pos) c) (c := c) hwork hkind hdest
    hother hmoving hcancel hsuspended husers
  rw [(PortFree.releasePlace c p).wentOn] at hplaced
  generalize (reportedAt s c pos).releasePlace c p = u at hnoted hsq hplaced ⊢
  have hnow : ((((wentOn u c).modSeq c fun q => { q with
      work := none, orderDone := false, expired := false, fullRaised := false }).modSeq (other c)
        noticed).sq c) = { s.sq c with
          ask := ask, latched := latched, work := none, orderDone := false, expired := false
          fullRaised := false } := by
    rw [sq_modSeq_other, modSeq_sq_self, wentOn_sq, hsq, reportedAt_sq]
  have hotherNow : ((((wentOn u c).modSeq c fun q => { q with
      work := none, orderDone := false, expired := false, fullRaised := false }).modSeq (other c)
        noticed).sq (other c)).state.unmoved = true := by
    rw [modSeq_sq_self, noticed_state, modSeq_sq_other, wentOn_sq, hnoted.unmoved.car]
    exact hother
  have hrests := act_rests hotherNow
    (by rw [hnow]; exact fun e => CarState.noConfusion (hmoving.symm.trans e))
    (by rw [hnow]; exact hhold) (by rw [hnow])
  have hexam : ExamOnly s (((wentOn u c).modSeq c fun q => { q with
      work := none, orderDone := false, expired := false, fullRaised := false }).modSeq (other c)
        noticed) :=
    ((ExamOnly.of_unmoved ((hhere.trans hnoted.unmoved).wentOn c)).modSeq _ _).modSeq _ _
  have htodo : (((wentOn u c).modSeq c fun q => { q with
      work := none, orderDone := false, expired := false, fullRaised := false }).modSeq (other c)
        noticed).todo = s.todo := (hhere.trans hnoted.unmoved).todo
  have hgoes : (((wentOn u c).modSeq c fun q => { q with
      work := none, orderDone := false, expired := false, fullRaised := false }).modSeq (other c)
        noticed).goOn c = ((((wentOn u c).modSeq c fun q => { q with
      work := none, orderDone := false, expired := false, fullRaised := false }).modSeq (other c)
        noticed).modSeq c fun q => { q with state := .idle, ask := q.ask || q.load = none }).dueExam := by
    rw [goOn_proceeds (by rw [hnow]; exact hcancel) (by rw [hnow]), State.proceed,
      advance_rests (by rw [hnow]) (by rw [hnow]; exact hsuspended), hrests]
  refine (congrArg (fun u => (.next (State.settle u) : Result)) (htaken.trans
    ((congrArg (State.goOn · c) hplaced).trans hgoes))).trans ?_
  refine ((hexam.modSeq c _).dueExam).next_settle hrested hclaims
    ((dueExam_undone ((modSeq_todo _ _ _).trans htodo)).trans ?_)
  rw [modSeq_comm, modSeq_modSeq]
  have hfields : (wentOn u c).modSeq c (fun q => { q with
        state := .idle, work := none, orderDone := false, expired := false, fullRaised := false
        ask := q.ask || q.load = none })
      = (wentOn u c).modSeq c fun q => { q with
        state := .idle, work := none, orderDone := false, fullRaised := false, ask := true } := by
    refine modSeq_congr ?_
    rw [wentOn_sq, hsq, reportedAt_sq, hload, hexpired, decide_eq_true (rfl : (none : Option Load) = none),
      Bool.or_true]
  exact congrArg (fun v => State.modSeq v (other c) noticed) hfields

/-- Settles O45: LIFT DONE of a PICK for an order, of the PLACE of a DIG and of that of a SET DOWN. -/
theorem liftDoneCompletes : Obligations.LiftDoneCompletes := by
  refine ⟨fun s c pos p top search n prof slipped r x below w hrested hs hstop hcur hr hruns hwork
      horder => ?_, fun s c pos d dug dest top floor cur n w x hquiet hstop hcur hnext hwork horder
      hphase hn hdest hsource hload hwent hzone hplace => ?_,
    fun s c pos p top floor w t g hquiet hstop hcur hnext hwork hkind hdest hmoving hsuspended hload
      hhold hcancel hexpired husers => ?_⟩
  · exact liftDone_pick s c pos p top search n prof slipped r x below w hrested hs hstop hcur hr hruns
      hwork horder
  · exact fun hnone hpiece hbuffer hclaim => liftDone_dig s c pos d dug dest top floor cur n w _ x hquiet
      hstop hcur hnext hwork horder hphase hn hdest hsource hload hwent hzone hplace rfl hnone hpiece
      hbuffer hclaim
  · exact liftDone_setDown s c pos p top floor w t g hquiet hstop hcur hnext hwork hkind hdest hmoving
      hsuspended hload hhold hcancel hexpired husers

end Sys2Proof.Machine
end

section
/-! STEP DONE (O47). -/

namespace Sys2Proof.Machine

/-! ### A TRAVEL that has arrived -/

section
variable {s : State} {c : Carriage} {pos : Pos} {k : Continuation}

/-- The arbiter has taken the arrival in a zone: the zones behind are released, the position is accepted
and an ordered move is over (R95, R98). -/
def State.arrivedIn (s : State) (c : Carriage) (p : Pos) (z : Nat) : State :=
  { s with arb := { s.arb with
    zones := soleZone s c z
    records := s.arb.records.set c ⟨some p, some z, none⟩ } }

theorem travelDone_eq (s : State) (c : Carriage) (p : Pos) :
    s.travelDone c p = (s.arrivedIn c p (s.posZone p)).dueExam := by
  rw [State.travelDone, releaseZones_sole]
  rfl

theorem ExamOnly.arrivesIn {u : State} (h : ExamOnly s u) (c p z) : ExamOnly s (u.arrivedIn c p z) :=
  ⟨h.1, h.2, h.3, h.4, h.5, h.6⟩

theorem arrivedIn_arec (s : State) (c : Carriage) (p : Pos) (z : Nat) :
    (s.arrivedIn c p z).arec c = ⟨some p, some z, none⟩ :=
  get_set_self s.arb.records c _

theorem takeStepDone_travel {x y : Nat} {f : Option Nat} (hstop : (s.pt c).stopping = false)
    (hcur : (s.pt c).current = some (.travel x y f)) :
    s.takeStepDone c pos k = s.travelStepDone c pos k := by
  rw [State.takeStepDone, hstop, hcur]
  rfl

theorem takeStepDone_abandoned {p : Place} {top search : Nat} {prof : GripProfile} {sl : Bool}
    (hstop : (s.pt c).stopping = false)
    (hcur : (s.pt c).current = some (.pick p top search prof .abandoning sl)) :
    s.takeStepDone c pos k
      = ((s.completeStep c k).pickAbandoned c).follow c ((s.pt c).completion k) := by
  rw [State.takeStepDone, hstop, hcur]
  rfl

theorem posZone_completeStep (s : State) (c : Carriage) (k : Continuation) (p : Pos) :
    (s.completeStep c k).posZone p = s.posZone p := rfl

/-- The arrival in a zone the carriage holds (R95, R111). -/
theorem travelStepDone_held (hclaims : s.noClaims = true) (htodo : s.todo = Todo.none)
    (hheld : s.holder (s.posZone pos) = some c) :
    s.travelStepDone c pos k = ((s.completeStep c k).arrivedIn c pos (s.posZone pos)).afterTravel c
      ((s.pt c).completion k) (s.arec c).ordered.isSome := by
  have hexamined : ((s.completeStep c k).travelDone c pos).examine
      = (s.completeStep c k).arrivedIn c pos (s.posZone pos) := by
    have hpass := examine_noClaims ((s.completeStep c k).arrivedIn c pos (s.posZone pos)).dueExam hclaims
    rw [travelDone_eq, posZone_completeStep, hpass]
    have hsame : ({ s.todo with exam := false } : Todo) = s.todo := by rw [htodo]; rfl
    exact congrArg (fun t => { (s.completeStep c k).arrivedIn c pos (s.posZone pos) with todo := t })
      hsame
  have hok : (s.completeStep c k).positionOk c pos = true := decide_eq_true hheld
  unfold State.travelStepDone
  dsimp only
  rw [if_pos hok, hexamined]

theorem travelStepDone_astray (hheld : s.holder (s.posZone pos) ≠ some c) :
    s.travelStepDone c pos k = (s.completeStep c k).positionConflict c pos false := by
  have hnot : ¬(s.completeStep c k).positionOk c pos = true := fun h => hheld (of_decide_eq_true h)
  unfold State.travelStepDone
  exact if_neg hnot

end

/-! ### A failed position check -/

theorem zoneOf_lt (starts : Vector Nat 16) (x : Nat) : zoneOf starts x < 16 := by
  have hall (l : List (Fin 16)) (acc : Nat) (hacc : acc < 16) :
      l.foldl (fun acc z => if starts[z] ≤ x then z.val else acc) acc < 16 := by
    induction l generalizing acc with
    | nil => exact hacc
    | cons z rest ih =>
      refine ih _ ?_
      dsimp only
      split
      · exact z.isLt
      · exact hacc
  exact hall _ 0 (by decide)

theorem aloneZones_heldZones {s u : State} {c : Carriage} {z : Nat} (hz : z < 16)
    (hu : u.arb.zones = aloneZones s c z) : u.heldZones c = [z] := by
  have hholder (k : Nat) (hk : k < 16) : u.holder k = some c ↔ k = z := by
    have hval := holder_val u ⟨k, hk⟩
    rw [hu] at hval
    rw [hval]
    simp only [aloneZones, Fin.getElem_fin, Vector.getElem_ofFn]
    by_cases h : k = z
    · simp only [h, if_true]
    · simp only [h, if_false, iff_false]
      split
      · exact fun e => Option.some_ne_none c e.symm
      · next hne => exact hne
  have hfilter : u.heldZones c = (List.range 16).filter fun k => decide (k = z) := by
    refine List.filter_congr fun k hk => ?_
    rw [decide_eq_decide]
    exact hholder k (List.mem_range.1 hk)
  have hone : ∀ z : Fin 16, (List.range 16).filter (fun k => decide (k = z.val)) = [z.val] := by decide
  exact hfilter.trans (hone ⟨z, hz⟩)

section
variable {s : State} {c : Carriage} {pos : Pos}

/-- What a carriage astray is left with (R111). -/
structure Astray (s t : State) (c : Carriage) (pos : Pos) : Prop where
  exam : ExamOnly s t
  sq : t.sq c = (s.sq c).faultedNow
  stopping : (t.pt c).stopping = true
  position : (t.pt c).position = (s.pt c).position
  conflict : ∃ e ∈ t.events.entries, e.kind = .zoneConflict ∧ e.source = .carriage c
    ∧ e.detail = s.posZone pos
  kept : s.keepable c (s.posZone pos) = true → t.heldZones c = [s.posZone pos]
    ∧ t.arec c = { s.arec c with accepted := some pos, zone := some (s.posZone pos) }

theorem keepable_congr {u : State} (harb : u.arb = s.arb) (c : Carriage) (z : Nat) :
    u.keepable c z = s.keepable c z := by
  have hholder : u.holder = s.holder := by
    funext k
    rw [State.holder, State.holder, harb]
  have hclosed : u.zoneClosed z = s.zoneClosed z := by
    rw [State.zoneClosed, State.zoneClosed, harb]
  rw [State.keepable, State.keepable, hholder, hclosed, State.onOwnSide, State.onOwnSide,
    heldZones_congr harb]

/-- What the settling of a holding changes (R111). -/
theorem settleHolding_frame (s : State) (c : Carriage) (pos : Pos) : ∃ a t,
    s.settleHolding c pos = { s with arb := a, todo := t } ∧ ExamOnly s (s.settleHolding c pos)
      ∧ (s.keepable c (s.posZone pos) = true →
        (s.settleHolding c pos).heldZones c = [s.posZone pos] ∧ (s.settleHolding c pos).arec c
          = { s.arec c with accepted := some pos, zone := some (s.posZone pos) }) := by
  unfold State.settleHolding
  dsimp only
  split
  · next hkeep =>
    have hheld : (s.holdAlone c (s.posZone pos)).modRec c (fun r =>
        { r with accepted := some pos, zone := some (s.posZone pos) })
        = (s.homesIn c pos (s.posZone pos)).dueExam := by
      rw [holdAlone_eq]
      rfl
    rw [hheld]
    have hzones : (s.homesIn c pos (s.posZone pos)).dueExam.arb.zones
        = aloneZones s c (s.posZone pos) := rfl
    have hrec : (s.homesIn c pos (s.posZone pos)).dueExam.arec c
        = { s.arec c with accepted := some pos, zone := some (s.posZone pos) } := by
      rw [dueExam_arec, homesIn_arec]
    have hexam := ((ExamOnly.refl s).homesIn c pos (s.posZone pos)).dueExam
    have hframe : ∃ a t, (s.homesIn c pos (s.posZone pos)).dueExam = { s with arb := a, todo := t } := by
      unfold State.homesIn
      generalize aloneZones s c (s.posZone pos) = zones
      exact ⟨_, _, rfl⟩
    obtain ⟨a, t, hframe⟩ := hframe
    exact ⟨a, t, hframe, hexam, fun _ => ⟨aloneZones_heldZones (zoneOf_lt _ _) hzones, hrec⟩⟩
  · next hkeep =>
    split
    · next cur hcur =>
      rw [holdAlone_eq]
      generalize aloneZones s c cur = zones
      exact ⟨{ s.arb with zones := zones }, { s.todo with exam := true }, rfl,
        ⟨rfl, rfl, rfl, rfl, rfl, rfl⟩, fun h => absurd h hkeep⟩
    · exact ⟨s.arb, s.todo, rfl, .refl s, fun h => absurd h hkeep⟩

theorem positionConflict_astray (hclaims : s.noClaims = true)
    (hother : (s.sq (other c)).state.unmoved = true) (hmoving : (s.sq c).state = .moving) :
    Astray s (s.positionConflict c pos false) c pos := by
  have hstop : s.sendStop c
      = s.modPort c fun d => { d with sent := sentTo d .stop, stopping := true } := by
    rw [State.sendStop, send_eq, modPort_modPort]
  have hpt := modPort_pt_self s c fun d => { d with sent := sentTo d .stop, stopping := true }
  have hstopped : ExamOnly s (s.sendStop c) := by
    rw [hstop]
    exact (ExamOnly.refl s).modPort _ _
  have hfault := enterFaulted_eq (s := s.sendStop c) (c := c) (by rw [hstop, hpt])
    (hstopped.noClaims hclaims) (by rw [hstop]; exact hother)
    (by rw [hstop]; exact fun e => CarState.noConfusion (hmoving.symm.trans e))
  have hback := (Told.refl (s.sendStop c)).handBack c
  obtain ⟨ask, latched, hseq⟩ := hback.seq c
  have hfaultedExam : ExamOnly s ((s.sendStop c).enterFaulted c) := by
    rw [hfault]
    exact (((hstopped.trans (.of_unmoved hback.unmoved)).modSeq _ _).dueExam)
  have hfaultedSq : ((s.sendStop c).enterFaulted c).sq c = (s.sq c).faultedNow := by
    rw [hfault, dueExam_sq, modSeq_sq_self, hseq, hstop, modPort_sq]
    rfl
  have hfaultedPt : ((s.sendStop c).enterFaulted c).pt c
      = { s.pt c with sent := sentTo (s.pt c) .stop, stopping := true } := by
    rw [hfault, dueExam_pt, modSeq_pt, hback.pt, hstop, hpt]
  have hfaultedArb : ((s.sendStop c).enterFaulted c).arb = s.arb := by
    rw [hfault, dueExam_arb, modSeq_arb, hback.arb, hstop, modPort_arb]
  have hfaultedCell : ((s.sendStop c).enterFaulted c).cell = s.cell := by
    rw [hfault, dueExam_cell, modSeq_cell, hback.cell, hstop, modPort_cell]
  have hconflict : s.positionConflict c pos false
      = (((s.sendStop c).enterFaulted c).raise .zoneConflict (.carriage c)
        (s.posZone pos)).settleHolding c pos := by
    have hne : ¬((s.sendStop c).sq c).state = .faulted := by
      rw [hstop]
      exact fun e => CarState.noConfusion (hmoving.symm.trans e)
    unfold State.positionConflict
    simp only [Bool.false_eq_true, if_false, if_neg hne]
  rw [hconflict]
  generalize (s.sendStop c).enterFaulted c = u at *
  have hraisedArb := raise_arb u .zoneConflict (.carriage c) (s.posZone pos)
  have hraisedCell := ((Noted.refl u).raise .zoneConflict (.carriage c) (s.posZone pos)).cell
  have hpending := raise_alarm u (kind := .zoneConflict) (.carriage c) (s.posZone pos) rfl
  have hraisedSq := raise_sq u .zoneConflict (.carriage c) (s.posZone pos) c
  have hraisedPt := raise_pt u .zoneConflict (.carriage c) (s.posZone pos) c
  have hraisedExam : ExamOnly s (u.raise .zoneConflict (.carriage c) (s.posZone pos)) :=
    hfaultedExam.trans (.of_unmoved ((Unmoved.refl u).raise _ _ _))
  generalize u.raise .zoneConflict (.carriage c) (s.posZone pos) = v at *
  obtain ⟨a, t, hframe, hexam, hkept⟩ := settleHolding_frame v c pos
  have hzone : v.posZone pos = s.posZone pos := by
    rw [State.posZone, State.posZone, hraisedCell, hfaultedCell]
  have harb : v.arb = s.arb := hraisedArb.trans hfaultedArb
  have harec : v.arec c = s.arec c := by rw [State.arec, State.arec, harb]
  refine ⟨hraisedExam.trans hexam, ?_, ?_, ?_, ?_, fun hkeep => ?_⟩
  · rw [hframe]
    exact hraisedSq.trans hfaultedSq
  · rw [hframe]
    exact (congrArg DrivePort.stopping (hraisedPt.trans hfaultedPt)).trans rfl
  · rw [hframe]
    exact (congrArg DrivePort.position (hraisedPt.trans hfaultedPt)).trans rfl
  · rw [hframe]
    exact hpending
  · obtain ⟨hheld, hrec⟩ := hkept (by rw [hzone, keepable_congr harb]; exact hkeep)
    rw [hzone] at hheld hrec
    rw [harec] at hrec
    exact ⟨hheld, hrec⟩

end

end Sys2Proof.Machine
end

section
/-! A carriage that stands at its infeed, or after ABANDON (O47). -/

namespace Sys2Proof.Machine

/-! ### After ABANDON -/

section
variable {s : State} {c : Carriage} {w : Work} {p : Place}

/-- An order gives its source free and is to resolve one afresh (R74). -/
theorem pickAbandoned_order (hwork : (s.sq c).work = some w)
    (horder : ∃ n v m t d g, w.kind = .order n v m t d g) (hsource : w.source = some p)
    (hdest : w.dest = none) :
    s.pickAbandoned c = (s.releasePlace c p).modSeq c fun q => { q with
      work := some { w with source := none, phase := .source } } := by
  obtain ⟨n, v, m, t, d, g, hkind⟩ := horder
  have hreleased := releaseSource_eq hwork hsource
  have hworkNow : (((s.releasePlace c p).modSeq c fun q =>
      { q with work := some { w with source := none } }).sq c).work = some { w with source := none } := by
    rw [modSeq_sq_self]
  have hkept := releaseDest_none hworkNow hdest
  have hphase := modWork_eq hworkNow fun y => { y with phase := .source }
  rw [modSeq_modSeq] at hphase
  unfold State.pickAbandoned
  rw [hreleased, hkept, hwork]
  dsimp only
  rw [hkind]
  dsimp only
  rw [← hkind]
  exact hphase

theorem nextAction_resolve {q : Sequencer} {n : Nat} {v : Saw} {m t : Nat} {infeed : Place}
    {g : Option Place} (hwork : q.work = some w) (hkind : w.kind = .order n v m t infeed g)
    (hphase : w.phase = .source) (hsource : w.source = none) : q.nextAction = .resolve := by
  rw [Sequencer.nextAction, hwork]
  dsimp only
  rw [hkind, hphase]
  dsimp only
  rw [hsource]

variable {n : Nat} {v : Saw} {m t : Nat} {infeed : Place} {g : Option Place}
  (hwork : (s.sq c).work = some w) (hkind : w.kind = .order n v m t infeed g)
include hwork hkind

theorem resolveOrder_claims {src : Place} (hresolved : s.resolveSource c m t infeed = some src)
    (hmay : s.mayClaimSource c src = true) (hcount : s.matching m t src = some 0) :
    s.resolveOrder c = some ((s.setUser src (some c)).modSeq c fun q => { q with
      work := some { w with source := some src, phase := .source } }) := by
  have hclaimed : s.claimSource c src m t = (s.setUser src (some c)).modSeq c fun q => { q with
      work := some { w with source := some src, phase := .source } } := by
    unfold State.claimSource
    rw [hcount]
    exact modWork_eq (s := s.setUser src (some c)) hwork _
  unfold State.resolveOrder
  rw [hwork]
  dsimp only
  rw [hkind]
  dsimp only
  rw [hresolved]
  dsimp only
  rw [if_pos hmay, hclaimed, ← hkind]

theorem resolveOrder_none (hresolved : s.resolveSource c m t infeed = none) :
    s.resolveOrder c = none := by
  unfold State.resolveOrder
  rw [hwork]
  dsimp only
  rw [hkind]
  dsimp only
  rw [hresolved]

theorem endUnresolved_order : s.endUnresolved c = (s.reportNoSource n).endWork c := by
  unfold State.endUnresolved
  rw [hwork]
  dsimp only
  rw [Work.orderNumber_order hkind]

variable (hphase : w.phase = .source) (hsource : w.source = none)
include hphase hsource

theorem advance_resolves {u : State} (h : s.resolveOrder c = some u) : s.advance c = u := by
  unfold State.advance State.advanceN
  rw [nextAction_resolve hwork hkind hphase hsource]
  dsimp only
  rw [h]

/-- With no source and no suspended work the carriage is left with no work (R53, R71, R81). -/
theorem advance_unresolved {u : State} (h : s.resolveOrder c = none) (hu : s.endUnresolved c = u)
    (hrests : (u.sq c).work = none) (hnone : (u.sq c).suspended = []) : s.advance c = u := by
  have hnext : (u.sq c).nextAction = .rest := by rw [Sequencer.nextAction, hrests]
  have hsecond : State.advanceN 7 c u = u := by
    unfold State.advanceN
    rw [hnext]
    exact if_pos (by rw [hnone]; rfl)
  unfold State.advance State.advanceN
  rw [nextAction_resolve hwork hkind hphase hsource]
  dsimp only
  rw [h]
  dsimp only
  rw [hu, hsecond]

end

/-! ### The order that has no source -/

theorem saws_modSaw_other (s : State) {v w : Saw} (f : SawStation → SawStation) (h : v ≠ w) :
    (s.modSaw w f).saws[v] = s.saws[v] := by
  simp only [State.modSaw, Fin.getElem_fin]
  exact Vector.getElem_set_ne _ _ fun e => h (Fin.ext e.symm)

/-- A book release leaves what a requeue reads of the infeeds: it comes to one that is not BLOCKED. -/
theorem userCleared_blocked (s : State) (p : Place) (e : OrderEntry) :
    backState (s.userCleared p) e = backState s e := by
  unfold State.userCleared
  split
  · next w _ _ =>
    split
    · next h =>
      have hservable := (servable_iff _).1 (Bool.and_eq_true_iff.1 h).2
      unfold State.releaseBook backState
      by_cases hw : e.saw = w
      · subst hw
        rw [saws_modSaw_self]
        rcases hservable with hst | hst <;> rw [hst]
      · rw [saws_modSaw_other _ _ hw]
    · rfl
  · rfl

theorem backState_congr {s u : State} (h : u.saws = s.saws) (e : OrderEntry) :
    backState u e = backState s e := by
  unfold backState
  rw [h]

theorem releasePlace_backState {s : State} {c : Carriage} (hother : (s.sq (other c)).state.unmoved = true)
    (p : Place) (e : OrderEntry) : backState (s.releasePlace c p) e = backState s e := by
  unfold State.releasePlace
  split
  · obtain ⟨v, hclear, -⟩ := userCleared_frame (s.setUser p none) p
    have hsame : (((s.setUser p none).userCleared p).sq (other c)).state.unmoved = true := by
      rw [hclear]
      exact hother
    rw [nudgeBlocked_unmoved hsame, userCleared_blocked]
    exact backState_congr rfl e
  · rfl

section
variable {s : State} {e : OrderEntry}

/-- What the report that an order has no source changes (R53). -/
structure NoSource (s u : State) (e : OrderEntry) : Prop where
  noted : Noted s u
  stackRecs : u.stackRecs = s.stackRecs
  entry : ∀ y ∈ u.queue.entries, y.number = e.number → y = { e with
    state := match s.starveReason e with
      | some r => .starved r
      | none => backState s e }

theorem reportNoSource_reports (h : s.soleOrder e) : NoSource s (s.reportNoSource e.number) e := by
  have hsole := h.2
  unfold State.reportNoSource
  rw [h.orderOf]
  dsimp only
  cases hreason : s.starveReason e with
  | some r =>
    have hnoted := (Noted.of_told ((Told.refl s).mapOrders (fun x => x.number = e.number) fun x =>
      { x with state := .starved r })).raise .noStock (.order e.number) (starveCode r)
    obtain ⟨l, v, k, hframe⟩ := starve_frame s e.number r
    refine ⟨hnoted, ?_, fun y hy hn => ?_⟩
    · dsimp only
      rw [hframe]
      rfl
    · dsimp only at hy
      rw [hframe] at hy
      obtain ⟨x, hx, rfl⟩ := List.mem_map.1 hy
      have hnumber : x.number = e.number := by
        by_contra hne
        rw [if_neg (by simpa using hne)] at hn
        exact hne hn
      rw [if_pos (decide_eq_true hnumber), hsole x hx hnumber, hreason]
  | none =>
    have htold := (Told.refl s).requeueWhere fun x => x.number = e.number
    refine ⟨.of_told htold, htold.stackRecs, fun y hy hn => ?_⟩
    dsimp only at hy
    rw [requeueWhere_entries] at hy
    obtain ⟨x, hx, rfl⟩ := List.mem_map.1 hy
    have hnumber : x.number = e.number := by
      by_contra hne
      rw [if_neg (by simpa using hne)] at hn
      exact hne hn
    rw [if_pos (decide_eq_true hnumber), hsole x hx hnumber, hreason]

end

/-! ### The arrival questions -/

theorem setUser_runsAt (s : State) (p q : Place) (u : Option Carriage) :
    (s.setUser p u).runsAt q = s.runsAt q := by
  have hrecs : (s.setUser p u).stackRecs[q]
      = if p = q then s.stackRecs[q].map fun r => { r with user := u } else s.stackRecs[q] := by
    rw [State.setUser, modStack_stackRecs]
    simp only [Fin.getElem_fin, Vector.getElem_set, Fin.ext_iff]
    split
    · next h => simp only [h]
    · rfl
  rw [State.runsAt, State.runsAt, hrecs]
  by_cases hpq : p = q
  · rw [if_pos hpq]
    cases s.stackRecs[q] <;> rfl
  · rw [if_neg hpq]

theorem bookCount_of_runs {s u : State} (hcell : u.cell = s.cell) (hruns : ∀ q, u.runsAt q = s.runsAt q)
    (w : Saw) : u.bookCount w = s.bookCount w := by
  rw [State.bookCount, State.bookCount, infeedPlace_congr hcell]
  cases s.infeedPlace w with
  | none => rfl
  | some p => exact congrArg knownCount (hruns p)

theorem infeedTakes_setUser (s : State) (p : Place) (u : Option Carriage) (w : Saw) :
    (s.setUser p u).infeedTakes w = s.infeedTakes w := by
  have hcount := bookCount_of_runs (s := s) (u := s.setUser p u) rfl (fun q => setUser_runsAt s p q u) w
  rw [State.infeedTakes, State.infeedTakes, hcount]
  rfl

section
variable {s : State} {c : Carriage} {w : Work} {p : Place} {v : Saw} {l : Load}

theorem claimHere_eq {cur : Nat} (hzone : (s.arec c).zone = some cur) :
    s.claimHere c = s.claimMove c cur := by
  rw [State.claimHere, hzone]

/-- The placement at the infeed is claimed (R75). -/
def State.infeedClaimed (s : State) (c : Carriage) (p : Place) (w : Work) : State :=
  (s.setUser p (some c)).modSeq c fun q => { q with
    wait := ⟨false, q.wait.ms⟩, work := some { w with dest := some p } }

theorem arrive_claims (hat : (s.sq c).atInfeed = true) (hwork : (s.sq c).work = some w)
    (hload : (s.sq c).load = some l) (htakes : s.infeedTakes v = true)
    (hmay : s.mayClaimDest c p l.piece = true) :
    s.arrive c p v = (s.infeedClaimed c p w).claimHere c := by
  have hfields : (s.setUser p (some c)).modSeq c (fun q => { q with
        atInfeed := true, wait := q.wait.halt
        work := q.work.map fun x => { x with dest := some p } }) = s.infeedClaimed c p w := by
    refine modSeq_congr ?_
    have hsq : (s.setUser p (some c)).sq c = s.sq c := rfl
    rw [hsq, hwork, ← hat]
    rfl
  unfold State.arrive
  rw [hload]
  dsimp only
  rw [htakes, hmay, hfields]
  rfl

theorem enterSawWait_eq (hwork : (s.sq c).work = some w) (hdest : w.dest = none)
    (hother : (s.sq (other c)).state.unmoved = true) (hne : (s.sq c).state ≠ .sawWait) :
    s.enterSawWait c v = (s.modSeq c fun q => { q with
      state := .sawWait
      wait := if q.wait.running then q.wait else ⟨true, s.saws[v].waitLimit * 1000⟩ }).dueExam := by
  have hentered : s.enterSawWait c v = ((s.releaseDest c).setCarState c .sawWait).modSeq c fun q =>
      { q with wait := if q.wait.running then q.wait
        else ⟨true, s.saws[v].waitLimit * 1000⟩ } := rfl
  have hfields := modSeq_modSeq s c (fun q => { q with state := .sawWait }) fun q => { q with
    wait := if q.wait.running then q.wait else ⟨true, s.saws[v].waitLimit * 1000⟩ }
  rw [hentered, releaseDest_none hwork hdest, setCarState_eq hother hne]
  exact congrArg State.dueExam hfields

theorem arrive_waits (hat : (s.sq c).atInfeed = true) (hload : (s.sq c).load = some l)
    (hno : ¬(s.infeedTakes v = true ∧ s.mayClaimDest c p l.piece = true)) :
    s.arrive c p v = s.enterSawWait c v := by
  have hsame : s.modSeq c (fun q => { q with atInfeed := true }) = s := by
    refine modSeq_fixed ?_
    rw [← hat]
  unfold State.arrive
  rw [hload]
  dsimp only
  rw [if_neg (by rw [Bool.and_eq_true]; exact hno), hsame]

theorem moveOn_arrives (hnext : (s.sq c).nextAction = .deliver p v) (hat : (s.sq c).atInfeed = true) :
    s.moveOn c = s.arrive c p v := by
  rw [State.moveOn, hnext]
  dsimp only
  rw [hat, Bool.true_or]
  rfl

theorem act_delivers (hhold : (s.sq c).holdPending = false)
    (hnext : (s.sq c).nextAction = .deliver p v) : s.act c = s.moveOn c := by
  rw [State.act, hhold, hnext]
  rfl

end

end Sys2Proof.Machine
end

section
/-! The statement on STEP DONE (O47). -/

namespace Sys2Proof.Machine

theorem complete_position (d : DrivePort) (k : Continuation) : (d.complete k).position = d.position := by
  unfold DrivePort.complete
  split <;> rfl

theorem ExamOnly.next_same {s u : State} (h : ExamOnly s u) (hrested : s.rested = true)
    (hclaims : s.noClaims = true) (htodo : u.todo = s.todo) : (.next u.settle : Result) = .next u :=
  h.next_settle hrested hclaims (by rw [← htodo])

section
variable {s : State} {c : Carriage} {pos : Pos} (hquiet : s.quiet = true)
  (hstop : (s.pt c).stopping = false)
include hquiet hstop

/-- The drive goes on with its next step after a TRAVEL (R95, R124). -/
theorem stepDone_arrivesNext {x y : Nat} {f : Option Nat}
    (hcur : (s.pt c).current = some (.travel x y f)) (hnext : (s.pt c).next ≠ none)
    (hheld : s.holder (s.posZone pos) = some c) :
    exec (.stepDone c pos .next) s
      = .next (wentOn ((reportedAt s c pos).arrivedIn c pos (s.posZone pos)) c) := by
  obtain ⟨hrested, hclaims, -⟩ := (quiet_iff s).1 hquiet
  have hport := reportedAt_pt s c pos
  have hhere := Unmoved.reported (s := s) c pos
  have hnextHere : ((reportedAt s c pos).pt c).next ≠ none := by rw [hport]; exact hnext
  have htaken := takeStepDone_travel (s := reportedAt s c pos) (pos := pos) (k := .next)
    (by rw [hport]; exact hstop) (by rw [hport]; exact hcur)
  have harrived := travelStepDone_held (s := reportedAt s c pos) (pos := pos) (k := .next)
    (hhere.noClaims hclaims) (todo_of_rested hrested) hheld
  rw [completion_next hnextHere, completeStep_next hnextHere] at harrived
  have hexam : ExamOnly s (wentOn ((reportedAt s c pos).arrivedIn c pos (s.posZone pos)) c) :=
    ((ExamOnly.of_unmoved hhere).arrivesIn c pos (s.posZone pos)).modPort c _
  exact (congrArg (fun u => (.next (State.settle u) : Result)) (htaken.trans harrived)).trans
    (hexam.next_same hrested hclaims rfl)

/-- A TRAVEL that ends in a zone the carriage does not hold (R111). -/
theorem stepDone_astray {x y : Nat} {f : Option Nat}
    (hcur : (s.pt c).current = some (.travel x y f)) (hheld : s.holder (s.posZone pos) ≠ some c)
    (hmoving : (s.sq c).state = .moving) :
    ∃ t, exec (.stepDone c pos .next) s = .next t ∧ (t.sq c).state = .faulted
      ∧ (t.pt c).stopping = true ∧ (t.pt c).position = some pos ∧ (t.sq c).work = none
      ∧ (t.sq c).suspended = [] ∧ (t.sq c).load = (s.sq c).load
      ∧ (∃ e ∈ t.events.entries, e.kind = .zoneConflict ∧ e.source = .carriage c
          ∧ e.detail = s.posZone pos)
      ∧ (s.keepable c (s.posZone pos) = true → t.heldZones c = [s.posZone pos]
          ∧ t.arec c = { s.arec c with accepted := some pos, zone := some (s.posZone pos) }) := by
  obtain ⟨hrested, hclaims, hs⟩ := (quiet_iff s).1 hquiet
  have hport := reportedAt_pt s c pos
  have hhere := Unmoved.reported (s := s) c pos
  have htaken := takeStepDone_travel (s := reportedAt s c pos) (pos := pos) (k := .next)
    (by rw [hport]; exact hstop) (by rw [hport]; exact hcur)
  have hconflict := travelStepDone_astray (s := reportedAt s c pos) (pos := pos) (k := .next) hheld
  have hcompleted : Unmoved s ((reportedAt s c pos).completeStep c .next) := hhere.modPort c _
  have hposition : (((reportedAt s c pos).completeStep c .next).pt c).position = some pos := by
    rw [State.completeStep, modPort_pt_self, complete_position, hport]
  have hastray := positionConflict_astray (s := (reportedAt s c pos).completeStep c .next) (c := c)
    (pos := pos) (hcompleted.noClaims hclaims) ((noChoosers_iff s).1 hs (other c)) hmoving
  generalize ((reportedAt s c pos).completeStep c .next).positionConflict c pos false = u
    at hconflict hastray
  obtain ⟨hexam, hsq, hstopping, hpositionNow, hpending, hkept⟩ := hastray
  have hloadKept : (u.sq c).load = (s.sq c).load := (congrArg Sequencer.load hsq).trans rfl
  refine ⟨{ u with todo := s.todo },
    (congrArg (fun u => (.next (State.settle u) : Result)) (htaken.trans hconflict)).trans
    (((ExamOnly.of_unmoved hcompleted).trans hexam).next_settle hrested hclaims rfl),
    congrArg Sequencer.state hsq, hstopping, hpositionNow.trans hposition, congrArg Sequencer.work hsq,
    congrArg Sequencer.suspended hsq, hloadKept, hpending, fun hkeep => ?_⟩
  exact hkept ((keepable_congr hcompleted.arb c (s.posZone pos)).trans hkeep)

/-- The drive goes on with its next step after ABANDON (R74, R125). -/
theorem stepDone_abandonedNext {p : Place} {top search : Nat} {prof : GripProfile} {sl : Bool}
    {w : Work} (hcur : (s.pt c).current = some (.pick p top search prof .abandoning sl))
    (hnext : (s.pt c).next ≠ none) (hwork : (s.sq c).work = some w)
    (horder : ∃ n v m t d g, w.kind = .order n v m t d g) (hsource : w.source = some p)
    (hdest : w.dest = none) :
    exec (.stepDone c pos .next) s
      = .next (wentOn (((reportedAt s c pos).releasePlace c p).modSeq c fun q => { q with
        work := some { w with source := none, phase := .source } }) c) := by
  obtain ⟨hrested, hclaims, hs⟩ := (quiet_iff s).1 hquiet
  have hport := reportedAt_pt s c pos
  have hhere := Unmoved.reported (s := s) c pos
  have hnextHere : ((reportedAt s c pos).pt c).next ≠ none := by rw [hport]; exact hnext
  have htaken := takeStepDone_abandoned (s := reportedAt s c pos) (pos := pos) (k := .next)
    (by rw [hport]; exact hstop) (by rw [hport]; exact hcur)
  have hrecords := pickAbandoned_order (s := wentOn (reportedAt s c pos) c) (c := c) hwork horder hsource
    hdest
  have hgone := ((PortFree.releasePlace c p).comp (PortFree.modSeq c fun q => { q with
    work := some { w with source := none, phase := .source } })).wentOn (reportedAt s c pos) c
  rw [follow_next hnextHere, completeStep_next hnextHere, hrecords] at htaken
  have hnoted := (Noted.refl (reportedAt s c pos)).releasePlace (hhere.noChoosers hs) c p
  have hunmoved : Unmoved s (wentOn (((reportedAt s c pos).releasePlace c p).modSeq c fun q =>
      { q with work := some { w with source := none, phase := .source } }) c) :=
    ((hhere.trans hnoted.unmoved).modSeq c _ fun _ => by rfl).wentOn c
  exact hunmoved.next_settle hrested (htaken.trans hgone)

end

/-! ### Standing at the infeed -/

section
variable {s : State} {c : Carriage} {pos : Pos} {w : Work} {n : Nat} {v : Saw} {m h : Nat}
  {infeed : Place} {g : Option Place} {l : Load}

/-- The carriage stands at its infeed with its load (R75). -/
def State.atInfeedNow (s : State) (c : Carriage) (pos : Pos) : State :=
  (wentOn ((reportedAt s c pos).arrivedIn c pos (s.posZone pos)) c).modSeq c fun q =>
    { q with atInfeed := true }

theorem atInfeedNow_sq (s : State) (c : Carriage) (pos : Pos) :
    (s.atInfeedNow c pos).sq c = { s.sq c with atInfeed := true } :=
  modSeq_sq_self _ c _

theorem atInfeedNow_other (s : State) (c : Carriage) (pos : Pos) :
    (s.atInfeedNow c pos).sq (other c) = s.sq (other c) :=
  modSeq_sq_other _ c _

theorem infeedClaimed_sq (s : State) (c : Carriage) (p : Place) (w : Work) :
    (s.infeedClaimed c p w).sq c = { s.sq c with
      wait := ⟨false, (s.sq c).wait.ms⟩, work := some { w with dest := some p } } :=
  modSeq_sq_self (s.setUser p (some c)) c fun q => { q with
    wait := ⟨false, q.wait.ms⟩, work := some { w with dest := some p } }

theorem ExamOnly.atInfeed (s : State) (c : Carriage) (pos : Pos) : ExamOnly s (s.atInfeedNow c pos) :=
  (((ExamOnly.of_unmoved (Unmoved.reported c pos)).arrivesIn c pos (s.posZone pos)).modPort c _).modSeq
    c _

theorem atInfeedNow_arec (s : State) (c : Carriage) (pos : Pos) :
    ((s.atInfeedNow c pos).arec c).zone = some (s.posZone pos) :=
  congrArg ArbRecord.zone (arrivedIn_arec (reportedAt s c pos) c pos (s.posZone pos))

theorem atInfeedNow_position (s : State) (c : Carriage) (pos : Pos) :
    ((s.atInfeedNow c pos).pt c).position = some pos := by
  have hpt : (s.atInfeedNow c pos).pt c = (wentOn (reportedAt s c pos) c).pt c := rfl
  rw [hpt, wentOn_pt, reportedAt_pt]

variable (hquiet : s.quiet = true) (hstop : (s.pt c).stopping = false)
  (hwork : (s.sq c).work = some w) (hkind : w.kind = .order n v m h infeed g)
  (hdest : w.dest = none) (hnext : (s.pt c).next = none) (hwent : goesOnAtWork s c) {x y : Nat}
  {f : Option Nat} (hcur : (s.pt c).current = some (.travel x y f))
  (hheld : s.holder (s.posZone pos) = some c) (hphase : w.phase = .deliver)
  (hload : (s.sq c).load = some l)
include hquiet hstop hwork hkind hnext hwent hcur hheld hphase

/-- The arrival questions are put (R75). -/
theorem stepDone_asks : (reportedAt s c pos).takeStepDone c pos .standing
    = (s.atInfeedNow c pos).arrive c infeed v := by
  obtain ⟨hrested, hclaims, -⟩ := (quiet_iff s).1 hquiet
  obtain ⟨-, hhold, hcancel, hexpired, hordered⟩ := hwent
  have hport := reportedAt_pt s c pos
  have hhere := Unmoved.reported (s := s) c pos
  have hnextHere : ((reportedAt s c pos).pt c).next = none := by rw [hport]; exact hnext
  have hunordered : ((reportedAt s c pos).arec c).ordered.isSome = false :=
    (congrArg Option.isSome hordered).trans rfl
  have harrived := travelStepDone_held (s := reportedAt s c pos) (pos := pos) (k := .standing)
    (hhere.noClaims hclaims) (todo_of_rested hrested) hheld
  rw [completion_stands hnextHere, completeStep_stands hnextHere, hunordered] at harrived
  have hdelivers : (s.sq c).nextAction = .deliver infeed v := nextAction_deliver hwork hkind hphase
  have hnoted : (wentOn ((reportedAt s c pos).arrivedIn c pos (s.posZone pos)) c).noteArrival c
      = s.atInfeedNow c pos := by
    have hsq : (wentOn ((reportedAt s c pos).arrivedIn c pos (s.posZone pos)) c).sq c = s.sq c := rfl
    unfold State.noteArrival
    rw [hsq, hdelivers]
    rfl
  have hafter : (reportedAt s c pos).travelStepDone c pos .standing
      = ((wentOn ((reportedAt s c pos).arrivedIn c pos (s.posZone pos)) c).noteArrival c).goOn c :=
    harrived
  have hsq := atInfeedNow_sq s c pos
  have hdeliversNow : ((s.atInfeedNow c pos).sq c).nextAction = .deliver infeed v := by
    refine nextAction_deliver ?_ hkind hphase
    rw [hsq]
    exact hwork
  have hmoves : ((s.atInfeedNow c pos).sq c).nextAction.moves := by
    rw [hdeliversNow]
    trivial
  rw [takeStepDone_travel (by rw [hport]; exact hstop) (by rw [hport]; exact hcur), hafter, hnoted,
    goOn_proceeds (by rw [hsq]; exact hcancel) (by rw [hsq]; exact hexpired), State.proceed,
    advance_stays (.inl hmoves), act_delivers (by rw [hsq]; exact hhold) hdeliversNow,
    moveOn_arrives hdeliversNow (by rw [hsq])]

variable (hload : (s.sq c).load = some l)
include hload hdest

omit hdest in
/-- With two yes answers the carriage claims the infeed and its own zone (R75). -/
theorem stepDone_yes (htakes : s.infeedTakes v = true) (hmay : s.mayClaimDest c infeed l.piece = true) :
    ∃ t, exec (.stepDone c pos .standing) s = .next t
      ∧ movesOn ((s.atInfeedNow c pos).infeedClaimed c infeed w) t c (s.posZone pos) (s.posZone pos)
        w.cls := by
  obtain ⟨hrested, hclaims, -⟩ := (quiet_iff s).1 hquiet
  have hasks := stepDone_asks hquiet hstop hwork hkind hnext hwent hcur hheld hphase
  have hsq := atInfeedNow_sq s c pos
  have hclaimed := arrive_claims (s := s.atInfeedNow c pos) (c := c) (w := w) (p := infeed) (v := v)
    (l := l) (by rw [hsq]) (by rw [hsq]; exact hwork) (by rw [hsq]; exact hload) htakes hmay
  have hzone : (((s.atInfeedNow c pos).infeedClaimed c infeed w).arec c).zone = some (s.posZone pos) :=
    atInfeedNow_arec s c pos
  have hclaimedSq : ((s.atInfeedNow c pos).infeedClaimed c infeed w).sq c = { s.sq c with
      atInfeed := true, wait := ⟨false, (s.sq c).wait.ms⟩
      work := some { w with dest := some infeed } } := by
    rw [infeedClaimed_sq, hsq]
  have hexam : ExamOnly s ((s.atInfeedNow c pos).infeedClaimed c infeed w) :=
    ((ExamOnly.atInfeed s c pos).modStack infeed _).modSeq c _
  have hissues : ((s.atInfeedNow c pos).infeedClaimed c infeed w).issues c := by
    intro p w' haction _
    rw [nextAction_deliver (congrArg Sequencer.work hclaimedSq) hkind hphase] at haction
    cases haction
    refine ⟨(infeedTakes_setUser (s.atInfeedNow c pos) infeed (some c) v).trans htakes, ?_⟩
    rw [hclaimedSq]
    rfl
  refine ⟨_, congrArg (fun u => (.next (State.settle u) : Result)) (hasks.trans (hclaimed.trans
    (claimHere_eq hzone))), claimMove_movesOn hexam hrested hclaims ?_ ?_ hzone ?_ ?_ hissues⟩
  · rfl
  · rw [hclaimedSq]
    exact hwent.1
  · exact strayed_inPlace (atInfeedNow_position s c pos) hzone rfl
  · rw [hclaimedSq]
    rfl

/-- Otherwise it is in SAW WAIT with its wait timer running (R75, R76). -/
theorem stepDone_no (hno : ¬(s.infeedTakes v = true ∧ s.mayClaimDest c infeed l.piece = true)) :
    exec (.stepDone c pos .standing) s = .next ((s.atInfeedNow c pos).modSeq c fun q => { q with
      state := .sawWait
      wait := if q.wait.running then q.wait else ⟨true, s.saws[v].waitLimit * 1000⟩ }) := by
  obtain ⟨hrested, hclaims, hs⟩ := (quiet_iff s).1 hquiet
  have hasks := stepDone_asks hquiet hstop hwork hkind hnext hwent hcur hheld hphase
  have hsq := atInfeedNow_sq s c pos
  have hwaits := arrive_waits (s := s.atInfeedNow c pos) (c := c) (p := infeed) (v := v) (l := l)
    (by rw [hsq]) (by rw [hsq]; exact hload) hno
  have hentered := enterSawWait_eq (s := s.atInfeedNow c pos) (c := c) (v := v) (w := w)
    (by rw [hsq]; exact hwork) hdest (by rw [atInfeedNow_other]; exact (noChoosers_iff s).1 hs (other c))
    (by rw [hsq]; exact fun e => CarState.noConfusion (hwent.1.symm.trans e))
  refine (congrArg (fun u => (.next (State.settle u) : Result)) (hasks.trans (hwaits.trans
    hentered))).trans ?_
  exact (((ExamOnly.atInfeed s c pos).modSeq c _).dueExam).next_settle hrested hclaims
    (dueExam_undone rfl)

end

/-! ### Standing after ABANDON -/

/-- Nothing but the work of a carriage in motion says what it does next. -/
structure AtWork (q : Sequencer) : Prop where
  moving : q.state = .moving
  hold : q.holdPending = false
  cancel : q.cancelPending = false
  expired : q.expired = false

/-- An order for which no source is resolved leaves the carriage IDLE and without work (R53, R71, R81). -/
theorem goOn_unresolved {u : State} {c : Carriage} {w : Work} {e : OrderEntry} {v : Saw} {m h : Nat}
    {infeed : Place} {g : Option Place} (hwork : (u.sq c).work = some w)
    (hkind : w.kind = .order e.number v m h infeed g) (hphase : w.phase = .source)
    (hsource : w.source = none) (hresolved : u.resolveSource c m h infeed = none)
    (hsole : u.soleOrder e) (hunused : ∀ q, u.userAt q ≠ some c) (hat : AtWork (u.sq c))
    (hload : (u.sq c).load = none) (hsuspended : (u.sq c).suspended = [])
    (hother : (u.sq (other c)).state.unmoved = true) :
    ∃ t, u.goOn c = t ∧ ExamOnly u t ∧ (t.sq c).state = .idle ∧ (t.sq c).work = none
      ∧ (t.sq c).ask = true ∧ t.port = u.port ∧ t.stackRecs = u.stackRecs
      ∧ ∀ y ∈ t.queue.entries, y.number = e.number → y = { e with
          state := match u.starveReason e with
            | some r => .starved r
            | none => backState u e } := by
  have hreport := reportNoSource_reports hsole
  have hends := endUnresolved_order hwork hkind
  have hresolve := resolveOrder_none hwork hkind hresolved
  have hadvance {x : State} := advance_unresolved (u := x) hwork hkind hphase hsource hresolve
  have hgoes := goOn_proceeds hat.cancel hat.expired
  obtain ⟨hnoted, hstacks, hentry⟩ := hreport
  generalize u.reportNoSource e.number = x at hnoted hstacks hentry hends
  obtain ⟨ask, latched, hsq⟩ := hnoted.seq c
  have htold (z : State) : z.tellEnded w = z := by
    unfold State.tellEnded
    rw [hkind]
  have hended := endWork_ends (s := x) (c := c) (w := w) (by rw [hsq]; exact hwork) htold
    (fun q hq => hunused q (by rw [← hq, State.userAt, State.userAt, hstacks]))
    (by rw [hsq]; exact hat.moving) (by rw [hsq]; exact hsuspended)
  have hnow : (((x.modSeq c fun q => { q with
      work := none, orderDone := false, expired := false, fullRaised := false }).modSeq (other c)
        noticed).sq c) = { u.sq c with
          ask := ask, latched := latched, work := none, orderDone := false, expired := false
          fullRaised := false } := by
    rw [sq_modSeq_other, modSeq_sq_self, hsq]
  have hotherNow : (((x.modSeq c fun q => { q with
      work := none, orderDone := false, expired := false, fullRaised := false }).modSeq (other c)
        noticed).sq (other c)).state.unmoved = true := by
    rw [modSeq_sq_self, noticed_state, modSeq_sq_other, hnoted.unmoved.car]
    exact hother
  have hrests := act_rests hotherNow
    (by rw [hnow]; exact fun e => CarState.noConfusion (hat.moving.symm.trans e))
    (by rw [hnow]; exact hat.hold) (by rw [hnow])
  have hadvanced := hadvance (hends.trans hended) (by rw [hnow]) (by rw [hnow]; exact hsuspended)
  rw [State.proceed, hadvanced, hrests] at hgoes
  refine ⟨_, hgoes, ((((ExamOnly.of_unmoved hnoted.unmoved).modSeq _ _).modSeq _ _).modSeq _
    _).dueExam, ?_, ?_, ?_, hnoted.port, hstacks, hentry⟩
  · rw [dueExam_sq, modSeq_sq_self]
  · rw [dueExam_sq, modSeq_sq_self, hnow]
  · rw [dueExam_sq, modSeq_sq_self, hnow, hload]
    exact Bool.or_true _

section
variable {s : State} {c : Carriage} {pos : Pos} {w : Work} {n : Nat} {v : Saw} {m h : Nat}
  {infeed : Place} {g : Option Place} {p : Place} {cur : Nat}

/-- The source is given free, and the order is to resolve one afresh, the drive standing (R74). -/
def State.sourceFreed (s : State) (c : Carriage) (pos : Pos) (p : Place) (w : Work) : State :=
  wentOn (((reportedAt s c pos).releasePlace c p).modSeq c fun q => { q with
    work := some { w with source := none, phase := .source } }) c

variable {top search : Nat} {prof : GripProfile} {sl : Bool} (hquiet : s.quiet = true)
  (hstop : (s.pt c).stopping = false) (hwork : (s.sq c).work = some w)
  (hkind : w.kind = .order n v m h infeed g) (hdest : w.dest = none) (hnext : (s.pt c).next = none)
  (hcur : (s.pt c).current = some (.pick p top search prof .abandoning sl))
  (hsource : w.source = some p)

section
include hstop hwork hkind hdest hnext hcur hsource

theorem stepDone_freesSource : (reportedAt s c pos).takeStepDone c pos .standing
    = (s.sourceFreed c pos p w).goOn c := by
  have hport := reportedAt_pt s c pos
  have hnextHere : ((reportedAt s c pos).pt c).next = none := by rw [hport]; exact hnext
  have htaken := takeStepDone_abandoned (s := reportedAt s c pos) (pos := pos) (k := .standing)
    (by rw [hport]; exact hstop) (by rw [hport]; exact hcur)
  have hrecords := pickAbandoned_order (s := wentOn (reportedAt s c pos) c) (c := c) hwork
    ⟨n, v, m, h, infeed, g, hkind⟩ hsource hdest
  have hgone := ((PortFree.releasePlace c p).comp (PortFree.modSeq c fun q => { q with
    work := some { w with source := none, phase := .source } })).wentOn (reportedAt s c pos) c
  rw [follow_stands hnextHere, completeStep_stands hnextHere, hrecords] at htaken
  exact htaken.trans (congrArg (State.goOn · c) hgone)

end

variable (hwent : goesOnAtWork s c)
include hquiet

theorem sourceFreed_noted : Noted (reportedAt s c pos) ((reportedAt s c pos).releasePlace c p) :=
  (Noted.refl _).releasePlace
    ((Unmoved.reported c pos).noChoosers ((quiet_iff s).1 hquiet).2.2) c p

theorem sourceFreed_unmoved : Unmoved s (s.sourceFreed c pos p w) :=
  (((Unmoved.reported c pos).trans (sourceFreed_noted hquiet).unmoved).modSeq c _
    fun _ => by rfl).wentOn c

theorem sourceFreed_sq : ∃ ask latched, (s.sourceFreed c pos p w).sq c = { s.sq c with
    ask := ask, latched := latched, work := some { w with source := none, phase := .source } } := by
  obtain ⟨ask, latched, hsq⟩ := (sourceFreed_noted (pos := pos) (p := p) hquiet).seq c
  refine ⟨ask, latched, (wentOn_sq _ c c).trans ((modSeq_sq_self _ c _).trans ?_)⟩
  rw [hsq, reportedAt_sq]

include hstop hwork hkind hdest hnext hcur hsource hwent

/-- The carriage claims the source it resolves (R71). -/
theorem stepDone_resolves (hzone : (s.arec c).zone = some cur)
    (hplace : s.posZone pos = cur) {src : Place}
    (hresolved : (s.sourceFreed c pos p w).resolveSource c m h infeed = some src)
    (hmay : (s.sourceFreed c pos p w).mayClaimSource c src = true)
    (hcount : (s.sourceFreed c pos p w).matching m h src = some 0) :
    ∃ t, exec (.stepDone c pos .standing) s = .next t
      ∧ movesOn (((s.sourceFreed c pos p w).setUser src (some c)).modSeq c fun q => { q with
        work := some { w with source := some src, phase := .source } }) t c cur (s.placeZone src)
          w.cls := by
  obtain ⟨hrested, hclaims, hs⟩ := (quiet_iff s).1 hquiet
  have hfreed := stepDone_freesSource (pos := pos) hstop hwork hkind hdest hnext hcur hsource
  obtain ⟨ask, latched, hsq⟩ := sourceFreed_sq (c := c) (pos := pos) (w := w) (p := p) hquiet
  have hclaimed := resolveOrder_claims (s := s.sourceFreed c pos p w)
    (w := { w with source := none, phase := .source }) (congrArg Sequencer.work hsq) hkind hresolved
    hmay hcount
  have hadvanced := advance_resolves (congrArg Sequencer.work hsq) hkind rfl rfl hclaimed
  have hnoted := (sourceFreed_noted (c := c) (pos := pos) (p := p) hquiet).setUser src (some c)
  have hready := standsReady_of_noted (w := { w with source := some src, phase := .source })
    (f := fun q => { q with work := some { w with source := some src, phase := .source } })
    hnoted hwent hzone hplace (fun q => ⟨rfl, rfl, rfl, rfl⟩) rfl
  have hsame : ((s.sourceFreed c pos p w).setUser src (some c)).modSeq c (fun q => { q with
        work := some { w with source := some src, phase := .source } })
      = wentOn ((((reportedAt s c pos).releasePlace c p).setUser src (some c)).modSeq c fun q =>
        { q with work := some { w with source := some src, phase := .source } }) c :=
    modSeq_modSeq (wentOn (((reportedAt s c pos).releasePlace c p).setUser src (some c)) c) c
      (fun q => { q with work := some { w with source := none, phase := .source } })
      fun q => { q with work := some { w with source := some src, phase := .source } }
  rw [← hsame] at hready
  have hunmoved := (sourceFreed_unmoved (c := c) (pos := pos) (w := w) (p := p) hquiet).modStack src
    fun r => { r with user := some c }
  have htodo : (((s.sourceFreed c pos p w).setUser src (some c)).modSeq c fun q => { q with
      work := some { w with source := some src, phase := .source } }).todo = s.todo := hunmoved.todo
  have hto : (((s.sourceFreed c pos p w).setUser src (some c)).modSeq c fun q => { q with
      work := some { w with source := some src, phase := .source } }).movesTo c (s.placeZone src) :=
    .inl ⟨src, .inl (nextAction_source (w := { w with source := some src, phase := .source })
      (congrArg Sequencer.work (modSeq_sq_self _ c _)) hkind rfl rfl),
      hnoted.placeZone src⟩
  have hgoes : (s.sourceFreed c pos p w).goOn c
      = (((s.sourceFreed c pos p w).setUser src (some c)).modSeq c fun q => { q with
        work := some { w with source := some src, phase := .source } }).goOn c := by
    rw [goOn_proceeds ((congrArg Sequencer.cancelPending hsq).trans hwent.2.2.1)
      ((congrArg Sequencer.expired hsq).trans hwent.2.2.2.1), State.proceed, hadvanced,
      hto.act hready.hold, hto.goOn hready.cancel hready.expired hready.hold]
  exact ⟨_, congrArg (fun u => (.next (State.settle u) : Result)) (hfreed.trans hgoes),
    hready.movesOn hrested hclaims hto (by rw [← htodo])⟩

/-- With no source the order leaves the carriage, which is IDLE and asks for work (R53, R71, R81). -/
theorem stepDone_starves (hload : (s.sq c).load = none) {e : OrderEntry} (he : e ∈ s.queue.entries)
    (hen : e.number = n) (hok : s.queue.ok = true)
    (hresolved : (s.sourceFreed c pos p w).resolveSource c m h infeed = none)
    (hsuspended : (s.sq c).suspended = []) (husers : ∀ q, q ≠ p → s.userAt q ≠ some c) :
    ∃ t, exec (.stepDone c pos .standing) s = .next t ∧ (t.sq c).state = .idle
      ∧ (t.sq c).work = none ∧ (t.sq c).ask = true ∧ (t.pt c).current = none
      ∧ t.stackRecs = (s.sourceFreed c pos p w).stackRecs
      ∧ ∀ y ∈ t.queue.entries, y.number = n → y = { e with
          state := match (s.sourceFreed c pos p w).starveReason e with
            | some r => .starved r
            | none => backState s e } := by
  obtain ⟨hrested, hclaims, hs⟩ := (quiet_iff s).1 hquiet
  subst hen
  have hother : ((reportedAt s c pos).sq (other c)).state.unmoved = true := (noChoosers_iff s).1 hs _
  have hfreed := stepDone_freesSource (pos := pos) hstop hwork hkind hdest hnext hcur hsource
  have hfreedUnmoved := sourceFreed_unmoved (c := c) (pos := pos) (w := w) (p := p) hquiet
  obtain ⟨ask, latched, hsq⟩ := sourceFreed_sq (c := c) (pos := pos) (w := w) (p := p) hquiet
  obtain ⟨saws, hframe, -⟩ := releasePlace_frame (c := c) hother p
  have hqueue : (s.sourceFreed c pos p w).queue = s.queue := by
    rw [State.sourceFreed, hframe]
    rfl
  have hsole : (s.sourceFreed c pos p w).soleOrder e := by
    unfold State.soleOrder
    rw [hqueue]
    exact soleOrder_of_ok hok he
  have hnext' : ((s.sourceFreed c pos p w).pt c).current = none := by
    have hport := (sourceFreed_noted (c := c) (pos := pos) (p := p) hquiet).pt c
    rw [State.sourceFreed, wentOn_pt, modSeq_pt, hport, reportedAt_pt]
    exact hnext
  have hunused : ∀ q, (s.sourceFreed c pos p w).userAt q ≠ some c :=
    releasePlace_users (s := reportedAt s c pos) hother husers
  have hback : backState (s.sourceFreed c pos p w) e = backState s e :=
    releasePlace_backState (s := reportedAt s c pos) hother p e
  obtain ⟨t, ht, hexam, hidle, hrests, hask, hport, hstacks, hentry⟩ := goOn_unresolved
    (w := { w with source := none, phase := .source }) (congrArg Sequencer.work hsq) hkind rfl rfl
    hresolved hsole hunused
    ⟨(congrArg Sequencer.state hsq).trans hwent.1, (congrArg Sequencer.holdPending hsq).trans hwent.2.1,
      (congrArg Sequencer.cancelPending hsq).trans hwent.2.2.1,
      (congrArg Sequencer.expired hsq).trans hwent.2.2.2.1⟩
    ((congrArg Sequencer.load hsq).trans hload) ((congrArg Sequencer.suspended hsq).trans hsuspended)
    (by rw [hfreedUnmoved.car]; exact (noChoosers_iff s).1 hs (other c))
  rw [hback] at hentry
  refine ⟨{ t with todo := s.todo }, (congrArg (fun u => (.next (State.settle u) : Result))
    (hfreed.trans ht)).trans (((ExamOnly.of_unmoved hfreedUnmoved).trans hexam).next_settle hrested
      hclaims rfl), hidle, hrests, hask, ?_, hstacks, hentry⟩
  have hpt : t.pt c = (s.sourceFreed c pos p w).pt c := by rw [State.pt, State.pt, hport]
  exact (congrArg DrivePort.current hpt).trans hnext'

end

/-- Settles O47: STEP DONE, at an arrival, astray, and after ABANDON. -/
theorem stepDoneArrives : Obligations.StepDoneArrives := by
  intro s c pos hquiet hstop
  refine ⟨fun x y f hcur hnext hheld => ?_, fun x y f hcur hheld hmoving => ?_,
    fun p top search prof sl w hcur hnext hwork horder hsource hdest => ?_,
    fun w n v m h infeed g hwork hkind hdest hnext hwent => ⟨fun x y f l hcur hheld hphase hload =>
      ⟨fun hyes => ?_, fun hno => ?_⟩,
    fun p top search cur prof sl hcur hsource hload hzone hplace =>
      ⟨fun src hresolved hmay hcount => ?_,
        fun e he hen hok hresolved hsuspended husers => ?_⟩⟩⟩
  · exact stepDone_arrivesNext hquiet hstop hcur hnext hheld
  · exact stepDone_astray hquiet hstop hcur hheld hmoving
  · exact stepDone_abandonedNext hquiet hstop hcur hnext hwork horder hsource hdest
  · obtain ⟨htakes, hmay⟩ := hyes
    exact stepDone_yes hquiet hstop hwork hkind hnext hwent hcur hheld hphase hload htakes hmay
  · exact stepDone_no hquiet hstop hwork hkind hdest hnext hwent hcur hheld hphase hload hno
  · exact stepDone_resolves hquiet hstop hwork hkind hdest hnext hcur hsource hwent hzone hplace
      hresolved hmay hcount
  · exact stepDone_starves hquiet hstop hwork hkind hdest hnext hcur hsource hwent hload he hen hok
      hresolved hsuspended husers

end Sys2Proof.Machine
end

section
/-! SET DOWN (O37), and a span granted to a carriage that was standing. -/

namespace Sys2Proof.Machine

/-! ### A span granted -/

section
variable {s u : State} {c : Carriage}

/-- The sequencer has no load to deliver at an infeed where it stands. -/
def Sequencer.staysOut (q : Sequencer) : Prop :=
  ∀ p w, q.nextAction = .deliver p w → q.atInfeed = false

theorem staysOut_movesTo {z : Nat} (h : s.movesTo c z) : (s.sq c).staysOut := by
  intro p w haction
  rcases h with ⟨q, haction' | haction', -⟩ | ⟨q, x, -, hat, -⟩
  · exact Action.noConfusion (haction.symm.trans haction')
  · exact Action.noConfusion (haction.symm.trans haction')
  · exact hat

theorem issues_staysOut (h : (s.sq c).staysOut) : s.issues c := fun p w haction hat =>
  Bool.noConfusion (hat.symm.trans (h p w haction))

/-- A span is granted where nothing waits on the carriage (R92). -/
theorem ExamOnly.grants (h : ExamOnly s u) (hother : (u.sq (other c)).state.unmoved = true)
    (hstay : (u.sq c).staysOut) (r : ZoneRange) : ExamOnly s (u.grantSpan c r) := by
  have hzones : ExamOnly s (u.holdZones c (inRange r)) := h.mapZones _
  have hsq (d : Carriage) : (u.holdZones c (inRange r)).sq d = u.sq d := by
    rw [State.holdZones, mapZones_sq]
  have hheld := hzones.setCarState (c := c) (by rw [hsq]; exact hother) .moving
  refine hheld.dueExam.issue (issues_staysOut ?_)
  by_cases hmoving : ((u.holdZones c (inRange r)).sq c).state = .moving
  · rw [setCarState_same hmoving, dueExam_sq, hsq]
    exact hstay
  · rw [setCarState_eq (by rw [hsq]; exact hother) hmoving, dueExam_sq, dueExam_sq, modSeq_sq_self, hsq]
    exact hstay

theorem strayed_none {cur : Nat} (hzone : (s.arec c).zone = some cur)
    (hplace : ∀ p, (s.pt c).position = some p → s.posZone p = cur) : s.strayed c = none := by
  cases hpos : (s.pt c).position with
  | none => rw [State.strayed, hpos]
  | some p => exact strayed_inPlace hpos hzone (hplace p hpos)

end

/-! ### The checks of SET DOWN -/

section
variable {s : State} {b f : Byte} {c : Carriage} {p : Place}

theorem takesSetDown_eq (k : PlaceKind) : k.takesSetDown = holdsStock k := by cases k <;> rfl

theorem noSetDown_iff (q : Sequencer) : q.noSetDown = false ↔
    (q.state = .idle ∨ q.state = .held) ∧ q.work = none ∧ ∃ l, q.load = some l ∧ l.sure = true := by
  cases hload : q.load with
  | none => simp [Sequencer.noSetDown, hload]
  | some l =>
    simp only [Sequencer.noSetDown, hload, Bool.or_eq_false_iff, Bool.and_eq_false_iff,
      decide_eq_false_iff_not, not_not, ne_eq, Option.isSome_eq_false_iff, Option.isNone_iff_eq_none,
      Bool.not_eq_false', Option.some.injEq, exists_eq_left', and_assoc]

/-- The SET DOWN is the work of the carriage, with its place claimed (R87). -/
def State.setDownBegun (s : State) (c : Carriage) (p : Place) : State :=
  (s.setUser p (some c)).beginWork c (setDownWork p)

/-- The place fits a SET DOWN of the carriage (R87). -/
def State.fitsSetDown (s : State) (c : Carriage) (p : Place) : Prop :=
  (s.stackState p = some .empty ∨ s.stackState p = some .ready) ∧ s.reachable c p = true

theorem fitsSetDown_iff : s.fitsSetDown c p ↔
    ¬((s.stackState p ≠ some .empty ∧ s.stackState p ≠ some .ready) ∨ s.reachable c p = false) := by
  rw [State.fitsSetDown, not_or, not_and_or, not_not, not_not, Bool.not_eq_false]

theorem doSetDown_eq (hb : names b c) (hf : f.toNat = p.val) : s.doSetDown b f
    = if referenced (s.sq c).state = false then (s, .refuse .notReferenced 0)
      else if (s.sq c).noSetDown = true then (s, .refuse .notNow 0)
      else if holdsStock s.cell.places[p].kind = false then (s, .refuse .notDefined 0)
      else if (s.userAt p).isSome = true then (s, .refuse .inUse 0)
      else if (s.stackState p ≠ some .empty ∧ s.stackState p ≠ some .ready)
          ∨ s.reachable c p = false then (s, .refuse .notNow 0)
      else match (s.sq c).load with
        | some l => if s.accepts p l.piece then (s.startSetDown c p, .ok) else (s, .refuse .full 0)
        | none => (s, .refuse .notNow 0) := by
  have hplace : placeOf f = some p := fieldOf_val hf
  simp only [State.doSetDown, carriageOf_names hb, hplace, takesSetDown_eq, Bool.not_eq_true']
  rfl

end

section
variable {s : State} {b f : Byte} {c : Carriage} {p : Place}

/-- The checks of a waiting SET DOWN, in terms of the state it came to. -/
theorem setDown_checks (q : Request) (hb : names b c) (hf : f.toNat = p.val) :
    (s.withRequest q).doSetDown b f
    = if referenced (s.sq c).state = false then (s.withRequest q, .refuse .notReferenced 0)
      else if (s.sq c).noSetDown = true then (s.withRequest q, .refuse .notNow 0)
      else if holdsStock s.cell.places[p].kind = false then (s.withRequest q, .refuse .notDefined 0)
      else if (s.userAt p).isSome = true then (s.withRequest q, .refuse .inUse 0)
      else if (s.stackState p ≠ some .empty ∧ s.stackState p ≠ some .ready)
          ∨ s.reachable c p = false then (s.withRequest q, .refuse .notNow 0)
      else match (s.sq c).load with
        | some l =>
          if s.accepts p l.piece then ((s.withRequest q).startSetDown c p, .ok)
          else (s.withRequest q, .refuse .full 0)
        | none => (s.withRequest q, .refuse .notNow 0) := doSetDown_eq (s := s.withRequest q) hb hf

theorem setDown_refuses (hs : s.takesAtOnce = true) {why : Reason} {i : Nat}
    (hbad : (s.withRequest (.setDown b f)).doSetDown b f
      = (s.withRequest (.setDown b f), .refuse why i)) :
    refuses (.setDown b f) s 20 (reasonCode why) (byte i) :=
  refuses_of_handle (q := .setDown b f) hs rfl hbad

theorem setDown_badValue (hs : s.takesAtOnce = true) :
    (1 < b.toNat → refuses (.setDown b f) s 20 3 1)
      ∧ (b.toNat ≤ 1 → 31 < f.toNat → refuses (.setDown b f) s 20 3 2) := by
  refine ⟨fun hb => ?_, fun hb hf => ?_⟩
  · refine setDown_refuses hs (why := .badValue) (i := 1) ?_
    simp only [State.doSetDown, carriageOf_above hb]
    rfl
  · obtain ⟨c, hc⟩ := exists_names hb
    have hplace : placeOf f = none := fieldOf_above hf
    refine setDown_refuses hs (why := .badValue) (i := 2) ?_
    simp only [State.doSetDown, carriageOf_names hc, hplace]
    rfl

theorem setDownBegun_examOnly (s : State) (c : Carriage) (p : Place) :
    ExamOnly s (s.setDownBegun c p) :=
  ((ExamOnly.refl s).modStack p fun r => { r with user := some c }).modSeq c fun q =>
    { q with work := some (setDownWork p), orderDone := false, expired := false, fullRaised := false }

theorem setDownBegun_unmoved (s : State) (c : Carriage) (p : Place) :
    Unmoved s (s.setDownBegun c p) :=
  ((Unmoved.refl s).modStack p fun r => { r with user := some c }).modSeq c
    (fun q => { q with
      work := some (setDownWork p), orderDone := false, expired := false, fullRaised := false })
    fun _ => by rfl

theorem setDownBegun_sq (s : State) (c : Carriage) (p : Place) :
    (s.setDownBegun c p).sq c = { s.sq c with
      work := some (setDownWork p), orderDone := false, expired := false, fullRaised := false } :=
  modSeq_sq_self ..

theorem setDownBegun_movesTo (s : State) (c : Carriage) (p : Place) :
    (s.setDownBegun c p).movesTo c (s.placeZone p) := by
  refine .inl ⟨p, .inr ?_, rfl⟩
  rw [setDownBegun_sq]
  rfl

theorem setDownBegun_spanClaimable (s : State) (c : Carriage) (p : Place) (b : Bool) (r : ZoneRange) :
    (s.setDownBegun c p).spanClaimable c b r = s.spanClaimable c b r := by
  cases c <;> rfl

/-- An IDLE carriage whose span is claimable makes the move at once (R87, R92). -/
theorem startSetDown_grants {cur : Nat} (hidle : (s.sq c).state = .idle)
    (hhold : (s.sq c).holdPending = false) (hzone : (s.arec c).zone = some cur)
    (hplace : ∀ x, (s.pt c).position = some x → s.posZone x = cur)
    (hspan : s.spanClaimable c false (spanOf cur (s.placeZone p)) = true) :
    s.startSetDown c p = (s.setDownBegun c p).grantSpan c (spanOf cur (s.placeZone p)) := by
  have hact : s.startSetDown c p = (s.setDownBegun c p).act c := if_pos hidle
  have hkept : ((s.setDownBegun c p).sq c).holdPending = false := by rwa [setDownBegun_sq]
  rw [hact, (setDownBegun_movesTo s c p).act hkept]
  refine claimMove_grants hzone (strayed_none (s := s.setDownBegun c p) hzone hplace) ?_
  rwa [setDownBegun_spanClaimable]

end

/-- Settles O37: the checks of SET DOWN in their order, the work it begins, and the span it claims. -/
theorem setDownStarts : Obligations.SetDownStarts := by
  intro s b f hs
  refine ⟨(setDown_badValue hs).1, (setDown_badValue hs).2, fun c p hb hf => ?_⟩
  intro q lost ready fits stock begun
  have hbegun : begun = s.setDownBegun c p := rfl
  clear_value begun
  subst hbegun
  have hchecks := setDown_checks (s := s) (.setDown b f) hb hf
  have hlost : lost → referenced q.state = false := (referenced_iff _).2
  have hfound : ¬lost → ¬referenced q.state = false := mt (referenced_iff _).1
  have hready : ready → ¬q.noSetDown = true := fun h => Bool.eq_false_iff.1 ((noSetDown_iff q).2 h)
  have hnotReady : ¬ready → q.noSetDown = true := fun h =>
    Bool.of_not_eq_false (mt (noSetDown_iff q).1 h)
  have hused : s.userAt p = none → ¬(s.userAt p).isSome = true :=
    fun h e => Option.isSome_iff_ne_none.1 e h
  refine ⟨fun h => ?_, fun h hno => ?_, fun h hr hno => ?_, fun h hr hst hu => ?_,
    fun h hr hst hu hno => ?_, fun l hl hr hst hu hfits => ?_⟩
  · rw [if_pos (hlost h)] at hchecks
    exact setDown_refuses hs (i := 0) hchecks
  · rw [if_neg (hfound h), if_pos (hnotReady hno)] at hchecks
    exact setDown_refuses hs (i := 0) hchecks
  · rw [if_neg (hfound h), if_neg (hready hr), if_pos (Bool.eq_false_iff.2 hno)] at hchecks
    exact setDown_refuses hs (i := 0) hchecks
  · rw [if_neg (hfound h), if_neg (hready hr), if_neg (Bool.eq_false_iff.1 · hst),
      if_pos (Option.isSome_iff_ne_none.2 hu)] at hchecks
    exact setDown_refuses hs (i := 0) hchecks
  · rw [if_neg (hfound h), if_neg (hready hr), if_neg (Bool.eq_false_iff.1 · hst),
      if_neg (hused hu), if_pos (not_not.1 (mt fitsSetDown_iff.2 hno))] at hchecks
    exact setDown_refuses hs (i := 0) hchecks
  · have hstands : ¬lost := by
      obtain ⟨hstate, -, -⟩ := hr
      rintro (h | h | h) <;> rcases hstate with e | e <;> exact CarState.noConfusion (h.symm.trans e)
    rw [if_neg (hfound hstands), if_neg (hready hr), if_neg (Bool.eq_false_iff.1 · hst),
      if_neg (hused hu), if_neg (fitsSetDown_iff.1 hfits), hl] at hchecks
    refine ⟨fun hfull => ?_, fun htakes hheld => ?_,
      fun cur htakes hidle hhold hclaims hquiet hzone hplace hspan => ?_⟩
    · exact setDown_refuses hs (i := 0) (hchecks.trans (if_neg (Bool.eq_false_iff.1 hfull)))
    · have htaken : (s.withRequest (.setDown b f)).startSetDown c p
          = (s.setDownBegun c p).withRequest (.setDown b f) :=
        if_neg fun e => CarState.noConfusion (hheld.symm.trans e)
      rw [htaken] at hchecks
      exact accepts_of_unmoved (q := .setDown b f) hs rfl (hchecks.trans (if_pos htakes))
        (setDownBegun_unmoved s c p)
    · have hmoves : (s.withRequest (.setDown b f)).startSetDown c p
          = ((s.setDownBegun c p).grantSpan c (spanOf cur (s.placeZone p))).withRequest
            (.setDown b f) :=
        (startSetDown_grants (s := s.withRequest (.setDown b f)) hidle hhold hzone hplace hspan).trans
          (grantSpan_withRequest (s.setDownBegun c p) (.setDown b f) c (spanOf cur (s.placeZone p)))
      rw [hmoves] at hchecks
      have hother : ((s.setDownBegun c p).sq (other c)).state.unmoved = true :=
        by
        rw [(setDownBegun_unmoved s c p).car]
        exact (noChoosers_iff s).1 hquiet (other c)
      exact accepts_of_examOnly (q := .setDown b f) hs rfl (hchecks.trans (if_pos htakes))
        ((setDownBegun_examOnly s c p).grants hother
          (staysOut_movesTo (setDownBegun_movesTo s c p)) _) hclaims

end Sys2Proof.Machine
end

section
/-! HOLD and RELEASE (O35). -/

namespace Sys2Proof.Machine

/-! ### HOLD -/

section
variable {s : State} {b : Byte} {c : Carriage}

theorem doHold_eq (h : names b c) : s.doHold b
    = if referenced (s.sq c).state = false then (s, .refuse .notReferenced 0)
      else if (s.sq c).state = .faulted then (s, .refuse .notNow 0)
      else (s.holdNow c, .ok) := by
  simp only [State.doHold, carriageOf_names h, Bool.not_eq_true']

theorem hold_refuses (hs : s.takesAtOnce = true) {why : Reason} {i : Nat}
    (hbad : (s.withRequest (.hold b)).doHold b = (s.withRequest (.hold b), .refuse why i)) :
    refuses (.hold b) s 17 (reasonCode why) (byte i) :=
  refuses_of_handle (q := .hold b) hs rfl hbad

/-- A HOLD that is taken: what the owner leaves, for every state a HOLD is taken in. -/
theorem hold_taken {u : State} (h : names b c) (href : referenced (s.sq c).state = true)
    (hfit : (s.sq c).state ≠ .faulted)
    (heffect : (s.withRequest (.hold b)).holdNow c = u.withRequest (.hold b)) :
    (s.withRequest (.hold b)).handle (.hold b) = (u.withRequest (.hold b), .accept []) := by
  have hchecks := doHold_eq (s := s.withRequest (.hold b)) h
  rw [withRequest_sq, if_neg (by rw [href]; exact Bool.noConfusion), if_neg hfit, heffect] at hchecks
  exact hchecks

theorem holdNow_again (h : (s.sq c).state = .held
    ∨ ((s.sq c).state = .moving ∧ (s.sq c).holdPending = true)) : s.holdNow c = s := by
  rw [State.holdNow]
  rcases h with h | ⟨h, hpending⟩
  · rw [h]
  · rw [h]
    exact if_pos hpending

theorem holdNow_moving (h : (s.sq c).state = .moving) (hpending : (s.sq c).holdPending = false) :
    s.holdNow c = (s.modSeq c fun q => { q with holdPending := true }).withdrawNext c := by
  rw [State.holdNow, h]
  exact if_neg (by rw [hpending]; exact Bool.false_ne_true)

/-- The checks of a WITHDRAW NEXT (R137). -/
theorem withdrawNext_eq (s : State) (c : Carriage) : s.withdrawNext c
    = if (s.pt c).next = none ∨ (s.pt c).withdrawing = true ∨ (s.pt c).stopping = true then s
      else s.modPort c fun d => { d with sent := sentTo d .withdrawNext, withdrawing := true } := by
  have hsent := modPort_modPort s c (fun d => { d with sent := sentTo d .withdrawNext })
    fun d => { d with withdrawing := true }
  rw [State.withdrawNext, send_eq]
  refine if_congr ?_ rfl hsent
  rw [Bool.or_eq_true, Bool.or_eq_true, Option.isNone_iff_eq_none]
  exact ⟨fun h => h.elim (fun h => h.elim (.inr ∘ .inr) .inl) (.inr ∘ .inl),
    fun h => h.elim (.inl ∘ .inr) fun h => h.elim .inr (.inl ∘ .inl)⟩

/-- The waiting claim of a carriage is gone; where there was one, an examination is due (R94). -/
theorem withdrawClaim_eq (s : State) (c : Carriage) : s.withdrawClaim c = { s with
    arb := { s.arb with waiting := s.arb.waiting.filter fun w => w.carriage ≠ c }
    todo := { s.todo with exam := s.todo.exam || (s.claimOf c).isSome } } := by
  rw [State.withdrawClaim]
  split
  · next h => rw [h, Bool.or_true]; rfl
  · next h =>
    have hnone : ∀ w ∈ s.arb.waiting, w.carriage ≠ c := by
      rw [Bool.not_eq_true, Option.isSome_eq_false_iff, Option.isNone_iff_eq_none, State.claimOf] at h
      exact fun w hw => of_decide_eq_false (Bool.eq_false_iff.2 (List.find?_eq_none.1 h w hw))
    have hsame : (s.arb.waiting.filter fun w => w.carriage ≠ c) = s.arb.waiting :=
      List.filter_eq_self.2 fun w hw => decide_eq_true (hnone w hw)
    rw [hsame, Bool.eq_false_iff.2 h, Bool.or_false]

/-- The carriage stands held, with no waiting claim of its own (R94, R136). -/
def State.standsHeld (s : State) (c : Carriage) : State := { s with
  arb := { s.arb with waiting := s.arb.waiting.filter fun w => w.carriage ≠ c }
  seq := s.seq.set c { s.sq c with
    state := .held, holdPending := false, wait := ⟨false, (s.sq c).wait.ms⟩, expired := false } }

/-- A carriage that is to stand held enters HELD, with its waiting claim withdrawn. -/
theorem holdNow_stands (hstate : (s.sq c).state = .idle ∨ (s.sq c).state = .claiming
      ∨ (s.sq c).state = .blocked ∨ (s.sq c).state = .sawWait)
    (hother : (s.sq (other c)).state.unmoved = true)
    (hclaims : ∀ w ∈ s.arb.waiting, w.carriage = c ∧ (s.sq c).state = .claiming) :
    s.holdNow c = (s.standsHeld c).dueExam := by
  have hne : (s.sq c).state ≠ .held := by
    rcases hstate with h | h | h | h <;> rw [h] <;> exact CarState.noConfusion
  have hstands (hstill : (s.sq c).state ≠ .claiming) : s.enterHeld c = (s.standsHeld c).dueExam := by
    have hnone : s.arb.waiting = [] :=
      List.eq_nil_iff_forall_not_mem.2 fun w hw => hstill (hclaims w hw).2
    have hsame : (s.arb.waiting.filter fun w => w.carriage ≠ c) = s.arb.waiting := by
      rw [hnone]
      rfl
    rw [enterHeld_eq hother hne, State.standsHeld, hsame]
    rfl
  rw [State.holdNow]
  rcases hstate with h | h | h | h
  · rw [h]
    exact hstands (by rw [h]; exact CarState.noConfusion)
  · rw [h]
    dsimp only
    rw [withdrawClaim_eq]
    exact enterHeld_eq (s := { s with
      arb := { s.arb with waiting := s.arb.waiting.filter fun w => w.carriage ≠ c }
      todo := { s.todo with exam := s.todo.exam || (s.claimOf c).isSome } }) hother hne
  · rw [h]
    exact hstands (by rw [h]; exact CarState.noConfusion)
  · rw [h]
    exact hstands (by rw [h]; exact CarState.noConfusion)

theorem standsHeld_noClaims (hclaims : ∀ w ∈ s.arb.waiting, w.carriage = c)
    (hgates : ∀ g : Gate, s.arb.gates[g].isAwaiting = false) (hhost : s.arb.host.awaiting = none) :
    (s.standsHeld c).noClaims = true := by
  refine (noClaims_iff _).2 ⟨?_, hgates 0, hgates 1, hhost⟩
  exact List.filter_eq_nil_iff.2 fun w hw => by simpa using hclaims w hw

end

/-! ### RELEASE -/

section
variable {s : State} {b : Byte} {c : Carriage}

theorem doRelease_eq (h : names b c) : s.doRelease b
    = if referenced (s.sq c).state = false then (s, .refuse .notReferenced 0)
      else if (s.sq c).state = .held then ((s.takeUp c).dueExam, .ok)
      else if (s.sq c).state = .moving ∧ (s.sq c).holdPending = true then
        (s.modSeq c fun q => { q with holdPending := false }, .ok)
      else (s, .refuse .notNow 0) := by
  simp only [State.doRelease, carriageOf_names h, Bool.not_eq_true']

theorem release_refuses (hs : s.takesAtOnce = true) {why : Reason} {i : Nat}
    (hbad : (s.withRequest (.release b)).doRelease b = (s.withRequest (.release b), .refuse why i)) :
    refuses (.release b) s 18 (reasonCode why) (byte i) :=
  refuses_of_handle (q := .release b) hs rfl hbad

/-- The latched notices are dropped when a HELD carriage takes up its activity (R138). -/
def State.unlatched (s : State) (c : Carriage) : State :=
  s.modSeq c fun q => { q with latched := ⟨false, false, false, false⟩ }

theorem takeUp_proceeds (h : (s.sq c).cancelPending = false) :
    s.takeUp c = (s.unlatched c).proceed c :=
  if_neg (by rw [h]; exact Bool.false_ne_true)

/-- A HELD carriage with nothing to do comes to IDLE (R81, R138). -/
theorem takeUp_rests (hheld : (s.sq c).state = .held) (hwork : (s.sq c).work = none)
    (hnone : (s.sq c).suspended = []) (hcancel : (s.sq c).cancelPending = false)
    (hhold : (s.sq c).holdPending = false) (hother : (s.sq (other c)).state.unmoved = true) :
    s.takeUp c = (s.modSeq c fun q => { q with
      state := .idle, latched := ⟨false, false, false, false⟩, ask := q.ask || q.load = none }).dueExam := by
  have hsq : (s.unlatched c).sq c = { s.sq c with latched := ⟨false, false, false, false⟩ } :=
    modSeq_sq_self ..
  have hsqOther : (s.unlatched c).sq (other c) = s.sq (other c) := modSeq_sq_other ..
  rw [takeUp_proceeds hcancel, State.proceed, advance_rests (by rw [hsq]; exact hwork)
    (by rw [hsq]; exact hnone), act_rests (by rw [hsqOther]; exact hother)
      (by rw [hsq, hheld]; exact CarState.noConfusion) (by rw [hsq]; exact hhold)
      (by rw [hsq]; exact hwork), State.unlatched, modSeq_modSeq]

/-- A HELD carriage with an order in SOURCE goes to its source (R70, R92, R138). -/
theorem takeUp_grants {k : Work} {p : Place} {cur : Nat} (hwork : (s.sq c).work = some k)
    (horder : ∃ n v m t d g, k.kind = .order n v m t d g) (hphase : k.phase = .source)
    (hsource : k.source = some p) (hcancel : (s.sq c).cancelPending = false)
    (hhold : (s.sq c).holdPending = false) (hzone : (s.arec c).zone = some cur)
    (hplace : inPlace s c) (hspan : s.spanClaimable c false (spanOf cur (s.placeZone p)) = true) :
    (s.unlatched c).movesTo c (s.placeZone p)
      ∧ s.takeUp c = (s.unlatched c).grantSpan c (spanOf cur (s.placeZone p)) := by
  obtain ⟨n, v, m, t, d, g, hkind⟩ := horder
  have hsq : (s.unlatched c).sq c = { s.sq c with latched := ⟨false, false, false, false⟩ } :=
    modSeq_sq_self ..
  have hto : (s.unlatched c).movesTo c (s.placeZone p) :=
    .inl ⟨p, .inl (nextAction_source (by rw [hsq]; exact hwork) hkind hphase hsource), rfl⟩
  refine ⟨hto, ?_⟩
  rw [takeUp_proceeds hcancel, State.proceed, advance_stays (.inl hto.moves),
    hto.act (by rw [hsq]; exact hhold)]
  refine claimMove_grants hzone (strayed_none (s := s.unlatched c) hzone fun x hx =>
    hplace x cur hx hzone) ?_
  have hsame : (s.unlatched c).spanClaimable c false (spanOf cur (s.placeZone p))
      = s.spanClaimable c false (spanOf cur (s.placeZone p)) := by cases c <;> rfl
  rwa [hsame]

/-- A RELEASE of a HELD carriage. -/
theorem release_taken {u : State} (h : names b c) (hheld : (s.sq c).state = .held)
    (heffect : (s.withRequest (.release b)).takeUp c = u.withRequest (.release b)) :
    (s.withRequest (.release b)).handle (.release b)
      = (u.dueExam.withRequest (.release b), .accept []) := by
  have hchecks := doRelease_eq (s := s.withRequest (.release b)) h
  rw [withRequest_sq, if_neg (by rw [hheld]; exact Bool.noConfusion), if_pos hheld, heffect] at hchecks
  exact hchecks

end

theorem hold_badValue {s : State} {b : Byte} (hs : s.takesAtOnce = true) (hb : 1 < b.toNat) :
    refuses (.hold b) s 17 3 1 := by
  refine hold_refuses hs (why := .badValue) (i := 1) ?_
  simp only [State.doHold, carriageOf_above hb]
  rfl

theorem release_badValue {s : State} {b : Byte} (hs : s.takesAtOnce = true) (hb : 1 < b.toNat) :
    refuses (.release b) s 18 3 1 := by
  refine release_refuses hs (why := .badValue) (i := 1) ?_
  simp only [State.doRelease, carriageOf_above hb]
  rfl

/-- A carriage that is to be found referenced is in none of the states without a reference. -/
theorem referenced_of {st : CarState} (h₁ : st ≠ .unreferenced) (h₂ : st ≠ .homing)
    (h₃ : st ≠ .stopped) : referenced st = true :=
  Bool.of_not_eq_false fun e => ((referenced_iff st).1 e).elim h₁ fun h => h.elim h₂ h₃

/-- Settles O35: HOLD and RELEASE by the state of the carriage. -/
theorem holdAndRelease : Obligations.HoldAndRelease := by
  refine ⟨fun s b hs => ⟨hold_badValue hs, fun c hb => ?_⟩,
    fun s b hs => ⟨release_badValue hs, fun c hb => ?_⟩⟩
  · intro q d held
    have hmoving (h : q.state = .moving) : referenced q.state = true ∧ q.state ≠ .faulted := by
      rw [h]
      exact ⟨rfl, CarState.noConfusion⟩
    have hmovesOn (h : q.state = .moving) (hpending : q.holdPending = false) :=
      (holdNow_moving (s := s.withRequest (.hold b)) h hpending).trans
        (withdrawNext_eq ((s.withRequest (.hold b)).modSeq c fun q => { q with holdPending := true }) c)
    refine ⟨fun hlost => ?_, fun hfault => ?_, fun hagain => ?_, fun h hpending hkeeps => ?_,
      fun h hpending hnext hwithdrawing hstopping => ?_, fun hstate hother hclaims hgates hhost => ?_⟩
    · have hchecks := doHold_eq (s := s.withRequest (.hold b)) hb
      rw [withRequest_sq, if_pos ((referenced_iff _).2 hlost)] at hchecks
      exact hold_refuses hs (i := 0) hchecks
    · have hchecks := doHold_eq (s := s.withRequest (.hold b)) hb
      have href : ¬referenced (s.sq c).state = false := by
        rw [show (s.sq c).state = .faulted from hfault]
        exact Bool.noConfusion
      rw [withRequest_sq, if_neg href, if_pos hfault] at hchecks
      exact hold_refuses hs (i := 0) hchecks
    · have hfit : referenced q.state = true ∧ q.state ≠ .faulted := by
        rcases hagain with h | ⟨h, -⟩
        · rw [h]
          exact ⟨rfl, CarState.noConfusion⟩
        · exact hmoving h
      exact accepts_of_unmoved (q := .hold b) hs rfl
        (hold_taken hb hfit.1 hfit.2 (holdNow_again (s := s.withRequest (.hold b)) hagain)) (.refl s)
    · exact accepts_of_unmoved (q := .hold b) hs rfl
        (hold_taken hb (hmoving h).1 (hmoving h).2
          (u := s.modSeq c fun q => { q with holdPending := true })
          ((hmovesOn h hpending).trans (if_pos hkeeps)))
        ((Unmoved.refl s).modSeq c _ fun _ => by rfl)
    · have hsends : ¬(d.next = none ∨ d.withdrawing = true ∨ d.stopping = true) := by
        rw [hwithdrawing, hstopping]
        exact fun e => e.elim hnext fun e => e.elim Bool.false_ne_true Bool.false_ne_true
      exact accepts_of_unmoved (q := .hold b) hs rfl
        (hold_taken hb (hmoving h).1 (hmoving h).2
          (u := (s.modSeq c fun q => { q with holdPending := true }).modPort c fun d =>
            { d with sent := sentTo d .withdrawNext, withdrawing := true })
          ((hmovesOn h hpending).trans (if_neg hsends)))
        (((Unmoved.refl s).modSeq c _ fun _ => by rfl).modPort c _)
    · have hfit : referenced q.state = true ∧ q.state ≠ .faulted := by
        rcases hstate with h | h | h | h <;> rw [h] <;> exact ⟨rfl, CarState.noConfusion⟩
      have htodo := takesAtOnce_todo hs
      have hwaiting : s.link.waiting = [] := takesAtOnce_waiting hs
      have haccepts := accepts_of_noClaims (q := .hold b) (u := (s.standsHeld c).dueExam) hs rfl
        (hold_taken hb hfit.1 hfit.2 (holdNow_stands (s := s.withRequest (.hold b)) hstate hother hclaims))
        (standsHeld_noClaims (fun w hw => (hclaims w hw).1) hgates hhost)
        (congrArg Todo.blocked htodo) (congrArg Todo.wait htodo) hwaiting
      rw [← htodo] at haccepts
      exact haccepts
  · intro q
    have hchecks := doRelease_eq (s := s.withRequest (.release b)) hb
    rw [withRequest_sq] at hchecks
    refine ⟨fun hlost => ?_, fun h₁ h₂ h₃ hheld hmoving => ?_, fun h hpending => ?_,
      fun hheld hwork hnone hcancel hhold hother hclaims => ?_,
      fun k p cur hheld hwork horder hphase hsource hcancel hhold hother hclaims hzone hplace hspan => ?_⟩
    · rw [if_pos ((referenced_iff _).2 hlost)] at hchecks
      exact release_refuses hs (i := 0) hchecks
    · rw [if_neg (by rw [referenced_of h₁ h₂ h₃]; exact Bool.noConfusion), if_neg hheld,
        if_neg hmoving] at hchecks
      exact release_refuses hs (i := 0) hchecks
    · have hstate : (s.sq c).state = .moving := h
      rw [hstate, if_neg (by exact Bool.noConfusion), if_neg (by exact CarState.noConfusion),
        if_pos ⟨rfl, hpending⟩] at hchecks
      exact accepts_of_unmoved (q := .release b) hs rfl
        (u := s.modSeq c fun q => { q with holdPending := false }) hchecks
        ((Unmoved.refl s).modSeq c _ fun _ => by rfl)
    · exact accepts_of_examOnly (q := .release b) hs rfl
        (release_taken hb hheld
          (u := (s.modSeq c fun q => { q with
            state := .idle, latched := ⟨false, false, false, false⟩
            ask := q.ask || q.load = none }).dueExam)
          (takeUp_rests (s := s.withRequest (.release b)) hheld hwork hnone hcancel hhold hother))
        ((ExamOnly.refl s).modSeq c _).dueExam.dueExam hclaims
    · intro freed
      obtain ⟨hto, htakes⟩ := takeUp_grants (s := s) hwork horder hphase hsource hcancel hhold hzone
        hplace hspan
      obtain ⟨-, htaken⟩ := takeUp_grants (s := s.withRequest (.release b)) hwork horder hphase hsource
        hcancel hhold hzone hplace hspan
      have hgranted := htaken.trans
        (grantSpan_withRequest (s.unlatched c) (.release b) c (spanOf cur (s.placeZone p)))
      have hotherNow : ((s.unlatched c).sq (other c)).state.unmoved = true := by
        rw [State.unlatched, modSeq_sq_other]
        exact hother
      exact accepts_of_examOnly (q := .release b)
        (u := ((s.unlatched c).grantSpan c (spanOf cur (s.placeZone p))).dueExam) hs rfl
        (release_taken hb hheld hgranted)
        ((((ExamOnly.refl s).modSeq c fun q => { q with latched := ⟨false, false, false, false⟩
          }).grants hotherNow (staysOut_movesTo hto) _).dueExam) hclaims

end Sys2Proof.Machine
end

section
/-! The work request of an idle carriage (O33). -/

namespace Sys2Proof.Machine

/-! ### A granted move changes the carriage's own port alone -/

section
variable {s u : State} {c : Carriage}

/-- Nothing but the port of the carriage is changed. -/
def PortOnly (c : Carriage) (s u : State) : Prop := ∃ d, u = s.modPort c fun _ => d

namespace PortOnly

theorem refl (s : State) (c : Carriage) : PortOnly c s s := ⟨s.pt c, (modPort_fixed rfl).symm⟩

theorem modPort (h : PortOnly c s u) (f) : PortOnly c s (u.modPort c f) := by
  obtain ⟨d, rfl⟩ := h
  exact ⟨f d, by rw [modPort_modPort]⟩

theorem sendStep (h : PortOnly c s u) (k x) : PortOnly c s (u.sendStep c k x) := by
  unfold State.sendStep
  split
  · rw [send_eq]
    exact h.modPort _
  · exact h

theorem handStep (h : PortOnly c s u) (x) : PortOnly c s (u.handStep c x) := by
  unfold State.handStep
  split
  · exact (h.modPort _).sendStep _ _
  · exact (h.modPort _).sendStep _ _

theorem issueMove (h : PortOnly c s u) (p x) : PortOnly c s (u.issueMove c p x) := by
  unfold State.issueMove
  split
  · exact h.handStep _
  · exact (h.handStep _).handStep _

theorem pt_other (h : PortOnly c s u) : u.pt (other c) = s.pt (other c) := by
  obtain ⟨d, rfl⟩ := h
  cases c <;> rfl

end PortOnly

/-- A span granted for a PICK: the zones are the carriage's, it moves, and the steps go to its port
(R69, R92). -/
theorem grantSpan_picks {p : Place} {r : ZoneRange} (hother : (s.sq (other c)).state.unmoved = true)
    (hne : (s.sq c).state ≠ .moving) (hpick : (s.sq c).nextAction = .pick p) :
    ∃ d, s.grantSpan c r = ((((s.holdZones c (inRange r)).modSeq c fun q =>
      { q with state := .moving }).dueExam).dueExam).modPort c fun _ => d := by
  have hsq (e : Carriage) : (s.holdZones c (inRange r)).sq e = s.sq e := by
    rw [State.holdZones, mapZones_sq]
  have hnext : ((((s.holdZones c (inRange r)).modSeq c fun q =>
      { q with state := .moving }).dueExam).dueExam.sq c).nextAction = .pick p := by
    rw [dueExam_sq, dueExam_sq, modSeq_sq_self, hsq]
    exact hpick
  rw [State.grantSpan, setCarState_eq (by rw [hsq]; exact hother) (by rw [hsq]; exact hne), State.issue,
    hnext]
  exact (PortOnly.refl _ c).issueMove p _

end

/-- The carriage is under way, with the arbiter, its port and the notices left as given. -/
def State.underWay (w : State) (c : Carriage) (a : Arbiter) (d : DrivePort) (k : Todo) : State :=
  { w with
    arb := a
    seq := w.seq.set c { w.sq c with state := .moving }
    port := w.port.set c d
    todo := k }

section
variable (w : State) (c : Carriage) (a : Arbiter) (d : DrivePort) (k : Todo)

theorem underWay_sq : (w.underWay c a d k).sq c = { w.sq c with state := .moving } := get_set_self ..

theorem underWay_sq_other : (w.underWay c a d k).sq (other c) = w.sq (other c) := get_set_other ..

theorem underWay_pt_other : (w.underWay c a d k).pt (other c) = w.pt (other c) := get_set_other ..

theorem underWay_holder {z : Nat} (hz : z < 16)
    (hheld : a.zones[(⟨z, hz⟩ : Fin 16)].holder = some c) : (w.underWay c a d k).holder z = some c :=
  (holder_val (w.underWay c a d k) ⟨z, hz⟩).trans hheld

end

/-! ### A source that was resolved -/

section
variable {s : State} {c : Carriage} {p infeed : Place} {m t : Nat}

theorem leastBy_mem {key : Place → List Nat} {ps : List Place} (h : leastBy key ps = some p) : p ∈ ps := by
  have hstep : ∀ (l : List Place) (best : Option Place), (∀ b, best = some b → b ∈ ps) →
      (∀ x ∈ l, x ∈ ps) → ∀ b, l.foldl (fun best x => match best with
        | none => some x
        | some y => if keyLess (key x) (key y) then some x else best) best = some b → b ∈ ps := by
    intro l
    induction l with
    | nil => exact fun best hbest _ b hb => hbest b hb
    | cons x xs ih =>
      intro best hbest hmem
      refine ih _ (fun b hb => ?_) fun y hy => hmem y (List.mem_cons_of_mem x hy)
      cases best with
      | none =>
        cases hb
        exact hmem x List.mem_cons_self
      | some y =>
        dsimp only at hb
        split at hb
        · cases hb
          exact hmem x List.mem_cons_self
        · exact hbest b hb
  exact hstep ps none (fun _ hb => nomatch hb) (fun _ hx => hx) p h

/-- A resolved source may be claimed by a carriage that uses no place (R21, R70). -/
theorem mayClaim_resolved (h : s.resolveSource c m t infeed = some p)
    (hcount : s.matching m t p = some 0) (huse : s.useCount c = 0) : s.mayClaimSource c p = true := by
  have husable : s.usableSource c m t p = true := by
    rw [State.resolveSource] at h
    split at h
    · exact (List.mem_filter.1 (leastBy_mem h)).2
    · cases h
  have hfree : s.freeFor c p = true := by
    rw [State.usableSource, Bool.and_eq_true, Bool.and_eq_true] at husable
    obtain ⟨⟨-, hfree⟩, -⟩ := husable
    exact hfree
  have hready : (s.stackState p = some .ready || s.stackState p = some .measure) = true := by
    rw [State.matching] at hcount
    split at hcount
    · next hfit => exact (Bool.and_eq_true _ _ ▸ hfit).2
    · cases hcount
  have hrecord : s.stackRecs[p].isSome = true := by
    cases hr : s.stackRecs[p] with
    | none =>
      rw [State.stackState, hr] at hready
      cases hready
    | some r => rfl
  rw [State.mayClaimSource, hready, Bool.and_true, State.mayUse]
  rw [State.freeFor] at hfree
  split
  · next x huser =>
    rw [huser] at hfree
    exact hfree
  · rw [hrecord, huse]
    rfl

end

/-! ### The walk with nothing to offer -/

section
variable {s : State} {c : Carriage}

theorem walk_none {l : List Candidate}
    (h : ∀ k ∈ l, ∃ w r, k = .return_ w ∧ s.queue.returns[w] = some r ∧ s.returnEligible c r = false) :
    State.walk c l s = (s, none) := by
  induction l with
  | nil => rfl
  | cons k rest ih =>
    obtain ⟨w, r, rfl, hr, hno⟩ := h k List.mem_cons_self
    rw [State.walk, hr]
    dsimp only
    rw [if_neg (Bool.eq_false_iff.1 hno)]
    exact ih fun j hj => h j (List.mem_cons_of_mem _ hj)

theorem mem_inRankOrder {xs : List (Nat × Candidate)} {k : Candidate} (h : k ∈ inRankOrder xs) :
    ∃ n, (n, k) ∈ xs := by
  obtain ⟨⟨n, j⟩, hmem, rfl⟩ := List.mem_map.1 h
  exact ⟨n, (sortRanked_perm xs).mem_iff.1 hmem⟩

theorem queuedOrders_none (h : ∀ e ∈ s.queue.entries, e.state ≠ .queued) (k : WorkClass) :
    s.queuedOrders k = [] := by
  have hnone : (s.queue.entries.filterMap fun e =>
      if e.state = .queued && e.cls = k then some (e.rank, Candidate.order e.number) else none) = [] := by
    refine List.filterMap_eq_nil_iff.2 fun e he => if_neg ?_
    rw [Bool.and_eq_true, decide_eq_true_eq]
    exact fun hq => h e he hq.1
  rw [State.queuedOrders, hnone]
  rfl

/-- With no order QUEUED and no return job that may be offered, nothing is (R48, R49). -/
theorem request_none (horders : ∀ e ∈ s.queue.entries, e.state ≠ .queued)
    (hreturns : ∀ w : Saw, ∀ r n, s.queue.returns[w] = some r → r.state = .due n →
      s.returnEligible c r = false) : s.request c none = (s, none) := by
  have hdue (k : Candidate) (hk : k ∈ s.dueReturns) :
      ∃ w r, k = .return_ w ∧ s.queue.returns[w] = some r ∧ s.returnEligible c r = false := by
    obtain ⟨n, hn⟩ := mem_inRankOrder hk
    obtain ⟨w, -, hw⟩ := List.mem_filterMap.1 hn
    split at hw
    · next r hr =>
      split at hw
      · next i hstate =>
        cases hw
        exact ⟨w, r, rfl, hr, hreturns w r _ hr hstate⟩
      · cases hw
    · cases hw
  refine walk_none fun k hk => hdue k ?_
  simp only [State.candidates, exceeds, queuedOrders_none horders, if_true, List.nil_append,
    List.append_nil] at hk
  exact hk

end

/-! ### The order that is begun -/

section
variable {s : State} {c : Carriage} {e : OrderEntry} {p infeed : Place} {cur : Nat}

/-- The offered order is ACTIVE, its source is claimed and its work is the carriage's (R50, R70). -/
def State.orderBegun (s : State) (c : Carriage) (e : OrderEntry) (infeed p : Place) : State :=
  (((s.setOrderState e.number (.active c)).beginWork c (orderWork e infeed)).setUser p
    (some c)).modSeq c fun q => { q with work := some { orderWork e infeed with source := some p } }

theorem orderBegun_sq : (s.orderBegun c e infeed p).sq c = { s.sq c with
    work := some { orderWork e infeed with source := some p }
    orderDone := false, expired := false, fullRaised := false } := by
  cases c <;> rfl

theorem orderBegun_sq_other : (s.orderBegun c e infeed p).sq (other c) = s.sq (other c) := by
  cases c <;> rfl

theorem orderBegun_examOnly : ExamOnly s (s.orderBegun c e infeed p) := ⟨rfl, rfl, rfl, rfl, rfl, rfl⟩

theorem orderBegun_movesTo : (s.orderBegun c e infeed p).movesTo c (s.placeZone p) := by
  refine .inl ⟨p, .inl ?_, rfl⟩
  rw [orderBegun_sq]
  rfl

/-- The offered order resolves its source and makes the move to it (R70, R92). -/
theorem takeOffer_grants (hoffer : s.orderOf e.number = some e)
    (hinfeed : s.infeedPlace e.saw = some infeed)
    (hsource : s.resolveSource c e.material e.thickness infeed = some p)
    (hcount : s.matching e.material e.thickness p = some 0) (huse : s.useCount c = 0)
    (hhold : (s.sq c).holdPending = false) (hzone : (s.arec c).zone = some cur)
    (hplace : ∀ x, (s.pt c).position = some x → s.posZone x = cur)
    (hspan : s.spanClaimable c false (spanOf cur (s.placeZone p)) = true) :
    (s.takeOffer c (.order e.number)).proceed c
      = (s.orderBegun c e infeed p).grantSpan c (spanOf cur (s.placeZone p)) := by
  have hstarted : s.takeOffer c (.order e.number)
      = (s.setOrderState e.number (.active c)).beginWork c (orderWork e infeed) := by
    simp only [State.takeOffer, State.startOrder, hoffer, hinfeed]
  have hwork : (((s.setOrderState e.number (.active c)).beginWork c (orderWork e infeed)).sq c).work
      = some (orderWork e infeed) := by cases c <;> rfl
  have hmay := mayClaim_resolved hsource hcount huse
  have hresolved : ((s.setOrderState e.number (.active c)).beginWork c
      (orderWork e infeed)).resolveSource c e.material e.thickness infeed
      = s.resolveSource c e.material e.thickness infeed := by cases c <;> rfl
  have hclaims := resolveOrder_claims
    (s := (s.setOrderState e.number (.active c)).beginWork c (orderWork e infeed)) hwork rfl
    (hresolved.trans hsource) hmay hcount
  have hadvances := advance_resolves hwork rfl rfl rfl hclaims
  have hkept : ((s.orderBegun c e infeed p).sq c).holdPending = false := by
    rw [orderBegun_sq]
    exact hhold
  have hspanNow : (s.orderBegun c e infeed p).spanClaimable c false (spanOf cur (s.placeZone p))
      = s.spanClaimable c false (spanOf cur (s.placeZone p)) := by cases c <;> rfl
  rw [hstarted, State.proceed, hadvances]
  refine (orderBegun_movesTo.act hkept).trans (claimMove_grants hzone (strayed_none
    (s := s.orderBegun c e infeed p) hzone hplace) ?_)
  rwa [hspanNow]

end

theorem orderBegun_other {s : State} {c : Carriage} {e : OrderEntry} {infeed p : Place} :
    (s.orderBegun c e infeed p).queue.entries = s.queue.entries.map (fun x =>
      if x.number = e.number then { x with state := .active c } else x)
    ∧ (s.orderBegun c e infeed p).stackRecs
      = s.stackRecs.set p.val (s.stackRecs[p].map fun r => { r with user := some c })
    ∧ (s.orderBegun c e infeed p).pt (other c) = s.pt (other c)
    ∧ (s.orderBegun c e infeed p).cell = s.cell
    ∧ (s.orderBegun c e infeed p).counters = s.counters ∧ (s.orderBegun c e infeed p).saws = s.saws
    ∧ (s.orderBegun c e infeed p).link = s.link ∧ (s.orderBegun c e infeed p).events = s.events
    ∧ (s.orderBegun c e infeed p).lines = s.lines :=
  ⟨List.map_congr_left fun _ _ => if_congr decide_eq_true_iff rfl rfl, rfl, rfl, rfl, rfl, rfl, rfl, rfl,
    rfl⟩

/-- What a granted order leaves of the part (R50, R69, R92). -/
theorem orderBegun_granted {s : State} {c : Carriage} {e : OrderEntry} {infeed p : Place} {r : ZoneRange}
    (hother : (s.sq (other c)).state.unmoved = true) (hne : (s.sq c).state ≠ .moving) (k : Todo) :
    ∃ a d, { (s.orderBegun c e infeed p).grantSpan c r with todo := k }
        = (s.orderBegun c e infeed p).underWay c a d k
      ∧ ∀ z : Fin 16, inRange r z = true → a.zones[z].holder = some c := by
  obtain ⟨d, h⟩ := grantSpan_picks (p := p) (r := r) (s := s.orderBegun c e infeed p)
    (by rw [orderBegun_sq_other]; exact hother) (by rw [orderBegun_sq]; exact hne)
    (by rw [orderBegun_sq]; rfl)
  refine ⟨((s.orderBegun c e infeed p).holdZones c (inRange r)).arb, d, by rw [h]; rfl, fun z hz => ?_⟩
  rw [holdZones_holder]
  exact if_pos hz

/-- The carriage no longer asks. -/
theorem dropAsk_unmoved (s : State) (c : Carriage) : Unmoved s (s.dropAsk c) :=
  (Unmoved.refl s).modSeq c _ fun _ => by rfl

section
variable {s : State} {c : Carriage}

theorem mayAsk_iff : (s.sq c).mayAsk = true
    ↔ (s.sq c).state = .idle ∧ (s.sq c).load = none ∧ (s.sq c).work = none := by
  simp only [Sequencer.mayAsk, Bool.and_eq_true, decide_eq_true_eq, Option.isNone_iff_eq_none, and_assoc]

theorem workRequest_asks (h : (s.sq c).mayAsk = true) :
    exec (.workRequest c) s = .next (s.askForWork c).settle := if_pos h

/-- With nothing on offer the carriage stays IDLE (R48). -/
theorem workRequest_noOffer (hs : s.quiet = true) (h : (s.sq c).mayAsk = true)
    (horders : ∀ e ∈ s.queue.entries, e.state ≠ .queued)
    (hreturns : ∀ w : Saw, ∀ r n, s.queue.returns[w] = some r → r.state = .due n →
      s.returnEligible c r = false) : exec (.workRequest c) s = .next (s.dropAsk c) := by
  obtain ⟨hrested, -, -⟩ := (quiet_iff s).1 hs
  have hsame (r : ReturnEntry) : (s.dropAsk c).returnEligible c r = s.returnEligible c r := by
    cases c <;> rfl
  have hnone := request_none (s := s.dropAsk c) (c := c) horders fun w r n hr hdue =>
    (hsame r).trans (hreturns w r n hr hdue)
  refine (workRequest_asks h).trans ((dropAsk_unmoved s c).next_settle hrested ?_)
  rw [State.askForWork, hnone]

/-- An order on offer whose source lies on top within a claimable span is begun (R48, R50, R70). -/
theorem workRequest_grants {e : OrderEntry} {p infeed : Place} {cur : Nat} (hs : s.quiet = true)
    (h : (s.sq c).mayAsk = true) (hok : s.queue.ok = true)
    (hrequest : (s.dropAsk c).request c none = (s.dropAsk c, some (.order e.number)))
    (he : e ∈ s.queue.entries) (hinfeed : s.infeedPlace e.saw = some infeed)
    (hsource : s.resolveSource c e.material e.thickness infeed = some p)
    (hcount : s.matching e.material e.thickness p = some 0) (huse : s.useCount c = 0)
    (hhold : (s.sq c).holdPending = false) (hzone : (s.arec c).zone = some cur)
    (hplace : ∀ x, (s.pt c).position = some x → s.posZone x = cur)
    (hspan : s.spanClaimable c false (spanOf cur (s.placeZone p)) = true) :
    exec (.workRequest c) s = .next { ((s.dropAsk c).orderBegun c e infeed p).grantSpan c
      (spanOf cur (s.placeZone p)) with todo := s.todo } := by
  obtain ⟨hrested, hclaims, hquiet⟩ := (quiet_iff s).1 hs
  have hgrants : ((s.dropAsk c).takeOffer c (.order e.number)).proceed c
      = ((s.dropAsk c).orderBegun c e infeed p).grantSpan c (spanOf cur (s.placeZone p)) := by
    refine takeOffer_grants (s := s.dropAsk c) (orderOf_mem (s := s) hok he) hinfeed ?_ hcount huse ?_
      hzone hplace ?_
    · cases c <;> exact hsource
    · cases c <;> exact hhold
    · cases c <;> exact hspan
  have hother : ((s.dropAsk c).sq (other c)).state.unmoved = true := by
    rw [(dropAsk_unmoved s c).car]
    exact (noChoosers_iff s).1 hquiet (other c)
  have hexam := ((ExamOnly.of_unmoved (dropAsk_unmoved s c)).trans
    (orderBegun_examOnly (c := c) (e := e) (infeed := infeed) (p := p))).grants
    (by rw [orderBegun_sq_other]; exact hother) (staysOut_movesTo orderBegun_movesTo)
    (spanOf cur (s.placeZone p))
  have hask : s.askForWork c = ((s.dropAsk c).orderBegun c e infeed p).grantSpan c
      (spanOf cur (s.placeZone p)) := by
    rw [State.askForWork, hrequest]
    exact hgrants
  rw [workRequest_asks h, hask]
  exact hexam.next_settle hrested hclaims rfl

end

/-- Settles O33: a busy carriage takes no action, one with no offer stays IDLE, and one offered an order
goes to its source. -/
theorem workRequestOffers : Obligations.WorkRequestOffers := by
  intro s c hs asks quieted
  refine ⟨fun hbusy => if_neg (mt mayAsk_iff.1 hbusy), fun h horders hreturns =>
    workRequest_noOffer hs (mayAsk_iff.2 h) horders hreturns,
    fun e p infeed cur h hok hrequest he hinfeed hsource hcount huse hhold hzone hplace hspan => ?_⟩
  have hother : ((s.dropAsk c).sq (other c)).state.unmoved = true := by
    rw [(dropAsk_unmoved s c).car]
    exact (noChoosers_iff s).1 ((quiet_iff s).1 hs).2.2 (other c)
  have hne : ((s.dropAsk c).sq c).state ≠ .moving := by
    rw [(dropAsk_unmoved s c).car, h.1]
    exact CarState.noConfusion
  obtain ⟨a, d, hgranted, hheld⟩ := orderBegun_granted (e := e) (infeed := infeed) (p := p)
    (r := spanOf cur (s.placeZone p)) hother hne s.todo
  have hstep := workRequest_grants hs (mayAsk_iff.2 h) hok hrequest he hinfeed hsource hcount huse hhold
    hzone hplace hspan
  rw [hgranted] at hstep
  obtain ⟨hentries, hrecs, hpt, hcell, hcounters, hsaws, hlink, hevents, hlines⟩ :=
    orderBegun_other (s := s.dropAsk c) (c := c) (e := e) (infeed := infeed) (p := p)
  refine ⟨_, hstep, ?_, ?_, hentries, hrecs,
    fun z hz hfirst hlast => underWay_holder _ _ _ _ _ hz (hheld ⟨z, hz⟩ (inRange_iff.2 ⟨hfirst, hlast⟩)),
    hcell, hcounters, hsaws, hlink, hevents, hlines, ?_, (underWay_pt_other ..).trans hpt⟩
  · rw [underWay_sq]
  · rw [underWay_sq, orderBegun_sq]
    rfl
  · rw [underWay_sq_other, orderBegun_sq_other]
    exact modSeq_sq_other ..

end Sys2Proof.Machine
end

section
/-! PART STATUS, QUERY ORDER, QUERY SAW and QUERY ZONES (O39). -/

namespace Sys2Proof.Machine

/-! ### The bytes of a reply -/

theorem yes_eq (b : Bool) : yes b = [flagByte b] := rfl

theorem opt_eq (o : Option Nat) : opt o = [optByte o] := by
  cases o with
  | none => rfl
  | some n => exact le_one n

theorem halfBytes_length (h : Half) : (halfBytes h).length = 2 := rfl

/-! ### A query answered -/

section
variable {s : State} {q : Request} {fields : List Byte}

/-- A query clears entries and answers. -/
theorem query_accepts (hs : s.takesAtOnce = true)
    (hp : parseRequest (Request.kind q) (Request.body q) = .request q) (p : EventEntry → Bool)
    (hr : (s.withRequest q).handle q = ((s.clearEvents p).withRequest q, .accept fields)) :
    accepts q.command s (s.clearEvents p) (Request.kind q) fields :=
  accepts_of_unmoved hs hp hr ⟨rfl, rfl, rfl, fun _ => rfl⟩

theorem takesAtOnce_owed (h : s.takesAtOnce = true) : s.link.owedBad = 0 ∧ s.link.owedBusy = 0 := by
  simp only [State.takesAtOnce, Bool.and_eq_true, decide_eq_true_eq] at h
  exact ⟨h.1.1.2, h.1.2⟩

end

/-! ### PART STATUS -/

theorem returnStateByte_eq (s : State) (w : Saw) :
    [s.returnStateByte w] = opt (s.queue.returns[w].map fun r => returnStateCode r.state) := by
  rw [opt_eq, State.returnStateByte]
  cases s.queue.returns[w] <;> rfl

theorem partStatus_answers {s : State} (hs : s.takesAtOnce = true) :
    (s.withRequest .partStatus).partStatusFields
      = le 5 s.counters.loaded ++ le 5 s.counters.returned ++ le 5 s.counters.cut
          ++ le 5 s.counters.unloaded ++ le 5 s.counters.lost
          ++ le 1 s.cell.tolerance ++ le 1 s.cell.digLimit ++ le 1 s.cell.trigger
          ++ (List.range 5).flatMap (fun k =>
            le 1 (s.queue.entries.filter fun e => orderStateCode e.state = k).length)
          ++ (List.finRange 4).flatMap (fun w => opt (s.queue.returns[w].map fun r =>
              returnStateCode r.state))
          ++ le 1 (carStateCode (s.sq .A).state) ++ le 1 (carStateCode (s.sq .B).state)
          ++ yes s.lines.eStop ++ yes s.events.gateOpen
          ++ le 2 s.link.framingErrors ++ le 2 s.link.frameTimeouts ++ le 2 s.link.badChecks
          ++ le 2 s.link.overruns ++ [1, 0, 0] := by
  obtain ⟨hbad, hbusy⟩ := takesAtOnce_owed hs
  have hreturns : (List.finRange 4).map s.returnStateByte = (List.finRange 4).flatMap fun w =>
      opt (s.queue.returns[w].map fun r => returnStateCode r.state) := by
    rw [List.map_eq_flatMap]
    exact congrArg (List.finRange 4).flatMap (funext fun w => returnStateByte_eq s w)
  have htail : [byte (s.withRequest .partStatus).link.waiting.length,
      byte (s.withRequest .partStatus).link.owedBad, byte (s.withRequest .partStatus).link.owedBusy]
      = [1, 0, 0] := by
    have hbad' : (s.withRequest .partStatus).link.owedBad = 0 := hbad
    have hbusy' : (s.withRequest .partStatus).link.owedBusy = 0 := hbusy
    rw [hbad', hbusy']
    rfl
  rw [State.partStatusFields, htail]
  simp only [← hreturns, le_one, le_two, le_five, yes_eq, List.append_assoc, List.cons_append,
    List.nil_append]
  rfl

/-! ### QUERY ORDER -/

/-- The carriage, the starve reason and the block reason of an order state (R64). -/
theorem orderState_bytes (st : OrderState) :
    [optByte st.carriage?, optByte st.starve?, optByte st.block?] = (match st with
      | .active c => le 1 (carriageCode c) ++ [0xFF, 0xFF]
      | .suspended c => le 1 (carriageCode c) ++ [0xFF, 0xFF]
      | .starved r => [0xFF] ++ le 1 (starveCode r) ++ [0xFF]
      | .blocked r => [0xFF, 0xFF] ++ le 1 (orderBlockCode r)
      | .queued => [0xFF, 0xFF, 0xFF]) := by
  cases st <;> simp only [le_one] <;> rfl

theorem orderReply_eq (e : OrderEntry) : orderReply e
    = le 2 e.number ++ le 1 e.saw.val ++ le 2 e.material ++ le 2 e.thickness
      ++ le 1 (workClassCode e.cls) ++ le 2 e.quantity ++ le 2 e.remaining
      ++ le 2 e.placed ++ opt (e.divert.map (·.val)) ++ le 1 (orderStateCode e.state)
      ++ [optByte e.state.carriage?, optByte e.state.starve?, optByte e.state.block?]
      ++ le 4 e.rank := by
  simp only [orderReply, le_one, le_two, le_four, opt_eq, List.append_assoc, List.cons_append,
    List.nil_append]
  rfl

/-! ### QUERY SAW -/

theorem sawFields_eq (s : State) (w : Saw) : s.sawFields w
    = le 1 w.val ++ opt ((s.infeedPlace w).map (·.val)) ++ le 1 (modeCode s.saws[w].mode)
      ++ le 1 (infeedStateCode s.saws[w].state) ++ le 1 (s.bookCount w) ++ le 1 s.saws[w].threshold
      ++ le 2 s.saws[w].timeout ++ yes s.saws[w].bookTimer.running
      ++ le 2 (s.saws[w].bookTimer.ms / 1000)
      ++ le 2 s.saws[w].waitLimit ++ yes s.saws[w].lock ++ opt (infeedBlockCode s.saws[w].state)
      ++ yes s.saws[w].basicTaken ++ yes s.saws[w].releasePending ++ yes s.saws[w].fallbackPending
      ++ le 1 (sawStatusCode s.saws[w].status) ++ yes s.saws[w].silent ++ yes s.saws[w].ready
      ++ yes s.saws[w].cutDone ++ yes s.saws[w].cutGo ++ opt ((s.returnPlace w).map (·.val))
      ++ yes s.saws[w].overrun ++ le 1 s.saws[w].overrunCount ++ yes s.saws[w].permitHold
      ++ yes ((s.returnPlace w).isSome && !s.saws[w].permitHold) ++ le 1 s.saws[w].lastFed.length
      ++ s.saws[w].lastFed.flatMap fun f => le 2 f.1 ++ le 1 f.2.val := by
  simp only [State.sawFields, le_one, le_two, opt_eq, yes_eq, List.append_assoc, List.cons_append,
    List.nil_append]
  rfl

/-! ### QUERY ZONES -/

theorem rangeBytes_eq (r : Option ZoneRange) :
    rangeBytes r = opt (r.map (·.first)) ++ opt (r.map (·.last)) := by
  rw [opt_eq, opt_eq]
  cases r <;> rfl

theorem sourceByte_eq (v : Vector Bool 7) : [sourceByte v]
    = le 1 ((List.finRange 7).foldl (fun n k => n + if v[k] then 2 ^ k.val else 0) 0) := by
  have hstep : (fun (n : Nat) (k : Fin 7) => if v[k] then n + 2 ^ k.val else n)
      = fun n k => n + if v[k] then 2 ^ k.val else 0 := by
    funext n k
    split <;> rfl
  rw [le_one, sourceByte, hstep]

/-- The place of a carriage's claim in the waiting order: 1 for the first, 2 for the second (R93). -/
theorem claimPlace_eq {l : List WaitingClaim} {c : Carriage} (hlen : l.length ≤ 2) {w : WaitingClaim}
    (h : l.find? (fun w => w.carriage = c) = some w) :
    (l.findIdx fun x => x.carriage = c) + 1 = if l.head?.map (·.carriage) = some c then 1 else 2 := by
  cases l with
  | nil => cases h
  | cons x rest =>
    rw [List.findIdx_cons, List.head?_cons, Option.map_some]
    by_cases hx : x.carriage = c
    · rw [if_pos (congrArg some hx), decide_eq_true hx]
      rfl
    · have hnot : ¬some x.carriage = some c := fun e => hx (Option.some.inj e)
      rw [if_neg hnot, decide_eq_false hx]
      cases rest with
      | nil =>
        rw [List.find?_cons_of_neg (by simpa using hx)] at h
        cases h
      | cons y more =>
        have hmore : more = [] := List.eq_nil_of_length_eq_zero (by
          simp only [List.length_cons] at hlen
          omega)
        subst hmore
        have hy : y.carriage = c := by
          rw [List.find?_cons_of_neg (by simpa using hx)] at h
          have hw : w.carriage = c := by simpa using List.find?_some h
          rwa [List.mem_singleton.1 (List.mem_of_find?_eq_some h)] at hw
        rw [List.findIdx_cons, decide_eq_true hy]
        rfl

/-- A carriage in the QUERY ZONES reply (Table 10-4). -/
theorem arbiterBytes_eq {s : State} (hlen : s.arb.waiting.length ≤ 2) (c : Carriage) :
    s.arbiterBytes c = le 1 (carStateCode (s.sq c).state) ++ opt (s.arec c).zone
      ++ opt ((s.arb.waiting.find? fun w => w.carriage = c).map (·.target))
      ++ opt ((s.arb.waiting.find? fun w => w.carriage = c).map fun w => workClassCode w.cls)
      ++ opt ((s.arb.waiting.find? fun w => w.carriage = c).map fun _ =>
        if s.arb.waiting.head?.map (·.carriage) = some c then 1 else 2)
      ++ opt ((s.arec c).ordered.map fun m => moveKindCode m.kind)
      ++ opt ((s.arec c).ordered.map (·.target)) := by
  have hplace : ((s.arb.waiting.find? fun w => w.carriage = c).map fun _ =>
        (s.arb.waiting.findIdx fun x => x.carriage = c) + 1)
      = (s.arb.waiting.find? fun w => w.carriage = c).map fun _ =>
        if s.arb.waiting.head?.map (·.carriage) = some c then 1 else 2 := by
    cases hw : s.arb.waiting.find? fun w => w.carriage = c with
    | none => rfl
    | some w => exact congrArg some (claimPlace_eq hlen hw)
  rw [← hplace]
  simp only [State.arbiterBytes, le_one, opt_eq, List.cons_append, List.nil_append]
  rfl

theorem userByte_eq (h : Option Carriage) : [userByte h] = (match h with
    | none => [0]
    | some .A => [1]
    | some .B => [2]) := by
  rcases h with _ | _ | _ <;> rfl

theorem zoneBytes_eq (s : State) (z : Fin 16) : s.zoneBytes z
    = le 2 s.cell.starts[z] ++ (match s.arb.zones[z].holder with
        | none => [0]
        | some .A => [1]
        | some .B => [2])
      ++ le 1 ((List.finRange 7).foldl
        (fun n k => n + if s.arb.zones[z].sources[k] then 2 ^ k.val else 0) 0) := by
  rw [← userByte_eq, ← sourceByte_eq, le_two, State.zoneBytes, List.append_assoc]
  rfl

theorem zonesFields_eq (s : State) : s.zonesFields
    = (List.finRange 16).flatMap s.zoneBytes
      ++ (List.finRange 4).flatMap (fun k =>
        opt (s.cell.curtains[k].map (·.first)) ++ opt (s.cell.curtains[k].map (·.last)))
      ++ (List.finRange 2).flatMap (fun g =>
        opt (s.cell.gates[g].map (·.first)) ++ opt (s.cell.gates[g].map (·.last)))
      ++ (List.finRange 2).flatMap (fun g =>
        le 1 (gateStateCode s.arb.gates[g].state) ++ yes s.arb.gates[g].grant)
      ++ yes s.arb.host.awaiting.isSome
      ++ (opt (s.arb.host.awaiting.map (·.first)) ++ opt (s.arb.host.awaiting.map (·.last)))
      ++ s.arbiterBytes .A ++ s.arbiterBytes .B := by
  simp only [State.zonesFields, rangeBytes_eq, le_one, yes_eq, List.append_assoc, List.cons_append,
    List.nil_append]

section
variable {s : State}

theorem queryOrder_refuses (hs : s.takesAtOnce = true) {n : Half} {why : Reason} {i : Nat}
    (hbad : (s.withRequest (.queryOrder n)).doQueryOrder n
      = (s.withRequest (.queryOrder n), .refuse why i)) :
    refuses (.queryOrder n) s 28 (reasonCode why) (byte i) :=
  refuses_of_handle (q := .queryOrder n) hs (parseRequest_queryOrder n) hbad

/-- QUERY ORDER of a number that is not 0 (R64). -/
theorem doQueryOrder_eq {n : Half} (hn : n ≠ 0) : s.doQueryOrder n
    = match s.orderOf n.toNat with
      | none => (s, .refuse .unknownOrder 0)
      | some e => (s.clearEvents (sameEvent .noStock (.order e.number)), .accept (orderReply e)) :=
  if_neg fun h => hn (BitVec.eq_of_toNat_eq h)

theorem queryOrder_answers (hs : s.takesAtOnce = true) {n : Half} (hn : n ≠ 0) {e : OrderEntry}
    (he : s.orderOf n.toNat = some e) :
    accepts (.queryOrder n) s (s.clearEvents (sameEvent .noStock (.order e.number))) 28
      (orderReply e) := by
  refine query_accepts (q := .queryOrder n) hs (parseRequest_queryOrder n) _ ((doQueryOrder_eq hn).trans ?_)
  have hfound : (s.withRequest (.queryOrder n)).orderOf n.toNat = some e := he
  rw [hfound]
  rfl

theorem querySaw_refuses (hs : s.takesAtOnce = true) {b : Byte} (hb : 3 < b.toNat) :
    refuses (.querySaw b) s 27 3 1 := by
  have hnone : sawOf b = none := fieldOf_above hb
  refine refuses_of_handle (q := .querySaw b) (why := .badValue) (i := 1) hs rfl ?_
  have hbad : (s.withRequest (.querySaw b)).doQuerySaw b
      = (s.withRequest (.querySaw b), .badValue 1) := by
    rw [State.doQuerySaw, hnone]
  exact hbad

theorem querySaw_answers (hs : s.takesAtOnce = true) {b : Byte} {w : Saw} (hb : b.toNat = w.val) :
    accepts (.querySaw b) s (s.clearEvents (clearable (.saw w))) 27 (s.sawFields w) := by
  have hsome : sawOf b = some w := fieldOf_val hb
  refine query_accepts (q := .querySaw b) hs rfl _ ?_
  have hanswer : (s.withRequest (.querySaw b)).doQuerySaw b
      = ((s.withRequest (.querySaw b)).clearEvents (clearable (.saw w)),
        .accept ((s.withRequest (.querySaw b)).sawFields w)) := by
    rw [State.doQuerySaw, hsome]
  exact hanswer

end

/-- Settles O39: PART STATUS, QUERY ORDER, QUERY SAW and QUERY ZONES answer with their fields. -/
theorem listQueriesAnswer : Obligations.ListQueriesAnswer := by
  refine ⟨fun s hs => ?_, fun s hs hok => ⟨?_, fun n hn hnone => ?_, fun n e he hn hnumber => ?_,
    fun b hb => querySaw_refuses hs hb, fun b w hb => ?_⟩, fun s hs => ?_⟩
  · have hanswers := query_accepts (q := .partStatus) hs rfl (fun e => e.kind = .linkOverrun) rfl
    rw [partStatus_answers hs] at hanswers
    have hcleared : s.clearEvents (fun e => e.kind = .linkOverrun) = { s with
        events := { s.events with
          entries := s.events.entries.filter fun e => e.kind ≠ .linkOverrun } } := by
      simp only [State.clearEvents, ne_eq, decide_not]
    rw [hcleared] at hanswers
    exact hanswers
  · exact queryOrder_refuses hs (why := .badValue) (i := 1) (if_pos rfl)
  · have hmissing : (s.withRequest (.queryOrder n)).orderOf n.toNat = none :=
      List.find?_eq_none.2 fun e he => by simpa using hnone e he
    refine queryOrder_refuses hs (why := .unknownOrder) (i := 0) ((doQueryOrder_eq hn).trans ?_)
    rw [hmissing]
  · have hfound : s.orderOf n.toNat = some e := hnumber ▸ orderOf_mem hok he
    have hanswers := queryOrder_answers hs hn hfound
    rw [orderReply_eq, orderState_bytes] at hanswers
    exact hanswers
  · intro x
    have hanswers := querySaw_answers hs hb
    rw [sawFields_eq] at hanswers
    exact hanswers
  · intro range holder sources carriage hlen
    have hanswers := accepts_of_unmoved (q := .queryZones) hs rfl rfl (.refl s)
    have hfields : (s.withRequest .queryZones).zonesFields = s.zonesFields := rfl
    rw [hfields, zonesFields_eq, funext (zoneBytes_eq s), arbiterBytes_eq hlen, arbiterBytes_eq hlen]
      at hanswers
    exact hanswers

end Sys2Proof.Machine
end

section
/-! REPORTS OFF, REPORTS ON and the two forms of QUERY EVENTS (O41). -/

namespace Sys2Proof.Machine

/-! ### The report gate -/

theorem Unmoved.sendReports {s u : State} (h : Unmoved s u) : Unmoved s u.sendReports := by
  have hwait := sendReportsN_link (fun l => l.waiting = s.link.waiting) (fun _ _ _ k => k)
    Config.maxFrames u h.waiting
  obtain ⟨l, v, k, hsent⟩ := sendReportsN_frame Config.maxFrames u
  have hframe : u.sendReports = { u with link := l, events := v, free := k } := hsent
  rw [hsent] at hwait
  rw [hframe]
  exact ⟨h.todo, h.arb, hwait, h.car⟩

/-- The report gate is set. -/
def State.withGate (s : State) (b : Bool) : State := { s with events := { s.events with gateOpen := b } }

theorem doReportsOn_eq (s : State) : s.doReportsOn
    = if s.events.gateOpen then (s, .ok) else ((s.withGate true).sendReports, .ok) := rfl

section
variable {s : State} (hs : s.takesAtOnce = true)
include hs

theorem reportsOff_accepts : accepts .reportsOff s (s.withGate false) 23 [] :=
  accepts_of_unmoved (q := .reportsOff) hs rfl rfl ⟨rfl, rfl, rfl, fun _ => rfl⟩

theorem reportsOn_open (h : s.events.gateOpen = true) : accepts .reportsOn s s 24 [] :=
  accepts_of_unmoved (q := .reportsOn) hs rfl
    ((doReportsOn_eq (s.withRequest .reportsOn)).trans (if_pos h)) (.refl s)

theorem reportsOn_opens (h : s.events.gateOpen = false) :
    accepts .reportsOn s (s.withGate true).sendReports 24 [] := by
  have hopens : (s.withRequest .reportsOn).doReportsOn
      = (((s.withGate true).withRequest .reportsOn).sendReports, .ok) :=
    (doReportsOn_eq (s.withRequest .reportsOn)).trans
      (if_neg fun e => Bool.false_ne_true (h.symm.trans e))
  have hsent : ((s.withGate true).withRequest .reportsOn).sendReports
      = (s.withGate true).sendReports.withRequest .reportsOn :=
    sendReportsN_withRequest (s.withGate true) .reportsOn Config.maxFrames
  rw [hsent] at hopens
  have hgate : Unmoved s (s.withGate true) := ⟨rfl, rfl, rfl, fun _ => rfl⟩
  exact accepts_of_unmoved (q := .reportsOn) hs rfl hopens hgate.sendReports

end

/-! ### QUERY EVENTS in the summary form -/

section
variable {s : State}

/-- The counts of a summary (R175). -/
def State.summaryHead (s : State) : List Byte :=
  le 1 (s.events.entries.filter fun e => eventClass e.kind = .alarm).length
    ++ le 1 (s.events.entries.filter fun e => eventClass e.kind = .warning).length
    ++ le 1 (s.events.entries.filter fun e => eventClass e.kind = .notice).length
    ++ le 1 (s.events.entries.filter fun e => !e.sent).length ++ yes s.events.gateOpen
    ++ le 1 s.events.displaced

theorem summaryFields_eq (s : State) : s.summaryFields = s.summaryHead
    ++ (match firstInOrder (fun _ => true) s.events.entries with
        | some e => eventBody (Config.freeHalf s.free 10) e
        | none => [absent]) := by
  simp only [State.summaryHead, le_one, yes_eq, List.cons_append, List.nil_append]
  rfl

theorem summary_accepts (hs : s.takesAtOnce = true) :
    accepts .queryEventsSummary s s.drawn 30 s.summaryFields :=
  accepts_of_unmoved (q := .queryEventsSummary) hs rfl rfl ⟨rfl, rfl, rfl, fun _ => rfl⟩

theorem summaryFields_none (h : s.events.entries = []) : s.summaryFields = s.summaryHead ++ [0xFF] := by
  rw [summaryFields_eq, h]
  rfl

theorem summaryFields_first {e : EventEntry} {before after : List EventEntry}
    (h : s.events.entries = before ++ e :: after) (hbefore : ∀ x ∈ before, e.rank < x.rank)
    (hafter : ∀ x ∈ after, e.rank ≤ x.rank) :
    s.summaryFields = s.summaryHead ++ entryBytes (Config.freeHalf s.free 10) e := by
  have hfirst : firstInOrder (fun _ => true) s.events.entries = some e := by
    rw [h]
    exact firstInOrder_middle rfl (fun x hx _ => hbefore x hx) fun x hx _ => hafter x hx
  rw [summaryFields_eq, hfirst, ← eventBody_eq]

end

/-! ### QUERY EVENTS in the list form -/

section
variable {s : State}

/-- What a list clears of its page (R176). -/
theorem listClears_eq (s : State) (e : EventEntry) : s.listClears e
    = (decide (eventClass e.kind = .notice) || (match e.source with
        | .order n => decide (eventClass e.kind = .warning)
          && s.queue.entries.all fun o => o.number ≠ n
        | _ => false)) := by
  have hgone (n : Nat) : (s.orderOf n).isNone = s.queue.entries.all fun o => o.number ≠ n := by
    rw [Bool.eq_iff_iff, Option.isNone_iff_eq_none, State.orderOf, List.find?_eq_none, List.all_eq_true]
    simp only [decide_eq_true_eq, ne_eq]
  unfold State.listClears
  cases eventClass e.kind <;> cases e.source <;> simp [hgone]

/-- The list form's answer and what it leaves (R176). -/
theorem doEventsList_eq (s : State) (start : Quad) : s.doEventsList start
    = ({ s with
      free := s.free + 1
      events := { s.events with
        entries := s.events.entries.filter fun e =>
          !(((s.eventsAbove start.toNat).take 16).contains e && s.listClears e)
        displaced := if (s.eventsAbove start.toNat).length ≤ 16 then 0 else s.events.displaced } },
      .accept (s.listFields start.toNat)) := by
  have hall : ((s.eventsAbove start.toNat).length ≤ ((s.eventsAbove start.toNat).take 16).length)
      = ((s.eventsAbove start.toNat).length ≤ 16) := by
    rw [List.length_take, eq_iff_iff]
    omega
  simp only [State.doEventsList, hall]
  split <;> rfl

end

theorem listFields_eq (s : State) (start : Nat) : s.listFields start
    = le 1 ((s.eventsAbove start).take 16).length
      ++ (((s.eventsAbove start).take 16).mapIdx fun i e =>
          entryBytes (Config.freeHalf s.free (5 + 14 * i)) e).flatten
      ++ le 1 ((s.eventsAbove start).length - ((s.eventsAbove start).take 16).length)
      ++ le 1 s.events.displaced := by
  simp only [State.listFields, eventBody_eq, le_one, List.append_assoc, List.cons_append, List.nil_append]

/-- Settles O41: the report gate, and what QUERY EVENTS answers in its two forms. -/
theorem reportsAndEventQueries : Obligations.ReportsAndEventQueries := by
  intro s hs gate count head drawn
  refine ⟨reportsOff_accepts hs, reportsOn_open hs, reportsOn_opens hs, fun hnone => ?_,
    fun e before after filler hentries hfiller hbefore hafter => ?_, fun start => ?_⟩
  · have hanswers := summary_accepts hs
    rw [summaryFields_none hnone] at hanswers
    exact hanswers
  · have hanswers := summary_accepts hs
    rw [summaryFields_first hentries hbefore hafter, ← hfiller] at hanswers
    exact hanswers
  · intro all page goes
    have hanswers := accepts_of_unmoved (q := .queryEventsList start)
      (u := { drawn with events := { s.events with
        entries := s.events.entries.filter fun e => !goes e
        displaced := if all.length ≤ 16 then 0 else s.events.displaced } }) (fields := s.listFields start.toNat)
      hs (parseRequest_queryEventsList start) ?_ ⟨rfl, rfl, rfl, fun _ => rfl⟩
    · rw [listFields_eq] at hanswers
      exact hanswers
    · refine (doEventsList_eq (s.withRequest (.queryEventsList start)) start).trans ?_
      have hgoes (e : EventEntry) : (page.contains e && s.listClears e) = goes e := by
        rw [listClears_eq, List.contains_eq_mem] <;> rfl
      have hkept : (s.events.entries.filter fun e => !(page.contains e && s.listClears e))
          = s.events.entries.filter fun e => !goes e :=
        congrArg (fun f : EventEntry → Bool => s.events.entries.filter fun e => !f e) (funext hgoes)
      exact congrArg (fun l : List EventEntry => (({ drawn with events := { s.events with
        entries := l
        displaced := if all.length ≤ 16 then 0 else s.events.displaced } } : State).withRequest
          (.queryEventsList start), Reply.accept (s.listFields start.toNat))) hkept

end Sys2Proof.Machine
end

section
/-! QUERY CARRIAGE and QUERY PLACE: the fields at their offsets (O40). -/

namespace Sys2Proof.Machine

/-! ### Fields at an offset -/

section
variable {f : List Byte} {k n : Nat}

theorem fieldAt_byte {b : Byte} (h : f[k - 1]? = some b) : fieldAt f k 1 = b.toNat := by
  simp [fieldAt, h]

theorem fieldAt_half {x : Half} (hlow : f[k - 1]? = some (x.setWidth 8))
    (hhigh : f[k - 1 + 1]? = some ((x >>> 8).setWidth 8)) : fieldAt f k 2 = x.toNat := by
  have hbytes : (x.setWidth 8).toNat + ((x >>> 8).setWidth 8).toNat * 256 = x.toNat := by
    simp only [BitVec.toNat_setWidth, BitVec.toNat_ushiftRight, Nat.shiftRight_eq_div_pow]
    have hx := x.isLt
    omega
  simp only [fieldAt, List.range_succ, List.range_zero, List.nil_append, List.map_append, List.map_cons,
    List.map_nil, List.sum_append, List.sum_cons, List.sum_nil, hlow, hhigh, Nat.add_zero,
    Option.getD_some, pow_zero, pow_one, Nat.mul_one]
  exact hbytes

/-- The low and the high byte of a two-byte word. -/
def lowByte (x : Half) : Byte := x.setWidth 8

def highByte (x : Half) : Byte := (x >>> 8).setWidth 8

theorem halfBytes_eq (x : Half) : halfBytes x = [lowByte x, highByte x] := rfl

theorem toNat_byte (n : Nat) : (byte n).toNat = n % 256 := BitVec.toNat_ofNat ..

theorem toNat_byte_small (h : n < 256) : (byte n).toNat = n := (toNat_byte n).trans (Nat.mod_eq_of_lt h)

theorem toNat_optByte (o : Option Nat) : (optByte o).toNat = o.getD 255 % 256 := by
  cases o with
  | none => rfl
  | some n => exact toNat_byte n

theorem toNat_optPlaceByte (p : Option Place) : (optPlaceByte p).toNat = (p.map (·.val)).getD 255 := by
  cases p with
  | none => rfl
  | some p => exact toNat_byte_small (p.isLt.trans (by decide))

theorem toNat_flagByte (b : Bool) : (flagByte b).toNat = if b then 1 else 0 := by
  cases b <;> rfl

theorem place_mod (p : Place) : p.val % 65536 = p.val := Nat.mod_eq_of_lt (p.isLt.trans (by decide))

/-- A two-byte field that may be absent, as one value. -/
def State.halfAt (s : State) (offset : Nat) (o : Option Nat) : Half :=
  match o with
  | some n => BitVec.ofNat 16 n
  | none => Config.freeHalf s.free offset

theorem optHalf_eq (s : State) (offset : Nat) (o : Option Nat) :
    s.optHalf offset o = halfBytes (s.halfAt offset o) := by
  cases o <;> rfl

theorem toNat_halfAt (s : State) (offset n : Nat) :
    (s.halfAt offset (some n)).toNat = n % 65536 := BitVec.toNat_ofNat ..

end

/-! ### The QUERY CARRIAGE reply -/

section
variable (s : State) (c : Carriage)

/-- The load's surety: 0 none, 1 sure, 2 uncertain (Table 10-8). -/
def loadCode : Option Load → Nat
  | none => 0
  | some l => if l.sure then 1 else 2

/-- The kind of the current work: 0 none (Table 10-8). -/
def workCode : Option Work → Byte
  | none => 0
  | some w => (workRef w.kind).1

/-- The kind of a suspended-work record, coded from 0 (R66). -/
def suspendedCode : SuspendedRef → Nat
  | .order _ => 0
  | .returnJob _ => 1

theorem loadBytes_eq (q : Sequencer) : s.loadBytes q = [byte (loadCode q.load)]
    ++ halfBytes (s.halfAt 12 (q.load.map (·.piece.material)))
    ++ halfBytes (s.halfAt 14 (q.load.map (·.piece.thickness)))
    ++ [optByte (q.load.map (·.piece.profile.val)), optByte (q.load.map (sizeCode ·.piece.size)),
      optByte (q.load.map (·.origin.val))] := by
  cases hload : q.load with
  | none => simp only [State.loadBytes, hload, optHalf_eq] ; rfl
  | some l =>
    obtain ⟨piece, origin, sure, grip⟩ := l
    simp only [State.loadBytes, hload]
    cases sure <;> rfl

theorem workBytes_eq (q : Sequencer) : s.workBytes q = [workCode q.work]
    ++ halfBytes (s.halfAt 20 (q.work.bind fun w => (workRef w.kind).2))
    ++ [optByte (q.work.map (workClassCode ·.cls)), optByte (q.work.map (phaseCode ·.phase)),
      optByte (q.work.bind fun w => (phaseDig w.phase).1),
      optPlaceByte (q.work.bind fun w => (phaseDig w.phase).2), optPlaceByte (q.work.bind (·.source)),
      optPlaceByte (q.work.bind (·.dest))] := by
  cases hwork : q.work <;> simp only [State.workBytes, hwork, optHalf_eq] <;> rfl

theorem suspendedBytes_eq (offset : Nat) (r : Option Suspended) : s.suspendedBytes offset r
    = [optByte (r.map (suspendedCode ·.ref))]
      ++ halfBytes (s.halfAt (offset + 1) (r.map fun x => (suspendedRef x.ref).2))
      ++ [optByte (r.map (suspendedPhaseCode ·.phase)), optPlaceByte (r.bind (·.dug))] := by
  cases r with
  | none => simp only [State.suspendedBytes, optHalf_eq] ; rfl
  | some x =>
    obtain ⟨ref, phase, dug⟩ := x
    cases ref <;> rfl

/-- The QUERY CARRIAGE reply byte by byte (Table 10-8). -/
def State.carriageLayout : List Byte :=
  [byte (carriageCode c), byte (carStateCode (s.sq c).state),
    flagByte (s.sq c).holdPending + 2 * flagByte (s.sq c).resumePending,
    byte (linkStateCode (s.pt c).link), flagByte (s.pt c).position.isSome,
    lowByte (s.halfAt 6 ((s.pt c).position.map (·.x))),
    highByte (s.halfAt 6 ((s.pt c).position.map (·.x))),
    lowByte (s.halfAt 8 ((s.pt c).position.map (·.y))),
    highByte (s.halfAt 8 ((s.pt c).position.map (·.y))),
    optByte (s.arec c).zone,
    byte (loadCode (s.sq c).load),
    lowByte (s.halfAt 12 ((s.sq c).load.map (·.piece.material))),
    highByte (s.halfAt 12 ((s.sq c).load.map (·.piece.material))),
    lowByte (s.halfAt 14 ((s.sq c).load.map (·.piece.thickness))),
    highByte (s.halfAt 14 ((s.sq c).load.map (·.piece.thickness))),
    optByte ((s.sq c).load.map (·.piece.profile.val)), optByte ((s.sq c).load.map (sizeCode ·.piece.size)),
    optByte ((s.sq c).load.map (·.origin.val)),
    workCode (s.sq c).work,
    lowByte (s.halfAt 20 ((s.sq c).work.bind fun w => (workRef w.kind).2)),
    highByte (s.halfAt 20 ((s.sq c).work.bind fun w => (workRef w.kind).2)),
    optByte ((s.sq c).work.map (workClassCode ·.cls)), optByte ((s.sq c).work.map (phaseCode ·.phase)),
    optByte ((s.sq c).work.bind fun w => (phaseDig w.phase).1),
    optPlaceByte ((s.sq c).work.bind fun w => (phaseDig w.phase).2),
    optPlaceByte ((s.sq c).work.bind (·.source)), optPlaceByte ((s.sq c).work.bind (·.dest)),
    byte (s.sq c).suspended.length,
    optByte ((s.sq c).suspended[0]?.map (suspendedCode ·.ref)),
    lowByte (s.halfAt 30 ((s.sq c).suspended[0]?.map fun x => (suspendedRef x.ref).2)),
    highByte (s.halfAt 30 ((s.sq c).suspended[0]?.map fun x => (suspendedRef x.ref).2)),
    optByte ((s.sq c).suspended[0]?.map (suspendedPhaseCode ·.phase)),
    optPlaceByte ((s.sq c).suspended[0]?.bind (·.dug)),
    optByte ((s.sq c).suspended[1]?.map (suspendedCode ·.ref)),
    lowByte (s.halfAt 35 ((s.sq c).suspended[1]?.map fun x => (suspendedRef x.ref).2)),
    highByte (s.halfAt 35 ((s.sq c).suspended[1]?.map fun x => (suspendedRef x.ref).2)),
    optByte ((s.sq c).suspended[1]?.map (suspendedPhaseCode ·.phase)),
    optPlaceByte ((s.sq c).suspended[1]?.bind (·.dug)),
    flagByte (s.sq c).wait.running,
    lowByte (s.halfAt 40 (if (s.sq c).wait.running then some (s.sq c).wait.seconds else none)),
    highByte (s.halfAt 40 (if (s.sq c).wait.running then some (s.sq c).wait.seconds else none)),
    byte (slotCode (s.pt c).current), byte (slotCode (s.pt c).next)]

theorem carriageFields_eq : s.carriageFields c = s.carriageLayout c := by
  simp only [State.carriageFields, State.carriageLayout, loadBytes_eq, workBytes_eq, suspendedBytes_eq,
    optHalf_eq, halfBytes_eq, List.cons_append, List.nil_append]

end

section
variable (s : State) (c : Carriage)

theorem carriage_head : (s.carriageLayout c).length = 43
    ∧ fieldAt (s.carriageLayout c) 1 1 = carriageCode c
    ∧ fieldAt (s.carriageLayout c) 2 1 = carStateCode (s.sq c).state
    ∧ fieldAt (s.carriageLayout c) 3 1 = (if (s.sq c).holdPending then 1 else 0)
      + (if (s.sq c).resumePending then 2 else 0)
    ∧ fieldAt (s.carriageLayout c) 4 1 = linkStateCode (s.pt c).link
    ∧ fieldAt (s.carriageLayout c) 5 1 = (if (s.pt c).position.isSome then 1 else 0)
    ∧ (∀ p, (s.pt c).position = some p → fieldAt (s.carriageLayout c) 6 2 = p.x % 65536
      ∧ fieldAt (s.carriageLayout c) 8 2 = p.y % 65536)
    ∧ fieldAt (s.carriageLayout c) 10 1 = ((s.arec c).zone.getD 255) % 256 := by
  refine ⟨rfl, (fieldAt_byte rfl).trans ?_, (fieldAt_byte rfl).trans ?_, (fieldAt_byte rfl).trans ?_,
    (fieldAt_byte rfl).trans ?_, (fieldAt_byte rfl).trans (toNat_flagByte _), fun p hp => ⟨?_, ?_⟩,
    (fieldAt_byte rfl).trans (toNat_optByte _)⟩
  · cases c <;> rfl
  · cases (s.sq c).state <;> rfl
  · cases (s.sq c).holdPending <;> cases (s.sq c).resumePending <;> rfl
  · cases (s.pt c).link <;> rfl
  · refine (fieldAt_half (x := s.halfAt 6 ((s.pt c).position.map (·.x))) rfl rfl).trans ?_
    rw [hp]
    exact toNat_halfAt ..
  · refine (fieldAt_half (x := s.halfAt 8 ((s.pt c).position.map (·.y))) rfl rfl).trans ?_
    rw [hp]
    exact toNat_halfAt ..

theorem carriage_noLoad (h : (s.sq c).load = none) :
    fieldAt (s.carriageLayout c) 11 1 = 0 ∧ fieldAt (s.carriageLayout c) 18 1 = 255 := by
  refine ⟨(fieldAt_byte rfl).trans ?_, (fieldAt_byte rfl).trans ?_⟩ <;> rw [h] <;> rfl

theorem carriage_load {l : Load} (h : (s.sq c).load = some l) :
    fieldAt (s.carriageLayout c) 11 1 = (if l.sure then 1 else 2)
      ∧ fieldAt (s.carriageLayout c) 12 2 = l.piece.material % 65536
      ∧ fieldAt (s.carriageLayout c) 14 2 = l.piece.thickness % 65536
      ∧ fieldAt (s.carriageLayout c) 16 1 = l.piece.profile.val
      ∧ fieldAt (s.carriageLayout c) 17 1 = sizeCode l.piece.size
      ∧ fieldAt (s.carriageLayout c) 18 1 = l.origin.val := by
  have hmaterial : (s.halfAt 12 ((s.sq c).load.map (·.piece.material))).toNat = l.piece.material % 65536 := by
    rw [h]
    exact toNat_halfAt ..
  have hthickness : (s.halfAt 14 ((s.sq c).load.map (·.piece.thickness))).toNat
      = l.piece.thickness % 65536 := by
    rw [h]
    exact toNat_halfAt ..
  refine ⟨(fieldAt_byte rfl).trans ?_, (fieldAt_half rfl rfl).trans hmaterial,
    (fieldAt_half rfl rfl).trans hthickness, (fieldAt_byte rfl).trans ?_, (fieldAt_byte rfl).trans ?_,
    (fieldAt_byte rfl).trans ?_⟩
  · rw [h, loadCode]
    cases l.sure <;> rfl
  · rw [h]
    exact toNat_byte_small (l.piece.profile.isLt.trans (by decide))
  · rw [h]
    rcases hsize : l.piece.size with _ | _ | _ | _ <;> simp only [Option.map_some, hsize] <;> rfl
  · rw [h]
    exact toNat_byte_small (l.origin.isLt.trans (by decide))

theorem carriage_noWork (h : (s.sq c).work = none) :
    fieldAt (s.carriageLayout c) 19 1 = 0 ∧ fieldAt (s.carriageLayout c) 22 1 = 255
      ∧ fieldAt (s.carriageLayout c) 23 1 = 255 ∧ fieldAt (s.carriageLayout c) 26 1 = 255
      ∧ fieldAt (s.carriageLayout c) 27 1 = 255 := by
  refine ⟨(fieldAt_byte rfl).trans ?_, (fieldAt_byte rfl).trans ?_, (fieldAt_byte rfl).trans ?_,
    (fieldAt_byte rfl).trans ?_, (fieldAt_byte rfl).trans ?_⟩ <;> rw [h] <;> rfl

section
variable {s c} {w : Work} (h : (s.sq c).work = some w)
include h

theorem carriage_work : fieldAt (s.carriageLayout c) 22 1 = workClassCode w.cls
    ∧ fieldAt (s.carriageLayout c) 23 1 = phaseCode w.phase
    ∧ fieldAt (s.carriageLayout c) 26 1 = (w.source.map (·.val)).getD 255
    ∧ fieldAt (s.carriageLayout c) 27 1 = (w.dest.map (·.val)).getD 255 := by
  refine ⟨(fieldAt_byte rfl).trans ?_, (fieldAt_byte rfl).trans ?_, (fieldAt_byte rfl).trans ?_,
    (fieldAt_byte rfl).trans ?_⟩
  · rw [h, Option.map_some]
    cases w.cls <;> rfl
  · rw [h, Option.map_some]
    cases w.phase <;> rfl
  · rw [h]
    exact toNat_optPlaceByte _
  · rw [h]
    exact toNat_optPlaceByte _

theorem carriage_dig {n : Nat} {dug : Place} (hphase : w.phase = .dig n dug) :
    fieldAt (s.carriageLayout c) 24 1 = n % 256 ∧ fieldAt (s.carriageLayout c) 25 1 = dug.val := by
  refine ⟨(fieldAt_byte rfl).trans ?_, (fieldAt_byte rfl).trans ?_⟩
  · rw [h, Option.bind_some, hphase]
    exact toNat_byte n
  · rw [h, Option.bind_some, hphase]
    exact toNat_optPlaceByte (some dug)

theorem carriage_reference {n : Nat} (hn : (workRef w.kind).2 = some n) :
    fieldAt (s.carriageLayout c) 20 2 = n % 65536 := by
  refine (fieldAt_half (x := s.halfAt 20 ((s.sq c).work.bind fun w => (workRef w.kind).2)) rfl rfl).trans ?_
  rw [h, Option.bind_some, hn]
  exact toNat_halfAt ..

theorem carriage_kind : fieldAt (s.carriageLayout c) 19 1 = (workRef w.kind).1.toNat := by
  refine (fieldAt_byte rfl).trans ?_
  rw [h]
  rfl

theorem carriage_order {n v m t i x} (hkind : w.kind = .order n v m t i x) :
    fieldAt (s.carriageLayout c) 19 1 = 1 ∧ fieldAt (s.carriageLayout c) 20 2 = n % 65536 := by
  rw [carriage_kind h]
  exact ⟨by rw [hkind]; rfl, carriage_reference h (by rw [hkind]; rfl)⟩

theorem carriage_return {p : Place} {v : Saw} (hkind : w.kind = .returnJob p v) :
    fieldAt (s.carriageLayout c) 19 1 = 2 ∧ fieldAt (s.carriageLayout c) 20 2 = p.val := by
  rw [carriage_kind h, ← place_mod p]
  exact ⟨by rw [hkind]; rfl, carriage_reference h (by rw [hkind]; rfl)⟩

theorem carriage_setDown {t x : Option Place} (hkind : w.kind = .setDown t x) :
    fieldAt (s.carriageLayout c) 19 1 = 3
      ∧ ∀ p, t = some p → fieldAt (s.carriageLayout c) 20 2 = p.val := by
  rw [carriage_kind h]
  refine ⟨by rw [hkind]; rfl, fun p hp => ?_⟩
  rw [← place_mod p]
  exact carriage_reference h (by rw [hkind, hp]; rfl)

end

theorem carriage_tail : fieldAt (s.carriageLayout c) 28 1 = (s.sq c).suspended.length % 256
    ∧ fieldAt (s.carriageLayout c) 39 1 = (if (s.sq c).wait.running then 1 else 0)
    ∧ ((s.sq c).wait.running = true →
      fieldAt (s.carriageLayout c) 40 2 = (s.sq c).wait.ms / 1000 % 65536)
    ∧ fieldAt (s.carriageLayout c) 42 1 = slotCode (s.pt c).current
    ∧ fieldAt (s.carriageLayout c) 43 1 = slotCode (s.pt c).next := by
  have hslot (x : Option Step) : (byte (slotCode x)).toNat = slotCode x := by
    rcases x with _ | _ | _ | _ | _ <;> rfl
  refine ⟨(fieldAt_byte rfl).trans (toNat_byte _), (fieldAt_byte rfl).trans (toNat_flagByte _),
    fun hruns => (fieldAt_half (x := s.halfAt 40 (if (s.sq c).wait.running then
      some (s.sq c).wait.seconds else none)) rfl rfl).trans ?_,
    (fieldAt_byte rfl).trans (hslot _), (fieldAt_byte rfl).trans (hslot _)⟩
  rw [if_pos hruns]
  exact toNat_halfAt ..

theorem toNat_suspendedCode (r : SuspendedRef) : (optByte (some (suspendedCode r))).toNat = suspendedCode r := by
  cases r <;> rfl

theorem toNat_suspendedPhase (x : SuspendedPhase) :
    (optByte (some (suspendedPhaseCode x))).toNat = suspendedPhaseCode x := by
  cases x <;> rfl

/-- What a reply tells of a suspended-work record whose bytes begin at an offset (Table 10-8). -/
def tellsSuspended (f : List Byte) (offset : Nat) (r : Suspended) : Prop :=
  fieldAt f offset 1 = suspendedCode r.ref
    ∧ fieldAt f (offset + 1) 2 = (suspendedRef r.ref).2 % 65536
    ∧ fieldAt f (offset + 3) 1 = suspendedPhaseCode r.phase
    ∧ fieldAt f (offset + 4) 1 = (r.dug.map (·.val)).getD 255

theorem carriage_suspended_first {r : Suspended} (hr : (s.sq c).suspended[0]? = some r) :
    tellsSuspended (s.carriageLayout c) 29 r := by
  have hkind : fieldAt (s.carriageLayout c) 29 1 = _ := fieldAt_byte rfl
  have hreference : fieldAt (s.carriageLayout c) 30 2 = _ := fieldAt_half rfl rfl
  have hphase : fieldAt (s.carriageLayout c) 32 1 = _ := fieldAt_byte rfl
  have hdug : fieldAt (s.carriageLayout c) 33 1 = _ := fieldAt_byte rfl
  rw [hr] at hkind hreference hphase hdug
  exact ⟨hkind.trans (toNat_suspendedCode _), hreference.trans (toNat_halfAt ..),
    hphase.trans (toNat_suspendedPhase _), hdug.trans (toNat_optPlaceByte _)⟩

theorem carriage_suspended_second {r : Suspended} (hr : (s.sq c).suspended[1]? = some r) :
    tellsSuspended (s.carriageLayout c) 34 r := by
  have hkind : fieldAt (s.carriageLayout c) 34 1 = _ := fieldAt_byte rfl
  have hreference : fieldAt (s.carriageLayout c) 35 2 = _ := fieldAt_half rfl rfl
  have hphase : fieldAt (s.carriageLayout c) 37 1 = _ := fieldAt_byte rfl
  have hdug : fieldAt (s.carriageLayout c) 38 1 = _ := fieldAt_byte rfl
  rw [hr] at hkind hreference hphase hdug
  exact ⟨hkind.trans (toNat_suspendedCode _), hreference.trans (toNat_halfAt ..),
    hphase.trans (toNat_suspendedPhase _), hdug.trans (toNat_optPlaceByte _)⟩

theorem carriage_suspended {k : Nat} (hk : k < 2) {r : Suspended}
    (hr : (s.sq c).suspended[k]? = some r) : tellsSuspended (s.carriageLayout c) (29 + 5 * k) r := by
  have hplace : k = 0 ∨ k = 1 := by omega
  rcases hplace with rfl | rfl
  · exact carriage_suspended_first s c hr
  · exact carriage_suspended_second s c hr

end

section
variable {s : State} {b : Byte} {c : Carriage}

theorem queryCarriage_refuses (hs : s.takesAtOnce = true) (hb : 1 < b.toNat) :
    refuses (.queryCarriage b) s 25 3 1 := by
  have hbad : (s.withRequest (.queryCarriage b)).doQueryCarriage b
      = (s.withRequest (.queryCarriage b), .badValue 1) := by
    rw [State.doQueryCarriage, carriageOf_above hb]
  exact refuses_of_handle (q := .queryCarriage b) (why := .badValue) (i := 1) hs rfl hbad

theorem queryCarriage_answers (hs : s.takesAtOnce = true) (hb : names b c) :
    accepts (.queryCarriage b) s (s.clearEvents (clearable (.carriage c))).drawn 25
      (s.carriageLayout c) := by
  have hanswer : (s.withRequest (.queryCarriage b)).doQueryCarriage b
      = (((s.withRequest (.queryCarriage b)).clearEvents (clearable (.carriage c))).drawn,
        .accept ((s.withRequest (.queryCarriage b)).carriageFields c)) := by
    rw [State.doQueryCarriage, carriageOf_names hb]
  rw [← carriageFields_eq]
  exact accepts_of_unmoved (q := .queryCarriage b) hs rfl hanswer ⟨rfl, rfl, rfl, fun _ => rfl⟩

end

/-! ### The QUERY PLACE reply -/

section
variable (s : State) (p : Place)

/-- The QUERY PLACE reply byte by byte, with the seven bytes that tell of the record as given
(Table 10-9). -/
def State.placeHead (state user lock count : Byte) (top : Half) (runs : Byte) : List Byte :=
  [byte p.val, byte (placeKindCode s.cell.places[p].kind),
    lowByte (BitVec.ofNat 16 s.cell.places[p].x), highByte (BitVec.ofNat 16 s.cell.places[p].x),
    lowByte (BitVec.ofNat 16 s.cell.places[p].y), highByte (BitVec.ofNat 16 s.cell.places[p].y),
    lowByte (BitVec.ofNat 16 s.cell.places[p].base), highByte (BitVec.ofNat 16 s.cell.places[p].base),
    byte s.cell.places[p].pieceLimit,
    lowByte (BitVec.ofNat 16 s.cell.places[p].heightLimit),
    highByte (BitVec.ofNat 16 s.cell.places[p].heightLimit),
    optByte (s.cell.places[p].saw.map (·.val)), byte (s.placeZone p),
    state, user, lock, count, lowByte top, highByte top, runs]

theorem placeFields_none (hr : s.stackRecs[p] = none) : s.placeFields p
    = s.placeHead p absent absent absent absent (s.halfAt 18 none) 0 ++ [] := by
  simp only [State.placeFields, State.stackBytes, hr, optHalf_eq]
  rfl

/-- The top height of a record, FFFFh where it is unknown (Table 10-9). -/
def State.topHalf (r : StackRec) : Half :=
  BitVec.ofNat 16 (((runsHeight r.runs).map (s.cell.places[p].base + ·)).getD 65535)

theorem placeFields_some {r : StackRec} (hr : s.stackRecs[p] = some r) : s.placeFields p
    = s.placeHead p (byte (stackStateCode r.state)) (userByte r.user) (byte (lockCode r.state))
      (optByte (pieceCount r.runs)) (s.topHalf p r) (byte r.runs.length) ++ r.runs.flatMap runBytes := by
  have htop : s.topHeight p = (runsHeight r.runs).map (s.cell.places[p].base + ·) := by
    rw [State.topHeight, runsAt_eq hr]
  have hunknown : halfBytes (BitVec.ofNat 16 65535) = [0xFF, 0xFF] := by decide
  cases hheight : runsHeight r.runs with
  | none =>
    simp only [State.placeFields, State.stackBytes, hr, htop, hheight, Option.map_none, State.topHalf,
      Option.getD_none, ← hunknown]
    rfl
  | some h =>
    simp only [State.placeFields, State.stackBytes, hr, htop, hheight, Option.map_some, State.topHalf,
      Option.getD_some]
    rfl

variable (b₁ b₂ b₃ b₄ : Byte) (x : Half) (b₅ : Byte) (tail : List Byte)

theorem place_definition :
    fieldAt (s.placeHead p b₁ b₂ b₃ b₄ x b₅ ++ tail) 1 1 = p.val
    ∧ fieldAt (s.placeHead p b₁ b₂ b₃ b₄ x b₅ ++ tail) 2 1 = placeKindCode s.cell.places[p].kind
    ∧ fieldAt (s.placeHead p b₁ b₂ b₃ b₄ x b₅ ++ tail) 3 2 = s.cell.places[p].x % 65536
    ∧ fieldAt (s.placeHead p b₁ b₂ b₃ b₄ x b₅ ++ tail) 5 2 = s.cell.places[p].y % 65536
    ∧ fieldAt (s.placeHead p b₁ b₂ b₃ b₄ x b₅ ++ tail) 7 2 = s.cell.places[p].base % 65536
    ∧ fieldAt (s.placeHead p b₁ b₂ b₃ b₄ x b₅ ++ tail) 9 1 = s.cell.places[p].pieceLimit % 256
    ∧ fieldAt (s.placeHead p b₁ b₂ b₃ b₄ x b₅ ++ tail) 10 2 = s.cell.places[p].heightLimit % 65536
    ∧ fieldAt (s.placeHead p b₁ b₂ b₃ b₄ x b₅ ++ tail) 12 1
      = (s.cell.places[p].saw.map (·.val)).getD 255
    ∧ fieldAt (s.placeHead p b₁ b₂ b₃ b₄ x b₅ ++ tail) 13 1 = s.placeZone p := by
  have hsaw : (optByte (s.cell.places[p].saw.map (·.val))).toNat
      = (s.cell.places[p].saw.map (·.val)).getD 255 := by
    cases s.cell.places[p].saw with
    | none => rfl
    | some w => exact toNat_byte_small (w.isLt.trans (by decide))
  refine ⟨(fieldAt_byte rfl).trans (toNat_byte_small (p.isLt.trans (by decide))),
    (fieldAt_byte rfl).trans ?_, (fieldAt_half rfl rfl).trans (BitVec.toNat_ofNat ..),
    (fieldAt_half rfl rfl).trans (BitVec.toNat_ofNat ..),
    (fieldAt_half rfl rfl).trans (BitVec.toNat_ofNat ..), (fieldAt_byte rfl).trans (toNat_byte _),
    (fieldAt_half rfl rfl).trans (BitVec.toNat_ofNat ..), (fieldAt_byte rfl).trans hsaw,
    (fieldAt_byte rfl).trans (toNat_byte_small ((zoneOf_lt _ _).trans (by decide)))⟩
  cases s.cell.places[p].kind <;> rfl

theorem place_record :
    fieldAt (s.placeHead p b₁ b₂ b₃ b₄ x b₅ ++ tail) 14 1 = b₁.toNat
    ∧ fieldAt (s.placeHead p b₁ b₂ b₃ b₄ x b₅ ++ tail) 15 1 = b₂.toNat
    ∧ fieldAt (s.placeHead p b₁ b₂ b₃ b₄ x b₅ ++ tail) 16 1 = b₃.toNat
    ∧ fieldAt (s.placeHead p b₁ b₂ b₃ b₄ x b₅ ++ tail) 17 1 = b₄.toNat
    ∧ fieldAt (s.placeHead p b₁ b₂ b₃ b₄ x b₅ ++ tail) 18 2 = x.toNat
    ∧ fieldAt (s.placeHead p b₁ b₂ b₃ b₄ x b₅ ++ tail) 20 1 = b₅.toNat :=
  ⟨fieldAt_byte rfl, fieldAt_byte rfl, fieldAt_byte rfl, fieldAt_byte rfl, fieldAt_half rfl rfl,
    fieldAt_byte rfl⟩

theorem place_length : (s.placeHead p b₁ b₂ b₃ b₄ x b₅ ++ tail).length = 20 + tail.length :=
  List.length_append ..

theorem place_tail (i : Nat) : (s.placeHead p b₁ b₂ b₃ b₄ x b₅ ++ tail)[20 + i]? = tail[i]? := by
  have hlen : (s.placeHead p b₁ b₂ b₃ b₄ x b₅).length = 20 := rfl
  rw [List.getElem?_append_right (by omega), hlen, Nat.add_sub_cancel_left]

end

/-! ### The runs of a place -/

section
variable {runs : List Run} {run : Run} {k : Nat}

theorem runBytes_eq (run : Run) : runBytes run
    = [lowByte (BitVec.ofNat 16 run.piece.material), highByte (BitVec.ofNat 16 run.piece.material),
      lowByte (BitVec.ofNat 16 run.piece.thickness), highByte (BitVec.ofNat 16 run.piece.thickness),
      byte run.piece.profile.val, byte (sizeCode run.piece.size), optByte run.count] := rfl

theorem flatMap_runBytes_length (runs : List Run) : (runs.flatMap runBytes).length = 7 * runs.length := by
  induction runs with
  | nil => rfl
  | cons x rest ih =>
    rw [List.flatMap_cons, List.length_append, ih, List.length_cons, runBytes_eq]
    simp only [List.length_cons, List.length_nil]
    omega

/-- The bytes of a run in the bytes of a run list. -/
theorem flatMap_runBytes_at (h : runs[k]? = some run) {j : Nat} (hj : j < 7) :
    (runs.flatMap runBytes)[7 * k + j]? = (runBytes run)[j]? := by
  induction runs generalizing k with
  | nil => cases h
  | cons x rest ih =>
    have hlen : (runBytes x).length = 7 := rfl
    rw [List.flatMap_cons]
    cases k with
    | zero =>
      cases h
      rw [List.getElem?_append_left (by omega), Nat.mul_zero, Nat.zero_add]
    | succ k =>
      have hindex : 7 * (k + 1) + j - 7 = 7 * k + j := by omega
      rw [List.getElem?_append_right (by omega), hlen, hindex]
      exact ih h

/-- What a reply tells of a run whose bytes begin at an offset (Table 10-5). -/
theorem run_fields {f : List Byte} (h : runs[k]? = some run)
    (hf : ∀ i, f[20 + i]? = (runs.flatMap runBytes)[i]?) :
    fieldAt f (21 + 7 * k) 2 = run.piece.material % 65536
      ∧ fieldAt f (23 + 7 * k) 2 = run.piece.thickness % 65536
      ∧ fieldAt f (25 + 7 * k) 1 = run.piece.profile.val
      ∧ fieldAt f (26 + 7 * k) 1 = sizeCode run.piece.size
      ∧ fieldAt f (27 + 7 * k) 1 = (run.count.getD 255) % 256 := by
  have hbyte (n j : Nat) (hn : n = 20 + (7 * k + j)) (hj : j < 7) : f[n]? = (runBytes run)[j]? := by
    rw [hn, hf, flatMap_runBytes_at h hj]
  refine ⟨(fieldAt_half (hbyte _ 0 (by omega) (by decide)) (hbyte _ 1 (by omega) (by decide))).trans
      (BitVec.toNat_ofNat ..),
    (fieldAt_half (hbyte _ 2 (by omega) (by decide)) (hbyte _ 3 (by omega) (by decide))).trans
      (BitVec.toNat_ofNat ..),
    (fieldAt_byte (hbyte _ 4 (by omega) (by decide))).trans
      (toNat_byte_small (run.piece.profile.isLt.trans (by decide))),
    (fieldAt_byte (hbyte _ 5 (by omega) (by decide))).trans ?_,
    (fieldAt_byte (hbyte _ 6 (by omega) (by decide))).trans (toNat_optByte _)⟩
  rcases run.piece.size with _ | _ | _ | _ <;> rfl

end

section
variable {s : State} {b : Byte} {p : Place}

theorem queryPlace_refuses (hs : s.takesAtOnce = true) (hb : 31 < b.toNat) :
    refuses (.queryPlace b) s 26 3 1 := by
  have hnone : placeOf b = none := fieldOf_above hb
  have hbad : (s.withRequest (.queryPlace b)).doQueryPlace b
      = (s.withRequest (.queryPlace b), .badValue 1) := by
    rw [State.doQueryPlace, hnone]
  exact refuses_of_handle (q := .queryPlace b) (why := .badValue) (i := 1) hs rfl hbad

theorem queryPlace_answers (hs : s.takesAtOnce = true) (hb : b.toNat = p.val) :
    accepts (.queryPlace b) s (s.clearEvents (clearable (.place p))).drawn 26 (s.placeFields p) := by
  have hsome : placeOf b = some p := fieldOf_val hb
  have hanswer : (s.withRequest (.queryPlace b)).doQueryPlace b
      = (((s.withRequest (.queryPlace b)).clearEvents (clearable (.place p))).drawn,
        .accept ((s.withRequest (.queryPlace b)).placeFields p)) := by
    rw [State.doQueryPlace, hsome]
  exact accepts_of_unmoved (q := .queryPlace b) hs rfl hanswer ⟨rfl, rfl, rfl, fun _ => rfl⟩

end

/-- Settles O40: QUERY CARRIAGE and QUERY PLACE answer with their fields at their offsets. -/
theorem laidOutQueriesAnswer : Obligations.LaidOutQueriesAnswer := by
  refine ⟨fun s b hs => ⟨queryCarriage_refuses hs, fun c hb => ⟨s.carriageLayout c,
    queryCarriage_answers hs hb, ?_⟩⟩, fun s b hs => ⟨queryPlace_refuses hs, fun p hb =>
    ⟨s.placeFields p, queryPlace_answers hs hb, ?_⟩⟩⟩
  · intro q d at'
    obtain ⟨hlen, hcode, hstate, hflags, hlink, hhas, hposition, hzone⟩ := carriage_head s c
    obtain ⟨hsuspended, hruns, hseconds, hcurrent, hnext⟩ := carriage_tail s c
    refine ⟨hlen, hcode, hstate, hflags, hlink, hhas, hposition, hzone, carriage_noLoad s c,
      fun l hl => carriage_load s c hl, carriage_noWork s c, fun w hw => ?_, hsuspended,
      fun k hk r hr => ?_, hruns, hseconds, hcurrent, hnext⟩
    · obtain ⟨hclass, hphase, hsource, hdest⟩ := carriage_work hw
      exact ⟨hclass, hphase, hsource, hdest, fun n dug hdig => carriage_dig hw hdig,
        fun n v m t i x hkind => carriage_order hw hkind, fun p v hkind => carriage_return hw hkind,
        fun t x hkind => carriage_setDown hw hkind⟩
    · obtain ⟨hkind, hreference, hphase, hdug⟩ := carriage_suspended s c hk hr
      have hkinds (n : Nat) (hn : r.ref = .order n) : suspendedCode r.ref = 0
          ∧ (suspendedRef r.ref).2 % 65536 = n % 65536 := by rw [hn]; exact ⟨rfl, rfl⟩
      have hreturns (p : Place) (hp : r.ref = .returnJob p) : suspendedCode r.ref = 1
          ∧ (suspendedRef r.ref).2 % 65536 = p.val := by rw [hp]; exact ⟨rfl, place_mod p⟩
      have hoffset (i : Nat) : 29 + 5 * k + i = 29 + i + 5 * k := by omega
      rw [hoffset] at hreference hphase hdug
      exact ⟨fun n hn => ⟨hkind.trans (hkinds n hn).1, hreference.trans (hkinds n hn).2⟩,
        fun p hp => ⟨hkind.trans (hreturns p hp).1, hreference.trans (hreturns p hp).2⟩, hphase, hdug⟩
  · intro d at'
    cases hr : s.stackRecs[p] with
    | none =>
      have hfields := placeFields_none s p hr
      obtain ⟨hnumber, hkind, hx, hy, hbase, hlimit, hheight, hsaw, hzone⟩ :=
        place_definition s p absent absent absent absent (s.halfAt 18 none) 0 []
      obtain ⟨hstate, -⟩ := place_record s p absent absent absent absent (s.halfAt 18 none) 0 []
      rw [← hfields] at hnumber hkind hx hy hbase hlimit hheight hsaw hzone hstate
      exact ⟨hnumber, hkind, hx, hy, hbase, hlimit, hheight, hsaw, hzone,
        fun _ => ⟨by rw [hfields]; rfl, hstate⟩, fun r h => (nomatch h)⟩
    | some r =>
      have hfields := placeFields_some s p hr
      obtain ⟨hnumber, hkind, hx, hy, hbase, hlimit, hheight, hsaw, hzone⟩ :=
        place_definition s p (byte (stackStateCode r.state)) (userByte r.user) (byte (lockCode r.state))
          (optByte (pieceCount r.runs)) (s.topHalf p r) (byte r.runs.length) (r.runs.flatMap runBytes)
      obtain ⟨hstate, huser, hlock, hcount, htop, hruns⟩ :=
        place_record s p (byte (stackStateCode r.state)) (userByte r.user) (byte (lockCode r.state))
          (optByte (pieceCount r.runs)) (s.topHalf p r) (byte r.runs.length) (r.runs.flatMap runBytes)
      have htail := place_tail s p (byte (stackStateCode r.state)) (userByte r.user)
        (byte (lockCode r.state)) (optByte (pieceCount r.runs)) (s.topHalf p r) (byte r.runs.length)
        (r.runs.flatMap runBytes)
      rw [← hfields] at hnumber hkind hx hy hbase hlimit hheight hsaw hzone
      rw [← hfields] at hstate huser hlock hcount htop hruns
      refine ⟨hnumber, hkind, hx, hy, hbase, hlimit, hheight, hsaw, hzone, fun h => (nomatch h),
        fun r' h => ?_⟩
      cases h
      refine ⟨?_, hstate.trans ?_, huser.trans ?_, hlock.trans ?_, hcount.trans (toNat_optByte _),
        htop.trans (BitVec.toNat_ofNat ..), hruns.trans (toNat_byte _), fun k run hk =>
          run_fields hk fun i => ?_⟩
      · rw [hfields, place_length, flatMap_runBytes_length]
      · cases r.state <;> rfl
      · rcases r.user with _ | _ | _ <;> rfl
      · rcases r.state with _ | _ | _ | why
        · rfl
        · rfl
        · rfl
        · cases why <;> rfl
      · rw [hfields]
        exact htail i

end Sys2Proof.Machine
end

section
/-! CELL RESET (O42). -/

namespace Sys2Proof.Machine

/-! ### The carriages are reset -/

/-- A carriage has taken notices: a HELD one latches them, a BLOCKED one is to choose again. -/
def State.nudged (s : State) (d : Carriage) (l : Latched) (k : Todo) : State := { s with
  seq := s.seq.set d (if (s.sq d).state = .held then { s.sq d with latched := l } else s.sq d)
  todo := k }

theorem nudged_sq_self (s : State) (d : Carriage) (l k) : (s.nudged d l k).sq d
    = if (s.sq d).state = .held then { s.sq d with latched := l } else s.sq d := get_set_self ..

theorem nudged_state (s : State) (d : Carriage) (l k) : ((s.nudged d l k).sq d).state = (s.sq d).state := by
  rw [nudged_sq_self]
  split <;> rfl

theorem nudged_nudged (s : State) (d : Carriage) (l l' k k') :
    (s.nudged d l k).nudged d l' k' = s.nudged d l' k' := by
  have hseq : (if ((s.nudged d l k).sq d).state = .held then { (s.nudged d l k).sq d with latched := l' }
      else (s.nudged d l k).sq d)
      = if (s.sq d).state = .held then { s.sq d with latched := l' } else s.sq d := by
    rw [nudged_state, nudged_sq_self]
    split <;> rfl
  rw [State.nudged, hseq]
  simp only [State.nudged, set_set]

theorem nudged_refl (s : State) (d : Carriage) : s.nudged d (s.sq d).latched s.todo = s := by
  have hseq : (if (s.sq d).state = .held then { s.sq d with latched := (s.sq d).latched } else s.sq d)
      = s.sq d := ite_self _
  rw [State.nudged, hseq, State.sq, set_get]

/-- A carriage that is not HELD latches no notice. -/
theorem nudged_standing {s : State} {d : Carriage} (h : (s.sq d).state ≠ .held) (l k) :
    s.nudged d l k = { s with todo := k } := by
  rw [State.nudged, if_neg h, State.sq, set_get]

theorem nudgeBlocked_nudged (s : State) (d : Carriage) (f) :
    ∃ l k, s.nudgeBlocked d f = s.nudged d l k ∧ k.wait = s.todo.wait := by
  unfold State.nudgeBlocked
  split
  · next h =>
    exact ⟨(s.sq d).latched, { s.todo with blocked := s.todo.blocked.set d true },
      (nudged_standing (by rw [h]; exact CarState.noConfusion) _ _).symm, rfl⟩
  · next h =>
    refine ⟨f (s.sq d).latched, s.todo, ?_, rfl⟩
    rw [State.nudged, if_pos h]
    rfl
  · exact ⟨_, _, (nudged_refl s d).symm, rfl⟩

section
variable {s : State} {c : Carriage}

/-- The release of one place claim while no saw waits for it (R22). -/
theorem releasePlace_nudged (hpending : ∀ w : Saw, s.saws[w].releasePending = false) (p : Place) :
    ∃ l k, s.releasePlace c p = ({ s with
        stackRecs := s.stackRecs.set p.val (s.stackRecs[p].map (clearUser c)) } : State).nudged
          (other c) l k ∧ k.wait = s.todo.wait := by
  by_cases huser : s.userAt p = some c
  · obtain ⟨r, hr, hc⟩ := (userAt_iff s p c).1 huser
    obtain ⟨v, hclear, hsaws⟩ := userCleared_frame (s.setUser p none) p
    have hsame : v = s.saws := hsaws hpending
    have hstays : (s.setUser p none).userCleared p = s.setUser p none := by
      rw [hclear, hsame]
      rfl
    have hcleared : clearUser c r = { r with user := none } := if_pos hc
    obtain ⟨l, k, hnudged, hwait⟩ := nudgeBlocked_nudged (s.setUser p none) (other c)
      fun x => { x with release := true }
    refine ⟨l, k, ?_, hwait⟩
    rw [State.releasePlace, if_pos huser, hstays, hnudged, setUser_eq hr, hr, Option.map_some, hcleared]
  · have hsame : s.stackRecs[p].map (clearUser c) = s.stackRecs[p] := by
      cases hr : s.stackRecs[p] with
      | none => rfl
      | some r =>
        rw [Option.map_some, clearUser, if_neg fun e => huser ((userAt_iff s p c).2 ⟨r, hr, e⟩)]
    have hset : s.stackRecs.set p.val s.stackRecs[p] = s.stackRecs := Vector.set_getElem_self _
    refine ⟨(s.sq (other c)).latched, s.todo, ?_, rfl⟩
    rw [State.releasePlace, if_neg huser, hsame, hset]
    exact (nudged_refl s (other c)).symm

theorem releaseList_nudged (l : List Place) (hpending : ∀ w : Saw, s.saws[w].releasePending = false) :
    ∃ r n k, l.foldl (fun t p => t.releasePlace c p) s
        = ({ s with stackRecs := r } : State).nudged (other c) n k
      ∧ (∀ q : Place, r[q] = if q ∈ l then s.stackRecs[q].map (clearUser c) else s.stackRecs[q])
      ∧ k.wait = s.todo.wait := by
  induction l generalizing s with
  | nil => exact ⟨s.stackRecs, _, _, (nudged_refl s (other c)).symm,
      fun q => (if_neg List.not_mem_nil).symm, rfl⟩
  | cons p rest ih =>
    obtain ⟨n, k, hfirst, hwait⟩ := releasePlace_nudged (c := c) hpending p
    obtain ⟨r, n', k', hrest, hrecs, hwait'⟩ := ih (s := s.releasePlace c p) (by
      rw [hfirst]
      exact hpending)
    refine ⟨r, n', k', ?_, fun q => ?_, hwait'.trans (by rw [hfirst]; exact hwait)⟩
    · rw [List.foldl_cons, hrest, hfirst]
      exact nudged_nudged ({ s with stackRecs := r }) (other c) n n' k k'
    · have htwice : ∀ x : StackRec, clearUser c (clearUser c x) = clearUser c x := fun x =>
        if_neg (clearUser_user c x)
      have hset : (s.releasePlace c p).stackRecs
          = s.stackRecs.set p.val (s.stackRecs[p].map (clearUser c)) := by
        rw [hfirst]
        rfl
      rw [hrecs, hset]
      simp only [Fin.getElem_fin, Vector.getElem_set, List.mem_cons, Fin.ext_iff]
      by_cases hp : p.val = q.val
      · simp only [hp, true_or, if_true, Option.map_map, Function.comp_def, htwice, ite_self]
      · have hp' : ¬q.val = p.val := fun e => hp e.symm
        simp only [hp, hp', false_or, if_false]

/-- Every place claim of the carriage is released while no saw waits for one (R22). -/
theorem releasePlaces_nudged (hpending : ∀ w : Saw, s.saws[w].releasePending = false) :
    ∃ n k, s.releasePlaces c = ({ s with
        stackRecs := s.stackRecs.map fun r => r.map (clearUser c) } : State).nudged (other c) n k
      ∧ k.wait = s.todo.wait := by
  obtain ⟨r, n, k, heq, hrecs, hwait⟩ := releaseList_nudged (c := c) allPlaces hpending
  have hall : r = s.stackRecs.map fun r => r.map (clearUser c) := by
    refine Vector.ext fun i hi => ?_
    have hi' := hrecs ⟨i, hi⟩
    rw [if_pos (mem_allPlaces ⟨i, hi⟩)] at hi'
    rw [Vector.getElem_map]
    exact hi'
  exact ⟨n, k, hall ▸ heq, hwait⟩

theorem setCarState_nudged (s : State) (c : Carriage) (st : CarState) :
    ∃ n k, s.setCarState c st = (s.modSeq c fun q => { q with state := st }).nudged (other c) n k
      ∧ k.wait = s.todo.wait := by
  by_cases hsame : (s.sq c).state = st
  · have hfixed : s.modSeq c (fun q => { q with state := st }) = s := modSeq_fixed (by rw [← hsame])
    refine ⟨(s.sq (other c)).latched, s.todo, ?_, rfl⟩
    rw [hfixed, State.setCarState, if_pos hsame]
    exact (nudged_refl s (other c)).symm
  · obtain ⟨n, k, hnudged, hwait⟩ := nudgeBlocked_nudged
      ((s.modSeq c fun q => { q with state := st }).dueExam) (other c) fun l => { l with release := true }
    exact ⟨n, k, (if_neg hsame).trans hnudged, hwait⟩

theorem nudged_modSeq (s : State) (c : Carriage) (n k) (f : Sequencer → Sequencer) :
    (s.nudged (other c) n k).modSeq c f = (s.modSeq c f).nudged (other c) n k := by
  cases c <;> rfl

/-- A CELL RESET takes this carriage as a standing one (R141). -/
def CarState.resets (st : CarState) : Prop :=
  st = .idle ∨ st = .claiming ∨ st = .sawWait ∨ st = .blocked ∨ st = .held

/-- A standing carriage after a CELL RESET: IDLE with its load, its places released (R22, R141). -/
def State.carriageReset (s : State) (c : Carriage) : State := { s with
  stackRecs := s.stackRecs.map fun r => r.map (clearUser c)
  seq := s.seq.set c { (s.sq c).cleared with state := .idle } }

/-- A standing carriage is reset; the other takes notices (R22, R141). -/
theorem resetCarriage_nudged (hstate : (s.sq c).state.resets) (hport : (s.pt c).stopping = false)
    (hpending : ∀ w : Saw, s.saws[w].releasePending = false) :
    ∃ n k, s.resetCarriage c = (s.carriageReset c).nudged (other c) n k ∧ k.wait = s.todo.wait := by
  obtain ⟨n, k, hset, hwait⟩ := setCarState_nudged s c .idle
  have hidle : (s.setCarState c .idle).modSeq c Sequencer.cleared
      = (s.modSeq c fun q => { q.cleared with state := .idle }).nudged (other c) n k := by
    rw [hset, nudged_modSeq, modSeq_modSeq]
    rfl
  have hreset : s.resetCarriage c = ((s.setCarState c .idle).modSeq c Sequencer.cleared).releasePlaces c := by
    have hlet : ∀ u : State, (u.pt c).stopping = false →
        u.releaseUnlessStopping c = u.releasePlaces c := fun u hu =>
      if_neg (by rw [hu]; exact Bool.false_ne_true)
    have hstays : (((s.setCarState c .idle).modSeq c Sequencer.cleared).pt c).stopping = false := by
      rw [hidle]
      exact hport
    rw [← hlet _ hstays, State.resetCarriage]
    rcases hstate with h | h | h | h | h <;> rw [h]
  obtain ⟨n', k', hreleased, hwait'⟩ := releasePlaces_nudged
    (s := (s.setCarState c .idle).modSeq c Sequencer.cleared) (c := c) (by rw [hidle]; exact hpending)
  refine ⟨n', k', ?_, hwait'.trans (by rw [hidle]; exact hwait)⟩
  rw [hreset, hreleased, hidle]
  exact nudged_nudged (s.carriageReset c) (other c) n n' k k'

/-- The reset drops the latched notices (R68). -/
theorem carriageReset_nudged (s : State) (d : Carriage) (n k) :
    (s.nudged d n k).carriageReset d = { s.carriageReset d with todo := k } := by
  have hcleared : ({ ((s.nudged d n k).sq d).cleared with state := .idle } : Sequencer)
      = { (s.sq d).cleared with state := .idle } := by
    rw [nudged_sq_self]
    split <;> rfl
  rw [State.carriageReset, hcleared]
  simp only [State.nudged, set_set, State.carriageReset]

theorem carriageReset_twice (s : State) : (s.carriageReset .A).carriageReset .B = { s with
    stackRecs := s.stackRecs.map fun r => r.map fun x => { x with user := none }
    seq := ⟨{ (s.sq .A).cleared with state := .idle }, { (s.sq .B).cleared with state := .idle }⟩ } := by
  have husers : ((s.stackRecs.map fun r => r.map (clearUser .A)).map fun r => r.map (clearUser .B))
      = s.stackRecs.map fun r => r.map fun x => { x with user := none } := by
    rw [Vector.map_map]
    refine congrArg (fun f => s.stackRecs.map f) (funext fun r => ?_)
    cases r with
    | none => rfl
    | some x =>
      obtain ⟨state, user, runs⟩ := x
      rcases user with _ | _ | _ <;> rfl
  exact congrArg (fun v => { s with
    stackRecs := v
    seq := ⟨{ (s.sq .A).cleared with state := .idle }, { (s.sq .B).cleared with state := .idle }⟩ }) husers

/-- Both standing carriages are reset (R22, R141). -/
theorem resetCarriages_eq (hstate : ∀ c, (s.sq c).state.resets) (hport : ∀ c, (s.pt c).stopping = false)
    (hpending : ∀ w : Saw, s.saws[w].releasePending = false) :
    ∃ k, (s.resetCarriage .A).resetCarriage .B = { s with
        stackRecs := s.stackRecs.map fun r => r.map fun x => { x with user := none }
        seq := ⟨{ (s.sq .A).cleared with state := .idle }, { (s.sq .B).cleared with state := .idle }⟩
        todo := k }
      ∧ k.wait = s.todo.wait := by
  obtain ⟨n, k, hfirst, hwait⟩ := resetCarriage_nudged (c := .A) (hstate .A) (hport .A) hpending
  have hstateB : ((s.resetCarriage .A).sq .B).state.resets := by
    rw [hfirst]
    exact (nudged_state (s.carriageReset .A) .B n k).symm ▸ hstate .B
  obtain ⟨n', k', hsecond, hwait'⟩ := resetCarriage_nudged (s := s.resetCarriage .A) (c := .B) hstateB
    (by rw [hfirst]; exact hport .B) (by rw [hfirst]; exact hpending)
  have hwait'' : k'.wait = s.todo.wait := hwait'.trans (by rw [hfirst]; exact hwait)
  refine ⟨k', ?_, hwait''⟩
  have hheld : (((s.resetCarriage .A).carriageReset .B).sq .A).state ≠ .held := by
    rw [hfirst]
    exact CarState.noConfusion
  have hbases := carriageReset_nudged (s.carriageReset .A) .B n k
  rw [hsecond]
  refine (nudged_standing hheld n' k').trans ?_
  have hother : (s.resetCarriage .A).carriageReset .B
      = { (s.carriageReset .A).carriageReset .B with todo := k } := by
    rw [hfirst]
    exact hbases
  rw [hother, carriageReset_twice]

end

end Sys2Proof.Machine
end

section
/-! CELL RESET on the Order Queue: the return entries judged by their places (O42). -/

namespace Sys2Proof.Machine

/-! ### What the judging leaves -/

/-- A return entry without its state. -/
def ReturnEntry.stateless (r : ReturnEntry) : ReturnEntry := { r with state := .notDue }

/-- The queue holds no order, and its return entries differ in their states alone. -/
structure OrderQueue.Rejudged (q v : OrderQueue) : Prop where
  entries : q.entries = [] → v.entries = []
  returns : ∀ w : Saw, v.returns[w].map ReturnEntry.stateless = q.returns[w].map ReturnEntry.stateless

namespace OrderQueue.Rejudged
variable {q v x : OrderQueue}

theorem refl (q : OrderQueue) : q.Rejudged q := ⟨id, fun _ => rfl⟩

theorem trans (h : q.Rejudged v) (k : v.Rejudged x) : q.Rejudged x :=
  ⟨k.entries ∘ h.entries, fun w => (k.returns w).trans (h.returns w)⟩

theorem takeRank (h : q.Rejudged v) : q.Rejudged v.takeRank.2 := by
  have hkept (f : Nat → Nat) (r : ReturnEntry) : (r.mapRank f).stateless = r.stateless := by
    obtain ⟨place, count, ready, withdrawn, state⟩ := r
    cases state <;> rfl
  unfold OrderQueue.takeRank
  dsimp only
  split
  · exact ⟨h.entries, h.returns⟩
  · refine ⟨fun he => ?_, fun w => ?_⟩
    · exact List.map_eq_nil_iff.2 (h.entries he)
    · rw [← h.returns w]
      simp only [OrderQueue.renumber, Fin.getElem_fin, Vector.getElem_map, Option.map_map]
      exact congrArg (fun f => v.returns[w].map f) (funext fun r => hkept _ r)

end OrderQueue.Rejudged

/-- A change of the state of one entry. -/
theorem rejudged_modReturn {s : State} {q : OrderQueue} (h : q.Rejudged s.queue) (w : Saw)
    {f : ReturnEntry → ReturnEntry} (hf : ∀ r, (f r).stateless = r.stateless) :
    q.Rejudged (s.modReturn w f).queue := by
  refine ⟨h.entries, fun x => ?_⟩
  rw [← h.returns x]
  simp only [State.modReturn, Fin.getElem_fin, Vector.getElem_set]
  split
  · next hw =>
    have hx : x = w := Fin.ext hw.symm
    subst hx
    rw [Option.map_map]
    exact congrArg (fun f => s.queue.returns[x].map f) (funext hf)
  · rfl

/-- The sequencer, or the sequencer with a work notice taken. -/
def noticedOr (q x : Sequencer) : Prop := x = q ∨ x = noticed q

theorem noticed_noticed (q : Sequencer) : noticed (noticed q) = noticed q := by
  unfold noticed
  by_cases hidle : q.state = .idle ∧ q.load = none ∧ q.work = none
  · rw [if_pos hidle]
    exact if_pos hidle
  · rw [if_neg hidle]
    by_cases hheld : q.state = .held
    · rw [if_pos hheld]
      have hno : ¬(q.state = .idle ∧ q.load = none ∧ q.work = none) := hidle
      exact (if_neg hno).trans (if_pos hheld)
    · rw [if_neg hheld, if_neg hidle, if_neg hheld]

/-- The judging changes return entries in their states, and gives work notices (R46, R47). -/
structure Judged (s u : State) : Prop where
  frame : ∃ q x, u = { s with queue := q, seq := x }
  queue : s.queue.Rejudged u.queue
  seq : ∀ c, noticedOr (s.sq c) (u.sq c)

namespace Judged
variable {s u v : State}

theorem refl (s : State) : Judged s s := ⟨⟨s.queue, s.seq, rfl⟩, .refl _, fun _ => .inl rfl⟩

theorem trans (h : Judged s u) (k : Judged u v) : Judged s v := by
  obtain ⟨q, x, hu⟩ := h.frame
  obtain ⟨q', x', hv⟩ := k.frame
  refine ⟨⟨q', x', by rw [hv, hu]⟩, h.queue.trans k.queue, fun c => ?_⟩
  rcases k.seq c with hk | hk <;> rcases h.seq c with hh | hh
  · exact .inl (hk.trans hh)
  · exact .inr (hk.trans hh)
  · exact .inr (by rw [hk, hh])
  · exact .inr (by rw [hk, hh, noticed_noticed])

theorem workNotice (h : Judged s u) : Judged s u.workNotice := by
  refine h.trans ?_
  rw [workNotice_eq]
  exact ⟨⟨u.queue, _, rfl⟩, .refl _, fun c => .inr (by cases c <;> rfl)⟩

theorem modReturn (h : Judged s u) (w : Saw) {f : ReturnEntry → ReturnEntry}
    (hf : ∀ r, (f r).stateless = r.stateless) : Judged s (u.modReturn w f) :=
  h.trans ⟨⟨_, u.seq, rfl⟩, rejudged_modReturn (.refl _) w hf, fun _ => .inl rfl⟩

theorem judge (s : State) (w : Saw) : Judged s (s.judge w) := by
  unfold State.judge
  split
  · exact .refl s
  · split
    · split
      · have htaken : Judged s { s with queue := s.queue.takeRank.2 } :=
          ⟨⟨_, s.seq, rfl⟩, (OrderQueue.Rejudged.refl s.queue).takeRank, fun _ => .inl rfl⟩
        exact (htaken.modReturn w (f := fun x => { x with state := .due s.queue.takeRank.1 })
          fun _ => rfl).workNotice
      · exact .refl s
    · split
      · exact .refl s
      · exact (Judged.refl s).modReturn w fun _ => rfl
    · exact .refl s

end Judged

/-- A place's return entry is judged, where the place is a return place (R63). -/
def State.judgeAt (s : State) (p : Place) : State :=
  match s.kindAt p, s.cell.places[p].saw with
  | .return_, some w => s.judge w
  | _, _ => s

theorem judgeByPlace_eq (s : State) : s.judgeByPlace = allPlaces.foldl State.judgeAt s := rfl

theorem judgeAt_return {s : State} {p : Place} {w : Saw} (hkind : s.cell.places[p].kind = .return_)
    (hsaw : s.cell.places[p].saw = some w) : s.judgeAt p = s.judge w := by
  rw [State.judgeAt, State.kindAt, hkind, hsaw]

theorem judgeAt_other {s : State} {p : Place}
    (h : ∀ w, ¬(s.cell.places[p].kind = .return_ ∧ s.cell.places[p].saw = some w)) : s.judgeAt p = s := by
  unfold State.judgeAt
  split
  · next hkind hsaw => exact absurd ⟨hkind, hsaw⟩ (h _)
  · rfl

theorem Judged.judgeAt (s : State) (p : Place) : Judged s (s.judgeAt p) := by
  unfold State.judgeAt
  split
  · exact .judge s _
  · exact .refl s

theorem Judged.foldl (s : State) (l : List Place) : Judged s (l.foldl State.judgeAt s) := by
  induction l generalizing s with
  | nil => exact .refl s
  | cons p rest ih => exact (Judged.judgeAt s p).trans (ih (s.judgeAt p))

/-! ### The due ranks by place -/

section
variable (s : State)

/-- The saw's return entry is due, and its place is among the first `n`. -/
def State.dueBefore (n : Nat) (w : Saw) : Bool :=
  s.queue.returns[w].any fun r => r.isDue s.cell.trigger && decide (r.place.val < n)

/-- The number of due return entries whose places are among the first `n`. -/
def State.dueCount (n : Nat) : Nat := (List.finRange 4).countP (s.dueBefore n)

/-- The return entries of the first `n` places have been judged: those due have the next due ranks in the
order of their places (R63). -/
structure JudgedTo (n : Nat) (u : State) : Prop where
  cell : u.cell = s.cell
  absent : ∀ w : Saw, s.queue.returns[w] = none → u.queue.returns[w] = none
  judged : ∀ (w : Saw) r, s.queue.returns[w] = some r → u.queue.returns[w] = some { r with
    state := if r.isDue s.cell.trigger && decide (r.place.val < n) then
      .due (s.queue.nextRank + s.dueCount r.place.val) else .notDue }
  rank : u.queue.nextRank = s.queue.nextRank + s.dueCount n

end

theorem countP_or_eq {l : List Saw} {w : Saw} (hnd : l.Nodup) (hw : w ∈ l) {p : Saw → Bool}
    (hp : p w = false) : l.countP (fun x => p x || decide (x = w)) = l.countP p + 1 := by
  induction l with
  | nil => cases hw
  | cons x rest ih =>
    obtain ⟨hx, hrest⟩ := List.nodup_cons.1 hnd
    rw [List.countP_cons, List.countP_cons]
    rcases List.mem_cons.1 hw with rfl | hw
    · have hsame : rest.countP (fun x => p x || decide (x = w)) = rest.countP p :=
        List.countP_congr fun y hy => by
          have hne : y ≠ w := fun e => hx (e ▸ hy)
          simp [hne]
      simp [hsame, hp]
    · have hne : x ≠ w := fun e => hx (e ▸ hw)
      rw [ih hrest hw]
      simp only [hne, decide_false, Bool.or_false]
      omega

section
variable {s : State}

theorem dueBefore_some {w : Saw} {r : ReturnEntry} (hr : s.queue.returns[w] = some r) (n : Nat) :
    s.dueBefore n w = (r.isDue s.cell.trigger && decide (r.place.val < n)) := by
  rw [State.dueBefore, hr, Option.any_some]

theorem dueBefore_none {w : Saw} (hr : s.queue.returns[w] = none) (n : Nat) :
    s.dueBefore n w = false := by
  rw [State.dueBefore, hr, Option.any_none]

/-- One more place adds nothing when no due entry is of it. -/
theorem dueCount_same {n : Nat} (h : ∀ (w : Saw) r, s.queue.returns[w] = some r → r.isDue s.cell.trigger = true →
    r.place.val ≠ n) : s.dueCount (n + 1) = s.dueCount n := by
  refine List.countP_congr fun w _ => ?_
  cases hr : s.queue.returns[w] with
  | none => rw [dueBefore_none hr, dueBefore_none hr]
  | some r =>
    rw [dueBefore_some hr, dueBefore_some hr]
    by_cases hdue : r.isDue s.cell.trigger = true
    · have hne := h w r hr hdue
      rw [hdue, Bool.true_and, Bool.true_and, decide_eq_true_eq, decide_eq_true_eq]
      omega
    · rw [Bool.eq_false_iff.2 hdue, Bool.false_and, Bool.false_and]

/-- The place of a due entry adds one, when no other entry is of it. -/
theorem dueCount_next {n : Nat} {w : Saw} {r : ReturnEntry} (hr : s.queue.returns[w] = some r)
    (hdue : r.isDue s.cell.trigger = true) (hplace : r.place.val = n)
    (hothers : ∀ (v : Saw) x, s.queue.returns[v] = some x → x.place.val = n → v = w) :
    s.dueCount (n + 1) = s.dueCount n + 1 := by
  have hnew : s.dueBefore n w = false := by
    rw [dueBefore_some hr, hplace, Bool.and_eq_false_iff]
    exact .inr (decide_eq_false (Nat.lt_irrefl n))
  have hsplit : s.dueBefore (n + 1) = fun v => s.dueBefore n v || decide (v = w) := by
    funext v
    cases hv : s.queue.returns[v] with
    | none =>
      have hne : v ≠ w := fun e => Option.some_ne_none r (hr.symm.trans (e ▸ hv))
      rw [dueBefore_none hv, dueBefore_none hv, decide_eq_false hne]
      rfl
    | some x =>
      by_cases hvw : v = w
      · subst hvw
        cases hr.symm.trans hv
        rw [dueBefore_some hr, hdue, hplace, decide_eq_true (Nat.lt_succ_self n), decide_eq_true rfl,
          Bool.or_true]
        rfl
      · have hne : x.place.val ≠ n := fun e => hvw (hothers v x hv e)
        rw [dueBefore_some hv, dueBefore_some hv, decide_eq_false hvw, Bool.or_false]
        refine congrArg (x.isDue s.cell.trigger && ·) (decide_eq_decide.2 ?_)
        omega
  rw [State.dueCount, hsplit]
  exact countP_or_eq (List.nodup_finRange 4) (List.mem_finRange w) hnew

theorem dueCount_lt {n : Nat} {w : Saw} (h : s.dueBefore n w = false) : s.dueCount n ≤ 3 := by
  have hle : (List.finRange 4).countP (fun v => s.dueBefore n v || decide (v = w)) ≤ 4 :=
    List.countP_le_length.trans (by rw [List.length_finRange])
  rw [countP_or_eq (List.nodup_finRange 4) (List.mem_finRange w) h] at hle
  rw [State.dueCount]
  omega

end

section
variable {s u : State} {n : Nat}

theorem returnPlace_fits {w : Saw} {p : Place} (h : s.returnPlace w = some p) :
    s.cell.places[p].kind = .return_ ∧ s.cell.places[p].saw = some w := by
  have hfits := List.find?_some h
  rw [Bool.and_eq_true, decide_eq_true_eq, decide_eq_true_eq] at hfits
  exact hfits

/-- The return place of a saw is the first of its kind. -/
theorem returnPlace_le {w : Saw} {p q : Place} (h : s.returnPlace w = some p)
    (hkind : s.cell.places[q].kind = .return_) (hsaw : s.cell.places[q].saw = some w) : p ≤ q := by
  obtain ⟨-, before, after, hall, hbefore⟩ := List.find?_eq_some_iff_append.1 h
  have hq : q ∈ before ++ p :: after := hall ▸ mem_allPlaces q
  have hsorted : (before ++ p :: after).Pairwise (· < ·) := hall ▸ List.pairwise_lt_finRange 32
  rcases List.mem_append.1 hq with hin | hin
  · have hno := hbefore q hin
    rw [Bool.not_eq_true', Bool.and_eq_false_iff, decide_eq_false_iff_not, decide_eq_false_iff_not] at hno
    exact absurd hsaw (hno.resolve_left (not_not.2 hkind))
  · rcases List.mem_cons.1 hin with rfl | hin
    · exact le_rfl
    · exact ((List.pairwise_cons.1 (List.pairwise_append.1 hsorted).2.1).1 q hin).le

/-- A place of no entry adds nothing to the judging. -/
theorem JudgedTo.skip (h : JudgedTo s n u)
    (hnone : ∀ (w : Saw) r, s.queue.returns[w] = some r → r.place.val ≠ n) : JudgedTo s (n + 1) u := by
  refine ⟨h.cell, h.absent, fun w r hr => ?_, ?_⟩
  · have hlt : decide (r.place.val < n + 1) = decide (r.place.val < n) := by
      have hne := hnone w r hr
      exact decide_eq_decide.2 (by omega)
    rw [hlt]
    exact h.judged w r hr
  · rw [dueCount_same fun w r hr _ => hnone w r hr]
    exact h.rank

section
variable (h : JudgedTo s n u) {w : Saw} {r : ReturnEntry} (hr : s.queue.returns[w] = some r)
include h hr

/-- An entry whose place has been judged is judged to the same again (R46). -/
theorem JudgedTo.again (hplace : r.place.val < n) : u.judge w = u := by
  have hnow := h.judged w r hr
  rw [decide_eq_true hplace, Bool.and_true] at hnow
  have hsame (st : ReturnState) : ({ r with state := st } : ReturnEntry).isDue u.cell.trigger
      = r.isDue s.cell.trigger := by rw [h.cell]; rfl
  by_cases hdue : r.isDue s.cell.trigger = true
  · rw [if_pos hdue] at hnow
    exact judge_staysDue hnow rfl ((hsame _).trans hdue)
  · rw [if_neg hdue] at hnow
    exact judge_staysNotDue hnow rfl ((hsame _).trans (Bool.eq_false_iff.2 hdue))

/-- An entry whose place comes now is judged (R46, R63). -/
theorem JudgedTo.now (hplace : r.place.val = n) (hrank : s.queue.nextRank ≤ 4294967292)
    (hothers : ∀ (v : Saw) x, s.queue.returns[v] = some x → x.place.val = n → v = w) :
    JudgedTo s (n + 1) (u.judge w) := by
  have hnow := h.judged w r hr
  have hlast : decide (r.place.val < n) = false := decide_eq_false (by omega)
  rw [hlast, Bool.and_false, if_neg Bool.false_ne_true] at hnow
  have hsame : ({ r with state := ReturnState.notDue } : ReturnEntry).isDue u.cell.trigger
      = r.isDue s.cell.trigger := by rw [h.cell]; rfl
  have hkept (v : Saw) (x : ReturnEntry) (hx : s.queue.returns[v] = some x) (hne : v ≠ w) :
      decide (x.place.val < n + 1) = decide (x.place.val < n) := by
    have hplace' : x.place.val ≠ n := fun e => hne (hothers v x hx e)
    exact decide_eq_decide.2 (by omega)
  have hin : decide (r.place.val < n + 1) = true := decide_eq_true (by omega)
  by_cases hdue : r.isDue s.cell.trigger = true
  · have hcount := dueCount_next hr hdue hplace hothers
    have hfew : s.dueCount n ≤ 3 := dueCount_lt (w := w) (by
      rw [dueBefore_some hr, hlast, Bool.and_false])
    have hranks := h.rank
    have hjudged := judge_becomesDue hnow (by omega) rfl (hsame.trans hdue)
    rw [hjudged]
    refine ⟨h.cell, fun v hv => ?_, fun v x hx => ?_, ?_⟩
    · have hne : w.val ≠ v.val := fun e => Option.some_ne_none r (hr.symm.trans (Fin.ext e ▸ hv))
      exact (Vector.getElem_set_ne w.isLt v.isLt hne).trans (h.absent v hv)
    · by_cases hvw : v = w
      · subst hvw
        cases hr.symm.trans hx
        rw [hdue, hin, hplace, Bool.true_and, if_pos rfl, ← hranks]
        exact Vector.getElem_set_self _
      · rw [hkept v x hx hvw]
        exact (Vector.getElem_set_ne w.isLt v.isLt fun e => hvw (Fin.ext e.symm)).trans (h.judged v x hx)
    · rw [hcount, ← Nat.add_assoc, ← hranks]
  · have hno := Bool.eq_false_iff.2 hdue
    rw [judge_staysNotDue hnow rfl (hsame.trans hno)]
    refine ⟨h.cell, h.absent, fun v x hx => ?_, ?_⟩
    · by_cases hvw : v = w
      · subst hvw
        cases hr.symm.trans hx
        rw [hno, Bool.false_and, if_neg Bool.false_ne_true]
        exact hnow
      · rw [hkept v x hx hvw]
        exact h.judged v x hx
    · have hdues : ∀ (v : Saw) x, s.queue.returns[v] = some x → x.isDue s.cell.trigger = true →
          x.place.val ≠ n := fun v x hx hxdue hxplace => by
        have hvw := hothers v x hx hxplace
        subst hvw
        cases hr.symm.trans hx
        exact hdue hxdue
      rw [dueCount_same hdues]
      exact h.rank

end

/-- The judging goes on by one place (R46, R63). -/
theorem JudgedTo.next (h : JudgedTo s n u)
    (hreturns : ∀ w : Saw, s.returnPlace w = s.queue.returns[w].map (·.place))
    (hrank : s.queue.nextRank ≤ 4294967292) {p : Place} (hp : p.val = n) :
    JudgedTo s (n + 1) (u.judgeAt p) := by
  have hplaceOf (v : Saw) (x : ReturnEntry) (hx : s.queue.returns[v] = some x) :
      s.returnPlace v = some x.place := by rw [hreturns, hx]; rfl
  have hhere (v : Saw) (x : ReturnEntry) (hx : s.queue.returns[v] = some x) (hxn : x.place.val = n) :
      s.cell.places[p].kind = .return_ ∧ s.cell.places[p].saw = some v := by
    have hxp : x.place = p := Fin.ext (hxn.trans hp.symm)
    exact returnPlace_fits (hxp ▸ hplaceOf v x hx)
  by_cases hreturn : ∃ w, s.cell.places[p].kind = .return_ ∧ s.cell.places[p].saw = some w
  · obtain ⟨w, hkind, hsaw⟩ := hreturn
    rw [judgeAt_return (by rw [h.cell]; exact hkind) (by rw [h.cell]; exact hsaw)]
    have hothers (v : Saw) (x : ReturnEntry) (hx : s.queue.returns[v] = some x)
        (hxn : x.place.val = n) : v = w := by
      obtain ⟨-, hv⟩ := hhere v x hx hxn
      exact Option.some.inj (hv.symm.trans hsaw)
    cases hr : s.queue.returns[w] with
    | none =>
      have hstays : u.judge w = u := by rw [State.judge, h.absent w hr]
      rw [hstays]
      refine h.skip fun v x hx hxn => ?_
      rw [hothers v x hx hxn, hr] at hx
      cases hx
    | some r =>
      have hle := returnPlace_le (hplaceOf w r hr) hkind hsaw
      by_cases hplace : r.place.val = n
      · exact h.now hr hplace hrank hothers
      · have hlt : r.place.val < n := by
          have hle' : r.place.val ≤ p.val := hle
          omega
        rw [h.again hr hlt]
        refine h.skip fun v x hx hxn => ?_
        rw [hothers v x hx hxn] at hx
        cases hr.symm.trans hx
        exact hplace hxn
  · have hstays : u.judgeAt p = u :=
      judgeAt_other fun w hw => hreturn ⟨w, by rw [← h.cell]; exact hw⟩
    rw [hstays]
    exact h.skip fun v x hx hxn => hreturn ⟨v, hhere v x hx hxn⟩

/-- Every return entry is judged once all places have been gone through (R63). -/
theorem judgeByPlace_judged
    (hreturns : ∀ w : Saw, s.returnPlace w = s.queue.returns[w].map (·.place))
    (hrank : s.queue.nextRank ≤ 4294967292)
    (hfresh : ∀ (w : Saw) r, s.queue.returns[w] = some r → r.state = .notDue) :
    JudgedTo s 32 s.judgeByPlace := by
  have hsteps : ∀ n ≤ 32, JudgedTo s n ((allPlaces.take n).foldl State.judgeAt s) := by
    intro n
    induction n with
    | zero =>
      intro _
      have hnone : s.dueCount 0 = 0 := List.countP_eq_zero.2 fun w _ => by
        cases hr : s.queue.returns[w] with
        | none => rw [dueBefore_none hr]; exact Bool.false_ne_true
        | some r => rw [dueBefore_some hr]; simp
      refine ⟨rfl, fun _ hw => hw, fun w r hr => ?_, by rw [hnone]; rfl⟩
      have hstate : ({ r with state := .notDue } : ReturnEntry) = r := by rw [← hfresh w r hr]
      rw [decide_eq_false (Nat.not_lt_zero _), Bool.and_false, if_neg Bool.false_ne_true, hstate]
      exact hr
    | succ n ih =>
      intro hn
      have hlen : n < allPlaces.length := by
        rw [show allPlaces.length = 32 from List.length_finRange]
        omega
      have hval : (allPlaces[n]).val = n := by
        simp only [allPlaces, List.getElem_finRange, Fin.val_cast]
      rw [List.take_succ_eq_append_getElem hlen, List.foldl_append]
      exact (ih (by omega)).next hreturns hrank hval
  have hall := hsteps 32 le_rfl
  rwa [List.take_of_length_le (by rw [show allPlaces.length = 32 from List.length_finRange])] at hall

end

end Sys2Proof.Machine
end

section
/-! CELL RESET (O42): what it leaves. -/

namespace Sys2Proof.Machine

/-! ### Notices that no carriage acts on -/

section
variable {s : State}

/-- A notice to a carriage that is not BLOCKED is dropped (R88). -/
theorem retryBlocked_idle {c : Carriage} (h : (s.sq c).state ≠ .blocked) :
    s.retryBlocked c = { s with todo := { s.todo with blocked := s.todo.blocked.set c false } } :=
  if_neg h

/-- A step ends where it stands when no carriage is BLOCKED, whatever notices were left. -/
theorem settle_unblocked (hclaims : s.noClaims = true) (hidle : ∀ c, (s.sq c).state ≠ .blocked)
    (hwait : s.todo.wait = ⟨false, false⟩) : s.settle = { s with todo := Todo.none } := by
  have hexam (b : PerCarriage Bool) (e : Bool) :
      ({ s with todo := ⟨e, b, ⟨false, false⟩⟩ } : State).examine
        = { s with todo := ⟨false, b, ⟨false, false⟩⟩ } :=
    examine_noClaims { s with todo := ⟨e, b, ⟨false, false⟩⟩ } hclaims
  have hnone (n : Nat) (e : Bool) :
      State.settleN (n + 1) { s with todo := ⟨e, ⟨false, false⟩, ⟨false, false⟩⟩ }
        = { s with todo := Todo.none } := by
    unfold State.settleN
    rw [hexam]
    rfl
  have hb (n : Nat) (e b : Bool) :
      State.settleN (n + 2) { s with todo := ⟨e, ⟨false, b⟩, ⟨false, false⟩⟩ }
        = { s with todo := Todo.none } := by
    cases b with
    | false => exact hnone (n + 1) e
    | true =>
      unfold State.settleN
      rw [hexam]
      exact (congrArg (State.settleN (n + 1)) (retryBlocked_idle
        (s := { s with todo := ⟨false, ⟨false, true⟩, ⟨false, false⟩⟩ }) (hidle .B))).trans (hnone n false)
  have ha (e a b : Bool) : State.settleN 32 { s with todo := ⟨e, ⟨a, b⟩, ⟨false, false⟩⟩ }
      = { s with todo := Todo.none } := by
    cases a with
    | false => exact hb 30 e b
    | true =>
      unfold State.settleN
      rw [hexam]
      exact (congrArg (State.settleN 31) (retryBlocked_idle
        (s := { s with todo := ⟨false, ⟨true, b⟩, ⟨false, false⟩⟩ }) (hidle .A))).trans (hb 29 false b)
  have hstate : s = { s with todo := ⟨s.todo.exam, ⟨s.todo.blocked.a, s.todo.blocked.b⟩,
      ⟨false, false⟩⟩ } := by
    rw [← hwait]
  rw [State.settle]
  conv_lhs => rw [hstate]
  exact ha _ _ _

end

/-! ### The sequencers -/

/-- A sequencer put to IDLE with its load alone (R68, R141). -/
def Sequencer.putIdle (q : Sequencer) : Sequencer := { q.cleared with state := .idle }

theorem resetIdle_eq (q : Sequencer) : resetIdle q = { q.putIdle with ask := decide (q.load = none) } := rfl

theorem noticed_idle {q x : Sequencer} (h : noticedOr q.putIdle x) :
    x.state = .idle ∧ (if x.load.isNone then { x with ask := true } else x) = resetIdle q := by
  cases hload : q.load with
  | none =>
    have hask : noticed q.putIdle = { q.putIdle with ask := true } := if_pos ⟨rfl, hload, rfl⟩
    have hreset : resetIdle q = { q.putIdle with ask := true } := by
      rw [resetIdle_eq, decide_eq_true hload]
    have hempty : q.putIdle.load.isNone = true := Option.isNone_iff_eq_none.2 hload
    rw [hreset]
    rcases h with rfl | h
    · exact ⟨rfl, if_pos hempty⟩
    · rw [h, hask]
      exact ⟨rfl, if_pos hempty⟩
  | some l =>
    have hloaded : ¬q.load = none := fun e => Option.some_ne_none l (hload.symm.trans e)
    have hkept : noticed q.putIdle = q.putIdle :=
      (if_neg fun e => hloaded e.2.1).trans (if_neg fun e => CarState.noConfusion e)
    have hreset : resetIdle q = q.putIdle := by
      rw [resetIdle_eq, decide_eq_false hloaded]
      rfl
    have hx : x = q.putIdle := h.elim id fun h => h.trans hkept
    rw [hx, hreset]
    exact ⟨rfl, if_neg fun e => hloaded (Option.isNone_iff_eq_none.1 e)⟩

theorem askIfIdle_eq {s : State} {c : Carriage} (h : (s.sq c).state = .idle) :
    s.askIfIdle c = s.modSeq c fun q => if q.load.isNone then { q with ask := true } else q := by
  by_cases hload : (s.sq c).load.isNone = true
  · exact (if_pos ⟨h, hload⟩).trans (modSeq_congr (if_pos hload).symm)
  · refine (if_neg fun e => hload e.2).trans (modSeq_fixed ?_).symm
    exact if_neg hload

/-! ### The state after a CELL RESET -/

section
variable (s : State)

theorem judgeAt_withRequest (q : Request) (p : Place) :
    (s.withRequest q).judgeAt p = (s.judgeAt p).withRequest q := by
  by_cases h : ∃ w, s.cell.places[p].kind = .return_ ∧ s.cell.places[p].saw = some w
  · obtain ⟨w, hkind, hsaw⟩ := h
    rw [judgeAt_return (s := s.withRequest q) hkind hsaw, judgeAt_return hkind hsaw, judge_withRequest]
  · rw [judgeAt_other (s := s.withRequest q) fun w hw => h ⟨w, hw⟩, judgeAt_other fun w hw => h ⟨w, hw⟩]

theorem judgeByPlace_withRequest (q : Request) :
    (s.withRequest q).judgeByPlace = s.judgeByPlace.withRequest q := by
  have hfold (l : List Place) (u : State) : l.foldl State.judgeAt (u.withRequest q)
      = (l.foldl State.judgeAt u).withRequest q := by
    induction l generalizing u with
    | nil => rfl
    | cons p rest ih => rw [List.foldl_cons, judgeAt_withRequest, ih, List.foldl_cons]
  rw [judgeByPlace_eq, judgeByPlace_eq]
  exact hfold allPlaces s

theorem Judged.byPlace : Judged s s.judgeByPlace := Judged.foldl s allPlaces

/-- The stack records with no user (R22). -/
def State.unusedRecs : Vector (Option StackRec) 32 :=
  s.stackRecs.map fun r => r.map fun x => { x with user := none }

/-- The state in which the return entries are judged (R63). -/
def State.entriesReset (k : Todo) : State := { s with
  stackRecs := s.unusedRecs
  queue := { s.queue with
    entries := []
    returns := Vector.ofFn fun w : Saw => (s.queue.returns[w]).map (s.freshReturn w) }
  seq := ⟨(s.sq .A).putIdle, (s.sq .B).putIdle⟩
  todo := k }

/-- The state a CELL RESET leaves, with the queue and the notices as given (R22, R116, R141, R177). -/
def State.cellReset (q : OrderQueue) (k : Todo) : State := { s with
  stackRecs := s.unusedRecs
  queue := q
  seq := ⟨resetIdle (s.sq .A), resetIdle (s.sq .B)⟩
  arb := { s.arb with
    waiting := [], gates := s.arb.gates.map fun g => { g with stalled := false }
    host := ⟨s.arb.host.awaiting, false⟩
    records := ⟨{ s.arb.records.a with ordered := none }, { s.arb.records.b with ordered := none }⟩ }
  events := { s.events with entries := [], gateOpen := true, displaced := 0 }
  todo := k }

theorem unusedRecs_at (p : Place) :
    s.unusedRecs[p] = s.stackRecs[p].map fun x => { x with user := none } := Vector.getElem_map ..

theorem freshReturn_unused (x : PerCarriage Sequencer) (k : Todo) (w : Saw) (r : ReturnEntry) :
    ({ s with stackRecs := s.unusedRecs, seq := x, todo := k } : State).freshReturn w r
      = s.freshReturn w r := by
  have hruns (p : Place) : ({ s with stackRecs := s.unusedRecs, seq := x, todo := k } : State).runsAt p = s.runsAt p := by
    rw [State.runsAt, State.runsAt, unusedRecs_at]
    cases s.stackRecs[p] <;> rfl
  have hstate (p : Place) :
      ({ s with stackRecs := s.unusedRecs, seq := x, todo := k } : State).stackState p = s.stackState p := by
    rw [State.stackState, State.stackState, unusedRecs_at]
    cases s.stackRecs[p] <;> rfl
  rw [State.freshReturn, hruns, hstate]
  rfl

end

/-- CELL RESET on the claims, the events and the asking, once the carriages stand IDLE (R116, R141,
R177). -/
theorem resetBlocks_eq {s : State} (q : OrderQueue) (x : PerCarriage Sequencer) (k : Todo)
    (hA : (x.get .A).state = .idle)
    (haskA : (if (x.get .A).load.isNone then { x.get .A with ask := true } else x.get .A)
      = resetIdle (s.sq .A))
    (hB : (x.get .B).state = .idle)
    (haskB : (if (x.get .B).load.isNone then { x.get .B with ask := true } else x.get .B)
      = resetIdle (s.sq .B)) :
    ((((({ s.entriesReset k with queue := q, seq := x } : State).resetClaims).resetEvents).askIfIdle
      .A).askIfIdle .B) = s.cellReset q { k with exam := true } := by
  have hstill (c : Carriage) : (x.get c).state ≠ .moving := by
    cases c
    · rw [hA]; exact CarState.noConfusion
    · rw [hB]; exact CarState.noConfusion
  have hclaims : (({ s.entriesReset k with queue := q, seq := x } : State).resetClaims).resetEvents
      = { s.cellReset q { k with exam := true } with seq := x } := by
    have hfirst : ({ s.entriesReset k with queue := q, seq := x, arb := s.arb.unclaimed } :
        State).resetArbiter .A = { s.entriesReset k with
          queue := q, seq := x
          arb := { s.arb.unclaimed with
            records := ⟨{ s.arb.records.a with ordered := none }, s.arb.records.b⟩ } } :=
      if_neg (hstill .A)
    have hsecond : ({ s.entriesReset k with
        queue := q, seq := x
        arb := { s.arb.unclaimed with
          records := ⟨{ s.arb.records.a with ordered := none }, s.arb.records.b⟩ } } :
        State).resetArbiter .B = { s.entriesReset k with
          queue := q, seq := x
          arb := { s.arb.unclaimed with
            records := ⟨{ s.arb.records.a with ordered := none },
              { s.arb.records.b with ordered := none }⟩ } } :=
      if_neg (hstill .B)
    rw [State.resetClaims]
    exact congrArg (fun t : State => t.dueExam.resetEvents)
      ((congrArg (fun t : State => t.resetArbiter .B) hfirst).trans hsecond)
  rw [hclaims]
  have haskedA := askIfIdle_eq (s := { s.cellReset q { k with exam := true } with seq := x }) (c := .A) hA
  rw [haskedA]
  refine (askIfIdle_eq (s := ({ s.cellReset q { k with exam := true } with seq := x } : State).modSeq .A
    fun q => if q.load.isNone then { q with ask := true } else q) (c := .B) hB).trans ?_
  exact congrArg (fun v => { s.cellReset q { k with exam := true } with seq := v })
    (congr (congrArg PerCarriage.mk haskA) haskB)

section
variable {s : State} (hstate : ∀ c, (s.sq c).state.resets) (hport : ∀ c, (s.pt c).stopping = false)
  (hpending : ∀ w : Saw, s.saws[w].releasePending = false)
include hstate hport hpending

/-- What CELL RESET does to the blocks of the part (R187). -/
theorem doCellReset_eq : ∃ k k', k.wait = s.todo.wait ∧ k'.wait = s.todo.wait
    ∧ s.doCellReset = ((s.cellReset (s.entriesReset k).judgeByPlace.queue k').modLink HostLink.dropBehind,
      .ok) := by
  obtain ⟨k, hreset, hwait⟩ := resetCarriages_eq hstate hport hpending
  have hqueue : ((s.resetCarriage .A).resetCarriage .B).resetQueue = (s.entriesReset k).judgeByPlace := by
    rw [hreset, State.resetQueue]
    have hfresh : (Vector.ofFn fun w : Saw => (s.queue.returns[w]).map
        (({ s with
          stackRecs := s.unusedRecs
          seq := ⟨(s.sq .A).putIdle, (s.sq .B).putIdle⟩
          todo := k } : State).freshReturn w))
        = Vector.ofFn fun w : Saw => (s.queue.returns[w]).map (s.freshReturn w) :=
      congrArg Vector.ofFn (funext fun w => congrArg (s.queue.returns[w].map ·)
        (funext fun r => freshReturn_unused s _ k w r))
    exact congrArg (fun v => State.judgeByPlace { s with
      stackRecs := s.unusedRecs
      queue := { s.queue with entries := [], returns := v }
      seq := ⟨(s.sq .A).putIdle, (s.sq .B).putIdle⟩
      todo := k }) hfresh
  have hjudged : Judged (s.entriesReset k) (s.entriesReset k).judgeByPlace := .byPlace _
  refine ⟨k, { k with exam := true }, hwait, hwait, ?_⟩
  rw [State.doCellReset, hqueue]
  obtain ⟨⟨q, x, hframe⟩, -, hseq⟩ := hjudged
  have hA := noticed_idle (q := s.sq .A) (hseq .A)
  have hB := noticed_idle (q := s.sq .B) (hseq .B)
  rw [hframe] at hA hB ⊢
  exact congrArg (fun t : State => (t.modLink HostLink.dropBehind, Reply.ok))
    (resetBlocks_eq q x k hA.1 hA.2 hB.1 hB.2)

end

section
variable {s : State}

theorem cellReset_noClaims (hgates : ∀ g : Gate, s.arb.gates[g].isAwaiting = false)
    (hhost : s.arb.host.awaiting = none) (q : OrderQueue) (k : Todo) : (s.cellReset q k).noClaims = true := by
  refine noClaims_of rfl (fun g => ?_) hhost
  have hgate : (s.cellReset q k).arb.gates[g] = { s.arb.gates[g] with stalled := false } :=
    Vector.getElem_map ..
  rw [hgate]
  exact hgates g

theorem cellReset_accepts (hs : s.takesAtOnce = true) (hstate : ∀ c, (s.sq c).state.resets)
    (hport : ∀ c, (s.pt c).stopping = false) (hpending : ∀ w : Saw, s.saws[w].releasePending = false)
    (hgates : ∀ g : Gate, s.arb.gates[g].isAwaiting = false) (hhost : s.arb.host.awaiting = none) :
    ∃ k, accepts .cellReset s (s.cellReset (s.entriesReset k).judgeByPlace.queue Todo.none) 31 [] := by
  obtain ⟨k, k', -, hwait, hreset⟩ := doCellReset_eq (s := s.withRequest .cellReset) hstate hport hpending
  have htodo := takesAtOnce_todo hs
  have hqueue : ((s.withRequest .cellReset).entriesReset k).judgeByPlace.queue
      = (s.entriesReset k).judgeByPlace.queue := by
    have hentries : (s.withRequest .cellReset).entriesReset k
        = (s.entriesReset k).withRequest .cellReset := rfl
    rw [hentries, judgeByPlace_withRequest]
    exact withRequest_queue ..
  rw [hqueue] at hreset
  refine ⟨k, ?_⟩
  generalize (s.entriesReset k).judgeByPlace.queue = q at hreset ⊢
  have hlink : ((s.withRequest .cellReset).cellReset q k').modLink HostLink.dropBehind
      = (s.cellReset q k').withRequest .cellReset := rfl
  rw [hlink] at hreset
  have hidle (c : Carriage) : (((s.cellReset q k').withRequest .cellReset).sq c).state ≠ .blocked := by
    cases c <;> exact CarState.noConfusion
  have hsettled := settle_unblocked (s := (s.cellReset q k').withRequest .cellReset)
    (cellReset_noClaims hgates hhost q k') hidle (hwait.trans (congrArg Todo.wait htodo))
  have hwaiting : s.link.waiting = [] := takesAtOnce_waiting hs
  exact accepts_of_settle (q := .cellReset) (u := s.cellReset q Todo.none) hs rfl hreset hsettled hwaiting

/-- What the judging of a return entry rests on, as it is taken afresh (R46, R63). -/
theorem freshReturn_isDue {w : Saw} {r : ReturnEntry} (hr : s.queue.returns[w] = some r) :
    (s.freshReturn w r).isDue s.cell.trigger = isDue s w := by
  rw [isDue, hr]
  rfl

theorem entriesReset_returns (k : Todo) (w : Saw) : (s.entriesReset k).queue.returns[w]
    = s.queue.returns[w].map (s.freshReturn w) := Vector.getElem_ofFn ..

theorem entriesReset_places (k : Todo)
    (hreturns : ∀ w : Saw, s.returnPlace w = s.queue.returns[w].map (·.place)) (w : Saw) :
    (s.entriesReset k).returnPlace w = (s.entriesReset k).queue.returns[w].map (·.place) := by
  rw [entriesReset_returns, Option.map_map]
  exact hreturns w

theorem entriesReset_fresh (k : Todo) (w : Saw) (r : ReturnEntry)
    (hr : (s.entriesReset k).queue.returns[w] = some r) : r.state = .notDue := by
  rw [entriesReset_returns, Option.map_eq_some_iff] at hr
  obtain ⟨x, -, rfl⟩ := hr
  rfl

/-- The due entries of the first places, in the order of which the ranks are given (R63). -/
theorem entriesReset_dueCount (k : Todo) (n : Nat) : (s.entriesReset k).dueCount n
    = ((List.finRange 4).filter fun w =>
      isDue s w && s.queue.returns[w].any fun r => decide (r.place.val < n)).length := by
  rw [State.dueCount, List.countP_eq_length_filter]
  refine congrArg (fun f => ((List.finRange 4).filter f).length) (funext fun w => ?_)
  have hentry := entriesReset_returns (s := s) k w
  cases hr : s.queue.returns[w] with
  | none =>
    rw [hr] at hentry
    rw [dueBefore_none hentry, Option.any_none, Bool.and_false]
  | some r =>
    rw [hr] at hentry
    rw [dueBefore_some hentry, Option.any_some, ← freshReturn_isDue hr]
    rfl

end

/-- Settles O42: what CELL RESET leaves of standing carriages, of the queue and of the arbiter. -/
theorem cellResetClears : Obligations.CellResetClears := by
  intro s hs hhost hgates hstand hpending
  have hstate (c : Carriage) : (s.sq c).state.resets := (hstand c).1
  obtain ⟨k, haccepts⟩ := cellReset_accepts hs hstate (fun c => (hstand c).2) hpending hgates hhost
  have hjudged : Judged (s.entriesReset k) (s.entriesReset k).judgeByPlace := .byPlace _
  have hranks (hreturns : ∀ w : Saw, s.returnPlace w = s.queue.returns[w].map (·.place))
      (hrank : s.queue.nextRank ≤ 4294967292) :=
    judgeByPlace_judged (s := s.entriesReset k) (entriesReset_places k hreturns) hrank
      (entriesReset_fresh k)
  obtain ⟨-, ⟨hentries, hstateless⟩, -⟩ := hjudged
  generalize (s.entriesReset k).judgeByPlace = u at *
  refine ⟨_, haccepts, hentries rfl, fun w r hr => ?_, fun hreturns hrank => ?_,
    fun w hr => ?_, fun c => by cases c <;> rfl, unusedRecs_at s, ?_, rfl, rfl, rfl, rfl, rfl, rfl, rfl, rfl⟩
  · have hentry := hstateless w
    rw [entriesReset_returns, hr, Option.map_some, Option.map_some, Option.map_eq_some_iff] at hentry
    obtain ⟨x, hx, hsame⟩ := hentry
    refine ⟨x.state, hx.trans (congrArg some ?_)⟩
    calc x = { x.stateless with state := x.state } := rfl
      _ = { (s.freshReturn w r).stateless with state := x.state } := by rw [hsame]
  · intro due before
    have hcount (n : Nat) := entriesReset_dueCount (s := s) k n
    obtain ⟨-, -, hjudged, hnext⟩ := hranks hreturns hrank
    refine ⟨fun w r hr => ?_, hnext.trans (congrArg (s.queue.nextRank + ·) ?_)⟩
    · have hentry := entriesReset_returns (s := s) k w
      rw [hr] at hentry
      have hplace : decide ((s.freshReturn w r).place.val < 32) = true :=
        decide_eq_true r.place.isLt
      have hnow := hjudged w _ hentry
      rw [hplace, Bool.and_true, hcount] at hnow
      refine (congrArg (Option.map (·.state)) hnow).trans (congrArg some ?_)
      exact if_congr (iff_of_eq (congrArg (· = true) (freshReturn_isDue hr))) rfl rfl
    · rw [hcount]
      refine congrArg (fun f => ((List.finRange 4).filter f).length) (funext fun w => ?_)
      cases hr : s.queue.returns[w] with
      | none =>
        have hno : due w = false := by
          have hunfold : due w = isDue s w := rfl
          rw [hunfold, isDue, hr]
        rw [Option.any_none, Bool.and_false, hno]
      | some r => rw [Option.any_some, decide_eq_true r.place.isLt, Bool.and_true]
  · have hentry := hstateless w
    rw [entriesReset_returns, hr, Option.map_none, Option.map_none, Option.map_eq_none_iff] at hentry
    exact hentry
  · have harb : (s.cellReset u.queue Todo.none).arb = { s.arb with
        waiting := [], gates := s.arb.gates.map fun g => { g with stalled := false }
        host := ⟨s.arb.host.awaiting, false⟩
        records := ⟨{ s.arb.records.a with ordered := none },
          { s.arb.records.b with ordered := none }⟩ } := rfl
    rw [harb, hhost]

end Sys2Proof.Machine
end

section
/-! Waiting claims: a claim granted or waiting, and the grants of an examination (O18). -/

namespace Sys2Proof.Machine

/-! ### What a granted span leaves of the other carriage -/

theorem nudgeBlocked_sq_own (s : State) (c : Carriage) (l) : (s.nudgeBlocked (other c) l).sq c = s.sq c := by
  unfold State.nudgeBlocked
  split
  · rfl
  · cases c <;> rfl
  · rfl

/-- The arbiter, the Cell Map, the other carriage's port and the carriage's standing in reach are kept. -/
structure RailKept (c : Carriage) (s u : State) : Prop where
  arb : u.arb = s.arb
  cell : u.cell = s.cell
  port : u.pt (other c) = s.pt (other c)
  car : (u.sq c).state = (s.sq c).state ∨ (u.sq c).state = .sawWait

namespace RailKept
variable {s u : State} {c : Carriage}

theorem refl (c : Carriage) (s : State) : RailKept c s s := ⟨rfl, rfl, rfl, .inl rfl⟩

theorem of_portOnly (h : PortOnly c s u) : RailKept c s u := by
  refine ⟨?_, ?_, h.pt_other, .inl ?_⟩ <;> obtain ⟨d, rfl⟩ := h <;> rfl

theorem nudgeBlocked (h : RailKept c s u) (l) : RailKept c s (u.nudgeBlocked (other c) l) := by
  have hcar := h.car
  rw [← nudgeBlocked_sq_own u c l] at hcar
  refine ⟨?_, ?_, ?_, hcar⟩ <;> unfold State.nudgeBlocked <;> split
  · exact h.arb
  · exact h.arb
  · exact h.arb
  · exact h.cell
  · exact h.cell
  · exact h.cell
  · exact h.port
  · exact h.port
  · exact h.port

theorem setUser (h : RailKept c s u) (p v) : RailKept c s (u.setUser p v) := ⟨h.arb, h.cell, h.port, h.car⟩

theorem releasePlace (h : RailKept c s u) (p) : RailKept c s (u.releasePlace c p) := by
  unfold State.releasePlace
  split
  · obtain ⟨v, hclear, -⟩ := userCleared_frame (u.setUser p none) p
    have hcleared : RailKept c s ((u.setUser p none).userCleared p) := by
      rw [hclear]
      exact ⟨h.arb, h.cell, h.port, h.car⟩
    exact hcleared.nudgeBlocked _
  · exact h

theorem modSeq_stays (h : RailKept c s u) (f : Sequencer → Sequencer)
    (hf : ∀ q : Sequencer, (f q).state = q.state) : RailKept c s (u.modSeq c f) := by
  refine ⟨h.arb, h.cell, h.port, ?_⟩
  rw [modSeq_sq_self, hf]
  exact h.car

theorem releaseDest (h : RailKept c s u) : RailKept c s (u.releaseDest c) := by
  unfold State.releaseDest
  split
  · split
    · exact (h.modSeq_stays _ fun _ => by rfl).releasePlace _
    · exact h
  · exact h

theorem setSawWait (h : RailKept c s u) : RailKept c s (u.setCarState c .sawWait) := by
  unfold State.setCarState
  split
  · exact h
  · have hset : RailKept c s ((u.modSeq c fun q => { q with state := .sawWait }).dueExam) :=
      ⟨h.arb, h.cell, h.port, .inr (by rw [dueExam_sq, modSeq_sq_self])⟩
    exact hset.nudgeBlocked _

theorem enterSawWait (h : RailKept c s u) (w) : RailKept c s (u.enterSawWait c w) :=
  h.releaseDest.setSawWait.modSeq_stays
    (fun q => { q with wait := if q.wait.running then q.wait else Timer.start (u.saws[w].waitLimit * 1000) })
    fun _ => by rfl

theorem issue (s : State) (c : Carriage) : RailKept c s (s.issue c) := by
  unfold State.issue
  split
  · exact of_portOnly ((PortOnly.refl s c).issueMove _ _)
  · exact of_portOnly ((PortOnly.refl s c).issueMove _ _)
  · split
    · split
      · exact of_portOnly ((PortOnly.refl s c).handStep _)
      · exact (refl c s).enterSawWait _
    · exact of_portOnly ((PortOnly.refl s c).handStep _)
  · exact refl c s

end RailKept

/-- What a granted span leaves of the rail: its zones are the carriage's, which is not without a
reference (R92). -/
structure SpanGranted (c : Carriage) (r : ZoneRange) (s t : State) : Prop where
  arb : t.arb = (s.holdZones c (inRange r)).arb
  cell : t.cell = s.cell
  port : t.pt (other c) = s.pt (other c)
  car : (t.sq c).state = .moving ∨ (t.sq c).state = .sawWait

theorem setMoving_kept (s : State) (c : Carriage) :
    (s.setCarState c .moving).arb = s.arb ∧ (s.setCarState c .moving).cell = s.cell
      ∧ (s.setCarState c .moving).pt (other c) = s.pt (other c)
      ∧ ((s.setCarState c .moving).sq c).state = .moving := by
  unfold State.setCarState
  split
  · next h => exact ⟨rfl, rfl, rfl, h⟩
  · have hset := (RailKept.refl c ((s.modSeq c fun q => { q with state := .moving }).dueExam)).nudgeBlocked
      fun l => { l with release := true }
    refine ⟨hset.arb, hset.cell, hset.port, ?_⟩
    rw [nudgeBlocked_sq_own, dueExam_sq, modSeq_sq_self]

theorem grantSpan_granted (s : State) (c : Carriage) (r : ZoneRange) :
    SpanGranted c r s (s.grantSpan c r) := by
  obtain ⟨harb, hcell, hport, hcar⟩ := setMoving_kept (s.holdZones c (inRange r)) c
  have hissued := RailKept.issue (((s.holdZones c (inRange r)).setCarState c .moving).dueExam) c
  refine ⟨hissued.arb.trans harb, hissued.cell.trans hcell, hissued.port.trans hport, ?_⟩
  rcases hissued.car with h | h
  · exact .inl (h.trans hcar)
  · exact .inr h

/-! ### A claim for a move -/

/-- A claim is granted at once or waits (R92). -/
theorem claimMove_cases (s : State) (c : Carriage) (cur target : Nat) (hzone : (s.arec c).zone = some cur)
    (hplace : ∀ p, (s.pt c).position = some p → s.posZone p = cur) :
    ((∀ z < 16, decide (min cur target ≤ z ∧ z ≤ max cur target) = true → s.claimable c false z = true) →
      s.claimMove c target = (((s.mapZones fun z r =>
        if decide (min cur target ≤ z ∧ z ≤ max cur target) then { r with holder := some c }
        else r).setCarState c .moving).dueExam).issue c)
      ∧ (¬(∀ z < 16, decide (min cur target ≤ z ∧ z ≤ max cur target) = true →
          s.claimable c false z = true) → s.claimMove c target = (({ s with
        arb := { s.arb with
          waiting := s.arb.waiting ++ [⟨c, target, (s.sq c).workClass, false⟩] } } : State).setCarState c
            .claiming).dueExam) := by
  have hstrayed := strayed_none hzone hplace
  have hin (z : Nat) : inRange (spanOf cur target) z = decide (min cur target ≤ z ∧ z ≤ max cur target) := by
    rw [Bool.eq_iff_iff, inRange_iff, decide_eq_true_eq]
    rfl
  have hspan : s.spanClaimable c false (spanOf cur target) = true ↔ ∀ z < 16,
      decide (min cur target ≤ z ∧ z ≤ max cur target) = true → s.claimable c false z = true := by
    rw [spanClaimable_iff]
    simp only [hin]
  refine ⟨fun hok => ?_, fun hno => ?_⟩
  · rw [claimMove_grants hzone hstrayed (hspan.2 hok), State.grantSpan, State.holdZones]
    simp only [hin]
  · exact claimMove_waits hzone hstrayed (Bool.eq_false_iff.2 (mt hspan.1 hno))

/-! ### The grants of an examination -/

section
variable {s : State}

theorem claimGrantable_iff (w : WaitingClaim) : s.claimGrantable w = true
    ↔ ∀ k < 16, inRange (s.claimSpan w) k = true → s.claimable w.carriage false k = true :=
  spanClaimable_iff ..

theorem strayed_of_inPlace {c : Carriage} (h : inPlace s c) : s.strayed c = none := by
  cases hzone : (s.arec c).zone with
  | none =>
    rw [State.strayed, hzone]
    cases (s.pt c).position <;> rfl
  | some cur => exact strayed_none hzone fun p hp => h p cur hp hzone

/-- A waiting claim is granted: withdrawn, and its span granted (R92, R93). -/
theorem grantWaiting_grants {w : WaitingClaim} (hwaits : (s.claimOf w.carriage).isSome = true)
    (hplace : inPlace s w.carriage) : s.grantWaiting w = grantedClaim s w := by
  have hwithdrawn : s.withdrawClaim w.carriage = ({ s with
      arb := { s.arb with waiting := s.arb.waiting.filter fun x => x.carriage ≠ w.carriage } } :
        State).dueExam := if_pos hwaits
  unfold State.grantWaiting
  rw [strayed_of_inPlace hplace, hwithdrawn]
  rfl

theorem claimOf_mem {w : WaitingClaim} (h : w ∈ s.arb.waiting) : (s.claimOf w.carriage).isSome = true :=
  List.find?_isSome.2 ⟨w, h, decide_eq_true rfl⟩

theorem rangesOverlap_iff (a b : ZoneRange) :
    rangesOverlap a b = true ↔ a.first ≤ b.last ∧ b.first ≤ a.last := by
  rw [rangesOverlap, Bool.and_eq_true, decide_eq_true_eq, decide_eq_true_eq]

end

/-! ### A second grant -/

section
variable {s : State} {a b : WaitingClaim}

/-- The rail after the grant of a waiting claim. -/
theorem grantedClaim_granted (s : State) (w : WaitingClaim) :
    SpanGranted w.carriage (s.claimSpan w) (({ s with
      arb := { s.arb with
        waiting := s.arb.waiting.filter fun x => x.carriage ≠ w.carriage } } : State).dueExam)
      (grantedClaim s w) := grantSpan_granted ..

theorem holdZones_zone (s : State) (c : Carriage) (p : Nat → Bool) (z : Fin 16) (h : p z.val = false) :
    (s.holdZones c p).arb.zones[z] = s.arb.zones[z] := by
  simp only [State.holdZones, mapZones_arb, Fin.getElem_fin, Vector.getElem_ofFn]
  exact if_neg (by rw [h]; exact Bool.false_ne_true)

/-- A zone beside a granted span stays claimable for the other carriage (R91). -/
theorem SpanGranted.claimable {c : Carriage} {r : ZoneRange} {u t : State} (h : SpanGranted c r u t)
    {k : Nat} (hk : k < 16) (hout : inRange r k = false)
    (hclaim : u.claimable (other c) false k = true) : t.claimable (other c) false k = true := by
  have hzone : t.arb.zones[(⟨k, hk⟩ : Fin 16)] = u.arb.zones[(⟨k, hk⟩ : Fin 16)] := by
    rw [h.arb]
    exact holdZones_zone u c (inRange r) ⟨k, hk⟩ hout
  have hholder : t.holder k = u.holder k :=
    (holder_val t ⟨k, hk⟩).trans ((congrArg ZoneRec.holder hzone).trans (holder_val u ⟨k, hk⟩).symm)
  have hclosed : t.zoneClosed k = u.zoneClosed k := by
    have hunfold (x : State) : x.zoneClosed k = x.arb.zones[(⟨k, hk⟩ : Fin 16)].sources.toList.any id :=
      dif_pos hk
    rw [hunfold, hunfold, hzone]
  have hawaited : t.awaited k = u.awaited k := by
    rw [State.awaited, State.awaited, h.arb]
    rfl
  have hback : other (other c) = c := by cases c <;> rfl
  have hstands : ((t.sq c).state = .unreferenced || (t.sq c).state = .homing) = false := by
    rcases h.car with e | e <;> rw [e] <;> rfl
  simp only [State.claimable, State.blockedOther, State.blockedHard, hback, hstands, hholder, hclosed,
    hawaited, Bool.and_eq_true, Bool.not_eq_true', Bool.or_eq_false_iff, Bool.false_eq_true, if_false]
    at hclaim ⊢
  obtain ⟨hother, ⟨⟨hshut, hwaits⟩, -⟩, hreach⟩ := hclaim
  exact ⟨hother, ⟨⟨hshut, hwaits⟩, trivial⟩, hreach⟩

theorem grantIfWaiting_grants (hclaim : s.claimOf b.carriage = some b) (hgrant : s.claimGrantable b = true)
    (hplace : inPlace s b.carriage) : s.grantIfWaiting b = grantedClaim s b := by
  rw [State.grantIfWaiting, hclaim]
  exact (if_pos hgrant).trans (grantWaiting_grants (by rw [hclaim]; rfl) hplace)

section
variable (hwaiting : s.arb.waiting = [a, b]) (hne : a.carriage ≠ b.carriage)
include hwaiting hne

theorem grantedClaim_waiting : (grantedClaim s a).claimOf b.carriage = some b := by
  have hwaits : (grantedClaim s a).arb.waiting = [b] := by
    rw [(grantedClaim_granted s a).arb]
    have hfilter : (s.arb.waiting.filter fun x => x.carriage ≠ a.carriage) = [b] := by
      rw [hwaiting]
      simp [hne.symm]
    exact hfilter
  rw [State.claimOf, hwaits]
  simp

omit hwaiting in
theorem other_of_ne : b.carriage = other a.carriage := by
  revert hne
  cases a.carriage <;> cases b.carriage <;> decide

/-- The claim that waits beside a granted one is granted after it (R93). -/
theorem grantSecond (hapart : rangesOverlap (s.claimSpan a) (s.claimSpan b) = false)
    (hgrant : s.claimGrantable b = true) (hplace : inPlace s b.carriage) :
    (grantedClaim s a).grantIfWaiting b = grantedClaim (grantedClaim s a) b := by
  have hgranted := grantedClaim_granted s a
  have hb := other_of_ne hne
  have hrecs : (grantedClaim s a).arb.records = s.arb.records := by
    rw [hgranted.arb]
    rfl
  have harec : (grantedClaim s a).arec b.carriage = s.arec b.carriage := by
    rw [State.arec, State.arec, hrecs]
  have hport : (grantedClaim s a).pt b.carriage = s.pt b.carriage := by
    rw [hb]
    exact hgranted.port
  have hspan : (grantedClaim s a).claimSpan b = s.claimSpan b := by
    rw [State.claimSpan, State.claimSpan, harec]
  refine grantIfWaiting_grants (grantedClaim_waiting hwaiting hne) ?_ ?_
  · rw [claimGrantable_iff, hspan]
    intro k hk hin
    have hout : inRange (s.claimSpan a) k = false := by
      rw [Bool.eq_false_iff, ne_eq, inRange_iff]
      rw [inRange_iff] at hin
      rw [Bool.eq_false_iff, ne_eq, rangesOverlap_iff] at hapart
      omega
    have hclaim := (claimGrantable_iff b).1 hgrant k hk hin
    rw [hb] at hclaim ⊢
    exact hgranted.claimable hk hout (by revert hclaim; cases a.carriage <;> exact id)
  · intro p z hp hz
    rw [hport] at hp
    rw [harec] at hz
    have hcell : (grantedClaim s a).posZone p = s.posZone p := by
      rw [State.posZone, State.posZone, hgranted.cell]
      rfl
    rw [hcell]
    exact hplace p z hp hz

end

end

end Sys2Proof.Machine
end

section
/-! Waiting claims: the grants of an examination, and the zones a claim meets first (O18). -/

namespace Sys2Proof.Machine

/-! ### The grants of an examination -/

section
variable {s : State} {a b : WaitingClaim}

theorem grantClaims_one (ha : s.arb.waiting = [a]) (hmay : s.claimGrantable a = true)
    (hplace : inPlace s a.carriage) : s.grantClaims = grantedClaim s a := by
  have hfilter : s.arb.waiting.filter s.claimGrantable = [a] := by
    rw [ha, List.filter_cons, hmay]
    rfl
  rw [State.grantClaims, hfilter]
  exact grantWaiting_grants (claimOf_mem (by rw [ha]; exact List.mem_singleton_self a)) hplace

section
variable (hwaiting : s.arb.waiting = [a, b])
include hwaiting

theorem grantClaims_first (ha : s.claimGrantable a = true) (hb : s.claimGrantable b = false)
    (hplace : inPlace s a.carriage) : s.grantClaims = grantedClaim s a := by
  have hfilter : s.arb.waiting.filter s.claimGrantable = [a] := by
    simp [hwaiting, ha, hb]
  rw [State.grantClaims, hfilter]
  exact grantWaiting_grants (claimOf_mem (by simp [hwaiting])) hplace

theorem grantClaims_last (ha : s.claimGrantable a = false) (hb : s.claimGrantable b = true)
    (hplace : inPlace s b.carriage) : s.grantClaims = grantedClaim s b := by
  have hfilter : s.arb.waiting.filter s.claimGrantable = [b] := by
    simp [hwaiting, ha, hb]
  rw [State.grantClaims, hfilter]
  exact grantWaiting_grants (claimOf_mem (by simp [hwaiting])) hplace

/-- Two claims that are both grantable (R93). -/
theorem grantClaims_both (ha : s.claimGrantable a = true) (hb : s.claimGrantable b = true) :
    s.grantClaims = if rangesOverlap (s.claimSpan a) (s.claimSpan b) then s.grantWaiting (preferred a b)
      else (s.grantWaiting a).grantIfWaiting b := by
  have hfilter : s.arb.waiting.filter s.claimGrantable = [a, b] := by
    simp [hwaiting, ha, hb]
  rw [State.grantClaims, hfilter]

theorem grantPreferred (hplaceA : inPlace s a.carriage) (hplaceB : inPlace s b.carriage) :
    s.grantWaiting (preferred a b) = grantedClaim s (preferred a b) := by
  have hpreferred : preferred a b = a ∨ preferred a b = b := by
    rw [preferred]
    split
    · exact .inr rfl
    · exact .inl rfl
  rcases hpreferred with h | h <;> rw [h]
  · exact grantWaiting_grants (claimOf_mem (by simp [hwaiting])) hplaceA
  · exact grantWaiting_grants (claimOf_mem (by simp [hwaiting])) hplaceB

end

/-- The grants of an examination of at most two waiting claims (R93). -/
theorem grantClaims_cases (s : State) :
    ((∀ w ∈ s.arb.waiting, ¬s.claimGrantable w = true) → s.grantClaims = s)
      ∧ (∀ a, s.arb.waiting = [a] → s.claimGrantable a = true → inPlace s a.carriage →
          s.grantClaims = grantedClaim s a)
      ∧ ∀ a b, s.arb.waiting = [a, b] → a.carriage ≠ b.carriage →
          inPlace s a.carriage → inPlace s b.carriage →
          let share := (s.claimSpan a).first ≤ (s.claimSpan b).last
            ∧ (s.claimSpan b).first ≤ (s.claimSpan a).last
          (s.claimGrantable a = true → ¬s.claimGrantable b = true → s.grantClaims = grantedClaim s a)
            ∧ (¬s.claimGrantable a = true → s.claimGrantable b = true → s.grantClaims = grantedClaim s b)
            ∧ (s.claimGrantable a = true → s.claimGrantable b = true → share →
                s.grantClaims = grantedClaim s (preferred a b))
            ∧ (s.claimGrantable a = true → s.claimGrantable b = true → ¬share →
                s.grantClaims = grantedClaim (grantedClaim s a) b) := by
  refine ⟨fun h => grantClaims_none fun w hw => Bool.eq_false_iff.2 (h w hw),
    fun a => grantClaims_one, fun a b hwaiting hne hplaceA hplaceB => ⟨fun ha hb => ?_, fun ha hb => ?_,
      fun ha hb hshare => ?_, fun ha hb hshare => ?_⟩⟩
  · exact grantClaims_first hwaiting ha (Bool.eq_false_iff.2 hb) hplaceA
  · exact grantClaims_last hwaiting (Bool.eq_false_iff.2 ha) hb hplaceB
  · rw [grantClaims_both hwaiting ha hb, if_pos ((rangesOverlap_iff _ _).2 hshare)]
    exact grantPreferred hwaiting hplaceA hplaceB
  · have hapart : ¬rangesOverlap (s.claimSpan a) (s.claimSpan b) = true :=
      mt (rangesOverlap_iff _ _).1 hshare
    rw [grantClaims_both hwaiting ha hb, if_neg hapart,
      grantWaiting_grants (claimOf_mem (by simp [hwaiting])) hplaceA]
    exact grantSecond hwaiting hne (Bool.eq_false_iff.2 hapart) hb hplaceB

end

/-! ### What blocks a claim -/

section
variable {s : State} {w : WaitingClaim}

theorem freeable_iff : s.freeable w = true ↔ freeOfOthers s w := by
  simp only [State.freeable, freeOfOthers, List.all_eq_true, mem_rangeZones, inRange_iff, and_imp,
    Bool.not_eq_true']

/-- The other carriage holds a zone of the claim's span. -/
def heldAcross (s : State) (w : WaitingClaim) : Prop :=
  ∃ k < 16, inRange (s.claimSpan w) k = true ∧ s.holder k = some (other w.carriage)

/-- A claim that only the other carriage can block is granted unless that carriage holds of its span (R91). -/
theorem claimGrantable_of_free (hfree : freeOfOthers s w) :
    s.claimGrantable w = true ↔ ¬heldAcross s w := by
  have hzone (k : Nat) (hk : k < 16) (hin : inRange (s.claimSpan w) k = true) :
      s.claimable w.carriage false k = true ↔ s.holder k ≠ some (other w.carriage) := by
    rw [State.claimable, hfree k hk hin, State.blockedOther, Bool.not_false, Bool.and_true,
      Bool.not_eq_true', decide_eq_false_iff_not]
  rw [claimGrantable_iff]
  constructor
  · rintro h ⟨k, hk, hin, hheld⟩
    exact (hzone k hk hin).1 (h k hk hin) hheld
  · exact fun h k hk hin => (hzone k hk hin).2 fun hheld => h ⟨k, hk, hin, hheld⟩

end

/-! ### The first blocking zone -/

theorem rangeZones_ascending (r : ZoneRange) : (rangeZones r).Pairwise (· < ·) :=
  List.Pairwise.filter _ List.pairwise_lt_range

theorem mem_travelOrder {a b z : Nat} : z ∈ travelOrder a b ↔ z < 16 ∧ inRange (spanOf a b) z = true := by
  unfold travelOrder
  split
  · rw [mem_rangeZones, inRange_iff]
    dsimp only [spanOf]
    omega
  · rw [List.mem_reverse, mem_rangeZones, inRange_iff]
    dsimp only [spanOf]
    omega

/-- The zone comes before the other on the way from one zone to another. -/
def metBefore (a b x z : Nat) : Prop := if a ≤ b then x < z else z < x

theorem travelOrder_ordered (a b : Nat) : (travelOrder a b).Pairwise (metBefore a b) := by
  unfold travelOrder metBefore
  split
  · exact rangeZones_ascending _
  · exact List.pairwise_reverse.2 (rangeZones_ascending _)

/-- The first element of an ordered list that a property picks out. -/
theorem find?_of_ordered {α : Type} {r : α → α → Prop} {p : α → Bool} {l : List α} {z : α}
    (hordered : l.Pairwise r) (hz : z ∈ l) (hp : p z = true)
    (hfirst : ∀ x ∈ l, r x z → p x = false) : l.find? p = some z := by
  rw [List.find?_eq_some_iff_append]
  obtain ⟨before, rest, rfl⟩ := List.append_of_mem hz
  refine ⟨hp, before, rest, rfl, fun x hx => ?_⟩
  have hbefore : r x z := (List.pairwise_append.1 hordered).2.2 x hx z List.mem_cons_self
  rw [hfirst x (List.mem_append_left _ hx) hbefore]
  rfl

theorem firstBlocking_eq {s : State} {w : WaitingClaim} {z : Nat} (h : firstBlocker s w z) :
    s.firstBlocking w = z := by
  obtain ⟨cur, hcur, hz, hin, hblocks, hfirst⟩ := h
  have hspan : s.claimSpan w = spanOf cur w.target := by rw [State.claimSpan, hcur]
  rw [hspan] at hin hfirst
  have hfind : (travelOrder cur w.target).find? (fun k => !s.claimable w.carriage false k) = some z := by
    refine find?_of_ordered (travelOrder_ordered cur w.target) (mem_travelOrder.2 ⟨hz, hin⟩) ?_ ?_
    · rw [hblocks]
      rfl
    · intro k hk hbefore
      obtain ⟨hk16, hkin⟩ := mem_travelOrder.1 hk
      rw [hfirst k hk16 hkin hbefore]
      rfl
  rw [State.firstBlocking, hcur]
  exact congrArg (·.getD w.target) hfind

/-! ### CLAIM STALL -/

section
variable {s : State} {w : WaitingClaim}

theorem carriage_of_claimOf {c : Carriage} (h : s.claimOf c = some w) : w.carriage = c :=
  of_decide_eq_true (List.find?_some (p := fun x : WaitingClaim => decide (x.carriage = c)) h)

theorem stallClaim_eq (h : s.claimOf w.carriage = some w) {z : Nat} (hz : firstBlocker s w z) :
    s.stallClaim w = stalledAt s w z := by
  rw [State.stallClaim, h, stalledAt, firstBlocking_eq hz]
  rfl

end

end Sys2Proof.Machine
end

section
/-! A carriage ordered aside: make-way moves and clear-outs (O18, O38). -/

namespace Sys2Proof.Machine

/-! ### A step handed to a ready drive -/

/-- A step handed to a drive with a READY link and nothing in flight goes to it (R123). -/
theorem handStep_sends {s : State} {c : Carriage} (hcurrent : (s.pt c).current = none)
    (hlink : (s.pt c).link = .ready) (x : Step) : s.handStep c x = s.modPort c fun d =>
      { d with current := some x, sent := d.sent ++ [stepCmd .current x] } := by
  have hready : ((s.modPort c fun d => { d with current := some x }).pt c).link = .ready := by
    rw [modPort_pt_self]
    exact hlink
  have hsent (d : DrivePort) (hd : d.link = .ready) (k : DriveCmd) : sentTo d k = d.sent ++ [k] :=
    if_neg (by rw [hd]; exact LinkState.noConfusion)
  rw [State.handStep, hcurrent]
  dsimp only
  rw [State.sendStep, if_pos hready, send_eq, modPort_modPort]
  have hport : ∀ f g : DrivePort → DrivePort, f (s.pt c) = g (s.pt c) → s.modPort c f = s.modPort c g :=
    fun f g h => by rw [State.modPort, State.modPort, h]
  refine hport _ _ ?_
  dsimp only
  rw [hsent { s.pt c with current := some x } hlink]

/-! ### MOVING -/

/-- An examination comes due, as when the other carriage takes a notice that changes nothing. -/
theorem dueExam_nudged (s : State) (d : Carriage) :
    s.dueExam = s.nudged d (s.sq d).latched { s.todo with exam := true } := by
  have hseq : (if (s.sq d).state = .held then { s.sq d with latched := (s.sq d).latched } else s.sq d)
      = s.sq d := ite_self _
  rw [State.nudged, hseq, State.sq, set_get]
  rfl

theorem nudged_modSeq_dueExam (s : State) (c : Carriage) (f : Sequencer → Sequencer) (l : Latched) (k : Todo) :
    ((s.dueExam.nudged (other c) l k).modSeq c f).dueExam
      = (s.modSeq c f).nudged (other c) l { k with exam := true } := by
  cases c <;> rfl

/-- A carriage goes MOVING (R92, R98); the other one may take notice. -/
theorem setMoving_nudged (s : State) (c : Carriage) (f : Sequencer → Sequencer) :
    ∃ l k, ((s.setCarState c .moving).modSeq c f).dueExam
        = (s.modSeq c fun q => f { q with state := .moving }).nudged (other c) l k
      ∧ ((s.sq (other c)).state.unmoved = true → k = { s.todo with exam := true }) := by
  by_cases hsame : (s.sq c).state = .moving
  · have hfun : (s.modSeq c fun q => f { q with state := .moving }) = s.modSeq c f :=
      modSeq_congr (by rw [← hsame])
    rw [State.setCarState, if_pos hsame, hfun, dueExam_nudged _ (other c)]
    exact ⟨_, _, rfl, fun _ => rfl⟩
  · have hset : s.setCarState c .moving = ((s.modSeq c fun q => { q with state := .moving }).dueExam).nudgeBlocked
        (other c) fun l => { l with release := true } := if_neg hsame
    by_cases hother : (s.sq (other c)).state.unmoved = true
    · have hmoves : ((s.setCarState c .moving).modSeq c f).dueExam
          = (s.modSeq c fun q => f { q with state := .moving }).dueExam := by
        rw [setCarState_eq hother hsame]
        exact (congrArg State.dueExam (modSeq_modSeq s c (fun q => { q with state := .moving }) f) :)
      rw [hmoves, dueExam_nudged _ (other c)]
      exact ⟨_, _, rfl, fun _ => rfl⟩
    · obtain ⟨l, k, hnudged, -⟩ := nudgeBlocked_nudged ((s.modSeq c fun q => { q with state := .moving }).dueExam)
        (other c) fun l => { l with release := true }
      refine ⟨l, { k with exam := true }, ?_, fun h => absurd h hother⟩
      rw [hset, hnudged, nudged_modSeq_dueExam, modSeq_modSeq]

/-! ### The ordered move -/

theorem middle_eq (s : State) (z : Zone) : s.cell.middle z.val = midZone s z := by
  unfold CellMap.middle midZone
  split
  · rfl
  · next h =>
    have hlast : z = 15 := Fin.ext (by show z.val = 15; omega)
    subst hlast
    rfl

/-- The claim of an ordered move is granted (R98): the span is the carriage's, its move is recorded and its
waiting claim withdrawn. -/
def State.claimedAside (s : State) (o : Carriage) (kind : MoveKind) (cur : Nat) (z : Zone) : State :=
  { s with
    arb := { s.arb with
      zones := (s.holdZones o (inRange (spanOf cur z.val))).arb.zones
      records := s.arb.records.set o { s.arec o with ordered := some ⟨kind, z.val⟩ }
      waiting := s.arb.waiting.filter fun w => w.carriage ≠ o }
    todo := { s.todo with exam := s.todo.exam || (s.claimOf o).isSome } }

/-- The TRAVEL of an ordered move. -/
def State.stepAside (s : State) (o : Carriage) (z : Zone) (y : Nat) : Step :=
  .travel (midZone s z) y ((s.sq o).load.map (·.profile.floor))

/-- The carriage of an ordered move is MOVING, and no longer at an INFEED place (R98). -/
def State.movesAside (s : State) (o : Carriage) (kind : MoveKind) (cur : Nat) (z : Zone) : State :=
  { s.claimedAside o kind cur z with
    seq := s.seq.set o { s.sq o with state := .moving, atInfeed := false } }

/-- An ordered move is on its way (R98): the TRAVEL has gone to the drive. -/
def State.sentAside (s : State) (o : Carriage) (kind : MoveKind) (cur : Nat) (z : Zone) (y : Nat) : State :=
  { s.movesAside o kind cur z with
    port := s.port.set o { s.pt o with
      current := some (s.stepAside o z y)
      sent := (s.pt o).sent ++ [stepCmd .current (s.stepAside o z y)] } }

section
variable {s : State} {o : Carriage} {kind : MoveKind} {cur y : Nat} {z : Zone}

theorem claimedAside_eq : ((s.withdrawClaim o).holdZones o (inRange (spanOf cur z.val))).modRec o
    (fun r => { r with ordered := some ⟨kind, z.val⟩ }) = s.claimedAside o kind cur z := by
  rw [withdrawClaim_eq]
  rfl

/-- The step of an ordered move, handed by the state it finds. -/
def State.handAside (s : State) (o : Carriage) (z : Zone) (y : Nat) : State :=
  s.handStep o (.travel (s.cell.middle z.val) y (s.sq o).loadFloor)

theorem orderMove_hands (hzone : (s.arec o).zone = some cur) {x : Nat}
    (hpos : (s.pt o).position = some ⟨x, y⟩) (hin : s.posZone ⟨x, y⟩ = cur)
    (hspan : s.spanClaimable o (kind = .clearOut) (spanOf cur z.val) = true) :
    s.orderMove o kind (some z.val) = .moved (((((s.claimedAside o kind cur z).setCarState o .moving).modSeq o
      fun q => { q with atInfeed := false }).dueExam).handAside o z y) := by
  have hstrayed : s.strayed o = none := strayed_none hzone fun p hp => by
    rw [hpos] at hp
    exact Option.some.inj hp ▸ hin
  have hreach : (decide (z.val ≤ 15) && s.spanClaimable o (kind = .clearOut) (spanOf cur z.val)) = true := by
    rw [hspan, Bool.and_true]
    exact decide_eq_true (Nat.le_of_lt_succ z.isLt)
  simp only [State.orderMove, hzone, hreach, hstrayed, hpos, if_true]
  rw [claimedAside_eq]
  rfl

theorem handAside_eq (hcurrent : (s.pt o).current = none) (hlink : (s.pt o).link = .ready) :
    s.handAside o z y = s.modPort o fun d => { d with
      current := some (s.stepAside o z y)
      sent := d.sent ++ [stepCmd .current (s.stepAside o z y)] } := by
  have hstep : Step.travel (s.cell.middle z.val) y (s.sq o).loadFloor = s.stepAside o z y := by
    rw [State.stepAside, ← middle_eq]
    rfl
  rw [State.handAside, hstep, handStep_sends hcurrent hlink]

theorem handAside_sends (hcurrent : (s.pt o).current = none) (hlink : (s.pt o).link = .ready) (l : Latched)
    (k : Todo) : ((s.movesAside o kind cur z).nudged (other o) l k).handAside o z y
      = (s.sentAside o kind cur z y).nudged (other o) l k := by
  have hport : ((s.movesAside o kind cur z).nudged (other o) l k).port = s.port := by
    simp only [State.nudged, State.movesAside, State.claimedAside]
  have hcell : ((s.movesAside o kind cur z).nudged (other o) l k).cell = s.cell := by
    simp only [State.nudged, State.movesAside, State.claimedAside]
  have hsq : (((s.movesAside o kind cur z).nudged (other o) l k).sq o).load = (s.sq o).load := by
    simp only [State.nudged, State.movesAside, State.sq, get_other_set, get_set_self]
  have hstep : ((s.movesAside o kind cur z).nudged (other o) l k).stepAside o z y = s.stepAside o z y := by
    rw [State.stepAside, State.stepAside, midZone, midZone, hcell, hsq]
  have hsent : (s.sentAside o kind cur z y).nudged (other o) l k
      = { (s.movesAside o kind cur z).nudged (other o) l k with
        port := s.port.set o { s.pt o with
          current := some (s.stepAside o z y)
          sent := (s.pt o).sent ++ [stepCmd .current (s.stepAside o z y)] } } := rfl
  rw [hsent, ← hstep, State.pt, ← hport]
  rw [State.pt, ← hport] at hcurrent hlink
  generalize (s.movesAside o kind cur z).nudged (other o) l k = u at *
  exact handAside_eq hcurrent hlink

/-- A carriage that stands is ordered aside where its span is claimable (R98). -/
theorem orderMove_moves (hstands : standsIn s o cur y)
    (hspan : s.spanClaimable o (kind = .clearOut) (spanOf cur z.val) = true) :
    ∃ l k, s.orderMove o kind (some z.val) = .moved ((s.sentAside o kind cur z y).nudged (other o) l k)
      ∧ ((s.sq (other o)).state.unmoved = true → k = { s.todo with exam := true }) := by
  obtain ⟨hzone, hcurrent, hlink, x, hpos, hin⟩ := hstands
  obtain ⟨l, k, hmoves, htodo⟩ := setMoving_nudged (s.claimedAside o kind cur z) o
    fun q => { q with atInfeed := false }
  refine ⟨l, k, ?_, htodo⟩
  rw [orderMove_hands hzone hpos hin hspan, hmoves]
  exact congrArg Ordered.moved (handAside_sends hcurrent hlink l k)

/-- An ordered move that is granted no span is withheld (R98, R105). -/
theorem orderMove_withheld (hzone : (s.arec o).zone = some cur) {target : Option Nat}
    (h : ∀ z : Zone, target = some z.val → s.spanClaimable o (kind = .clearOut) (spanOf cur z.val) = false) :
    s.orderMove o kind target = .withheld := by
  unfold State.orderMove
  rw [hzone]
  split
  · next z cur' hcur =>
    cases hcur
    refine if_neg ?_
    rw [Bool.and_eq_true, decide_eq_true_eq]
    rintro ⟨hz, hspan⟩
    rw [h ⟨z, Nat.lt_succ_of_le hz⟩ rfl] at hspan
    exact Bool.false_ne_true hspan
  · rfl

end

end Sys2Proof.Machine
end

section
/-! Claims that the other carriage blocks: make-way, yield and stall (O18). -/

namespace Sys2Proof.Machine

/-! ### Waiting claims after a change -/

section
variable {s : State}

/-- The stall flag of a waiting claim is set or cleared. -/
theorem claimOf_modClaim (s : State) (c d : Carriage) (b : Bool) :
    (s.modClaim c fun y => { y with stalled := b }).claimOf d
      = (s.claimOf d).map fun y => if y.carriage = c then { y with stalled := b } else y := by
  have hcarriage (y : WaitingClaim) :
      (if y.carriage = c then { y with stalled := b } else y).carriage = y.carriage := by
    split <;> rfl
  rw [State.claimOf, State.claimOf, State.modClaim, List.find?_map]
  simp only [Function.comp_def, hcarriage]

theorem claimOf_congr {s u : State} (h : u.arb.waiting = s.arb.waiting) (c : Carriage) :
    u.claimOf c = s.claimOf c := by
  rw [State.claimOf, State.claimOf, h]

theorem claimOf_withdrawn (s : State) (c : Carriage) :
    ({ s with arb := { s.arb with waiting := s.arb.waiting.filter fun w => w.carriage ≠ c } } : State).claimOf c
      = none := by
  rw [State.claimOf, List.find?_eq_none]
  intro w hw
  rw [decide_eq_true_eq]
  exact of_decide_eq_true (List.mem_filter.1 hw).2

theorem claimOf_withdrawn_other (s : State) {c d : Carriage} (h : d ≠ c) :
    ({ s with arb := { s.arb with waiting := s.arb.waiting.filter fun w => w.carriage ≠ c } } : State).claimOf d
      = s.claimOf d := by
  rw [State.claimOf, State.claimOf, List.find?_filter]
  refine congrArg (List.find? · s.arb.waiting) (funext fun w => ?_)
  by_cases hw : w.carriage = d
  · simp [hw, h]
  · simp [hw]

end

/-! ### A move ordered aside -/

section
variable {s : State} {o : Carriage} {kind : MoveKind} {cur y : Nat} {z : Zone}

theorem sentAside_waiting (l : Latched) (k : Todo) :
    ((s.sentAside o kind cur z y).nudged (other o) l k).arb.waiting
      = ({ s with arb := { s.arb with
        waiting := s.arb.waiting.filter fun w => w.carriage ≠ o } } : State).arb.waiting := by
  simp only [State.nudged, State.sentAside, State.movesAside, State.claimedAside]

theorem sentAside_ordered (l : Latched) (k : Todo) :
    orderedAside s ((s.sentAside o kind cur z y).nudged (other o) l k) o kind cur z y := by
  refine ⟨fun x => ?_, ?_, ?_, ?_, ?_⟩
  · have hin : inRange (spanOf cur z.val) x.val = true ↔ min cur z.val ≤ x.val ∧ x.val ≤ max cur z.val :=
      inRange_iff ..
    have hzones : ((s.sentAside o kind cur z y).nudged (other o) l k).arb.zones
        = (s.holdZones o (inRange (spanOf cur z.val))).arb.zones := by
      simp only [State.nudged, State.sentAside, State.movesAside, State.claimedAside]
    rw [hzones]
    simp only [State.holdZones, mapZones_arb, Fin.getElem_fin, Vector.getElem_ofFn, hin]
  · simp only [State.arec, State.nudged, State.sentAside, State.movesAside, State.claimedAside, get_set_self]
  · exact (claimOf_congr (sentAside_waiting l k) o).trans (claimOf_withdrawn s o)
  · simp only [State.sq, State.nudged, State.sentAside, State.movesAside, get_set_self, get_other_set]
  · simp only [State.pt, State.nudged, State.sentAside, get_set_self]
    rfl

/-- The other carriage's stall flag may be set or cleared after a move is ordered. -/
theorem orderedAside_modClaim {t : State} (h : orderedAside s t o kind cur z y) (c : Carriage) (b : Bool) :
    orderedAside s (t.modClaim c fun x => { x with stalled := b }) o kind cur z y := by
  obtain ⟨hzones, hrec, hclaim, hseq, hport⟩ := h
  refine ⟨hzones, hrec, ?_, hseq, hport⟩
  rw [claimOf_modClaim, hclaim]
  rfl

end

theorem makeWayTarget_iff {o : Carriage} {r : ZoneRange} {z : Zone} :
    makeWayTarget o r = some z.val ↔ asideZone o r = some z := by
  have hz := z.isLt
  cases o with
  | A =>
    simp only [makeWayTarget, asideZone, Option.ite_none_left_eq_some, Option.dite_none_right_eq_some,
      Option.some.injEq, Fin.ext_iff]
    exact ⟨fun h => ⟨by omega, h.2⟩, fun ⟨h, e⟩ => ⟨by omega, e⟩⟩
  | B =>
    simp only [makeWayTarget, asideZone, Option.dite_none_right_eq_some, Option.some.injEq, Fin.ext_iff]
    exact ⟨fun h => ⟨by omega, h⟩, fun ⟨_, e⟩ => e⟩

theorem mustLeave_iff {s : State} {o : Carriage} :
    s.mustLeave o = true ↔ ∃ k < 16, s.holder k = some o ∧ s.awaited k = true := by
  simp only [State.mustLeave, List.any_eq_true, mem_heldZones, and_assoc]

/-! ### The way made -/

section
variable {s : State} {o : Carriage} {w : WaitingClaim}

theorem makeWay_made (hclaim : s.claimOf w.carriage = some w) (hother : w.carriage = other o)
    {stalls : List WaitingClaim} {stalled : State → Prop}
    (hstalls : stalled (stalls.foldl (fun t x => t.stallClaim x) s)) :
    wayMade s (s.makeWay o w stalls) o w stalled := by
  refine ⟨fun hleaves => if_pos (mustLeave_iff.2 hleaves), fun hstays cur y z hstands hgranted => ?_,
    fun hstays cur y hstands hnone => ?_⟩
  · obtain ⟨htarget, hspan⟩ := hgranted
    obtain ⟨l, k, hmoved, -⟩ := orderMove_moves (kind := .makeWay) hstands hspan
    rw [State.makeWay, if_neg (mt mustLeave_iff.1 hstays), makeWayTarget_iff.2 htarget, hmoved]
    refine ⟨orderedAside_modClaim (sentAside_ordered l k) w.carriage false, ?_⟩
    have hkept : ((s.sentAside o .makeWay cur z y).nudged (other o) l k).claimOf w.carriage = some w := by
      rw [← hclaim]
      exact (claimOf_congr (sentAside_waiting l k) w.carriage).trans
        (claimOf_withdrawn_other s (by rw [hother]; cases o <;> decide))
    dsimp only
    rw [claimOf_modClaim, hkept, Option.map_some, if_pos rfl]
  · have hwithheld : s.orderMove o .makeWay (makeWayTarget o (s.claimSpan w)) = .withheld :=
      orderMove_withheld hstands.1 fun z hz => Bool.eq_false_iff.2 fun hspan =>
        hnone z ⟨makeWayTarget_iff.1 hz, hspan⟩
    rw [State.makeWay, if_neg (mt mustLeave_iff.1 hstays), hwithheld]
    exact hstalls

end

/-! ### CLAIM STALL leaves what blocks a claim -/

/-- What the first blocking zone of a claim is read from is kept. -/
structure SameRail (s u : State) : Prop where
  zones : u.arb.zones = s.arb.zones
  gates : u.arb.gates = s.arb.gates
  host : u.arb.host = s.arb.host
  records : u.arb.records = s.arb.records
  seq : u.seq = s.seq

namespace SameRail
variable {s u : State} (h : SameRail s u)
include h

theorem arec (c : Carriage) : u.arec c = s.arec c := congrArg (PerCarriage.get · c) h.records

theorem claimable (c : Carriage) (b : Bool) (z : Nat) : u.claimable c b z = s.claimable c b z := by
  have hholder : u.holder z = s.holder z := by rw [State.holder, State.holder, h.zones]
  have hclosed : u.zoneClosed z = s.zoneClosed z := by rw [State.zoneClosed, State.zoneClosed, h.zones]
  have hawaited : u.awaited z = s.awaited z := by rw [State.awaited, State.awaited, h.gates, h.host]
  have hsq : u.sq (other c) = s.sq (other c) := by rw [State.sq, State.sq, h.seq]
  rw [State.claimable, State.claimable, State.blockedOther, State.blockedOther, State.blockedHard,
    State.blockedHard, hholder, hclosed, hawaited, hsq, h.arec]

theorem blocks {w : WaitingClaim} {z : Nat} (hz : firstBlocker s w z) : firstBlocker u w z := by
  have hspan : u.claimSpan w = s.claimSpan w := by rw [State.claimSpan, State.claimSpan, h.arec]
  unfold firstBlocker
  simp only [h.arec, hspan, h.claimable]
  exact hz

end SameRail

section
variable {s : State} {w v : WaitingClaim} {x z : Nat}

theorem stalledAt_rail : SameRail s (stalledAt s w z) := by
  unfold stalledAt
  split
  · exact ⟨rfl, rfl, rfl, rfl, rfl⟩
  · rw [raise_eq_reporting]
    exact ⟨rfl, rfl, rfl, rfl, rfl⟩

theorem stalledAt_claimOf_other (hv : s.claimOf v.carriage = some v) (hne : v.carriage ≠ w.carriage) :
    (stalledAt s w z).claimOf v.carriage = some v := by
  unfold stalledAt
  split
  · exact hv
  · have harb (t : State) : t.arb = (s.modClaim w.carriage fun y => { y with stalled := true }).arb →
        t.claimOf v.carriage = some v := fun h => by
      have hclaim := claimOf_modClaim s w.carriage v.carriage true
      rw [hv, Option.map_some, if_neg hne] at hclaim
      rw [← hclaim, State.claimOf, State.claimOf, h]
    exact harb _ (raise_arb ..)

/-- Both claims stall, one after the other (R97, R99). -/
theorem stallClaims_both (hw : s.claimOf w.carriage = some w) (hv : s.claimOf v.carriage = some v)
    (hne : v.carriage ≠ w.carriage) (hx : firstBlocker s w x) (hz : firstBlocker s v z) :
    [w, v].foldl (fun t y => t.stallClaim y) s = stalledAt (stalledAt s w x) v z := by
  rw [List.foldl_cons, List.foldl_cons, List.foldl_nil, stallClaim_eq hw hx]
  exact stallClaim_eq (stalledAt_claimOf_other hv hne) (stalledAt_rail.blocks hz)

end

end Sys2Proof.Machine
end

section
/-! A claim granted or waiting (O18). -/

namespace Sys2Proof.Machine

/-! ### A claim that only the other carriage blocks -/

section
variable {s : State} {w v : WaitingClaim} (hclaim : s.claimOf w.carriage = some w)
include hclaim

/-- A claim is helped only where the other carriage alone blocks it (R96). -/
theorem helpClaim_none (h : ¬(heldAcross s w ∧ freeOfOthers s w)) : s.helpClaim w = s := by
  have hstop : (s.claimGrantable w || !s.freeable w) = true := by
    by_cases hfree : freeOfOthers s w
    · rw [(claimGrantable_of_free hfree).2 fun hheld => h ⟨hheld, hfree⟩, Bool.true_or]
    · rw [Bool.eq_false_iff.2 (mt freeable_iff.1 hfree), Bool.not_false, Bool.or_true]
  rw [State.helpClaim, hclaim]
  exact if_pos hstop

section
variable (hheld : heldAcross s w) (hfree : freeOfOthers s w)
include hheld hfree

theorem helpClaim_blocked : s.helpClaim w =
    if (s.sq (other w.carriage)).state.immovable then s.stallClaim w
    else if (s.arec (other w.carriage)).ordered.isSome then s
    else
      match (s.sq (other w.carriage)).state, s.claimOf (other w.carriage) with
      | .claiming, some y => s.yieldFor w y
      | _, _ => if s.movable (other w.carriage) then s.makeWay (other w.carriage) w [w] else s := by
  have hgo : (s.claimGrantable w || !s.freeable w) = false := by
    rw [Bool.eq_false_iff.2 fun h => (claimGrantable_of_free hfree).1 h hheld, freeable_iff.2 hfree]
    rfl
  rw [State.helpClaim, hclaim]
  dsimp only
  exact if_neg (Bool.eq_false_iff.1 hgo)

/-- A claim stalls on a carriage that is HELD or FAULTED (R96, R117). -/
theorem helpClaim_stalls (hst : (s.sq (other w.carriage)).state = .held
      ∨ (s.sq (other w.carriage)).state = .faulted) {z : Nat} (hz : firstBlocker s w z) :
    s.helpClaim w = stalledAt s w z := by
  have himmovable : (s.sq (other w.carriage)).state.immovable = true := by
    rcases hst with h | h <;> rw [h] <;> rfl
  rw [helpClaim_blocked hclaim hheld hfree, if_pos himmovable, stallClaim_eq hclaim hz]

section
variable (hmovable : (s.sq (other w.carriage)).state.immovable = false)
include hmovable

/-- A claim waits on a carriage that moves, or neither stands nor claims (R96). -/
theorem helpClaim_waits (h : (s.arec (other w.carriage)).ordered ≠ none
      ∨ ((s.sq (other w.carriage)).state ≠ .claiming ∧ s.movable (other w.carriage) = false)) :
    s.helpClaim w = s := by
  rw [helpClaim_blocked hclaim hheld hfree, if_neg (Bool.eq_false_iff.1 hmovable)]
  rcases h with hmoves | ⟨hclaiming, hstays⟩
  · exact if_pos (Option.isSome_iff_ne_none.2 hmoves)
  · split
    · rfl
    · split
      · next hst _ => exact absurd hst hclaiming
      · exact if_neg (Bool.eq_false_iff.1 hstays)

section
variable (hunordered : (s.arec (other w.carriage)).ordered = none)
include hunordered

/-- A carriage that stands is needed out of the way (R96). -/
theorem helpClaim_makesWay (hst : (s.sq (other w.carriage)).state = .idle
      ∨ (s.sq (other w.carriage)).state = .sawWait ∨ (s.sq (other w.carriage)).state = .blocked) :
    s.helpClaim w = s.makeWay (other w.carriage) w [w] := by
  have hmoves : s.movable (other w.carriage) = true := by
    rw [State.movable, hunordered]
    rcases hst with h | h | h <;> rw [h] <;> rfl
  rw [helpClaim_blocked hclaim hheld hfree, if_neg (Bool.eq_false_iff.1 hmovable),
    if_neg (by rw [hunordered]; exact Bool.false_ne_true)]
  split
  · next hclaiming _ =>
    rw [hclaiming] at hst
    exact absurd hst (by decide)
  · exact if_pos hmoves

/-- Two carriages that claim: one yields (R97). -/
theorem helpClaim_yields (hst : (s.sq (other w.carriage)).state = .claiming)
    (hv : s.claimOf (other w.carriage) = some v) : s.helpClaim w = s.yieldFor w v := by
  rw [helpClaim_blocked hclaim hheld hfree, if_neg (Bool.eq_false_iff.1 hmovable),
    if_neg (by rw [hunordered]; exact Bool.false_ne_true), hst, hv]

end

end

end

end

theorem immovable_eq_false {st : CarState} (hheld : st ≠ .held) (hfaulted : st ≠ .faulted) :
    st.immovable = false := by
  revert hheld hfaulted
  cases st <;> decide

theorem movable_eq_false {s : State} {c : Carriage} (hidle : (s.sq c).state ≠ .idle)
    (hsawWait : (s.sq c).state ≠ .sawWait) (hblocked : (s.sq c).state ≠ .blocked) : s.movable c = false := by
  rw [State.movable, decide_eq_false hidle, decide_eq_false hsawWait, decide_eq_false hblocked]
  rfl

/-! ### Which of two claims yields -/

theorem workClassCode_injective {a b : WorkClass} (h : workClassCode a = workClassCode b) : a = b := by
  revert h
  cases a <;> cases b <;> decide

section
variable {s : State} {w v : WaitingClaim}

/-- The claim at the head of the waiting order is the first of its carriage. -/
theorem claimOf_head {x : WaitingClaim} (h : s.arb.waiting.head? = some x) : s.claimOf x.carriage = some x := by
  obtain ⟨rest, hrest⟩ := List.head?_eq_some_iff.1 h
  rw [State.claimOf, hrest]
  exact List.find?_cons_of_pos (decide_eq_true rfl)

section
variable (hw : s.claimOf w.carriage = some w) (hv : s.claimOf v.carriage = some v)
  (hne : v.carriage = other w.carriage)
include hw hv hne

/-- On equal class the claim that began waiting later yields (R97). -/
theorem yieldsTo_equal (heq : w.cls = v.cls) : s.yieldsTo w v = true ↔ s.arb.waiting.head? ≠ some w := by
  rw [State.yieldsTo, heq, if_neg (Nat.lt_irrefl _), if_neg (Nat.lt_irrefl _)]
  cases hhead : s.arb.waiting.head? with
  | none =>
    rw [List.head?_eq_none_iff] at hhead
    rw [State.claimOf, hhead] at hv
    exact absurd hv (by simp)
  | some x =>
    have hx := claimOf_head hhead
    rw [decide_eq_true_eq, ne_eq, Option.some.injEq]
    constructor
    · rintro hcarriage rfl
      rw [hcarriage] at hne
      exact absurd hne (by cases v.carriage <;> decide)
    · intro hdiffers
      by_contra hcarriage
      have hmine : x.carriage = w.carriage := by
        rw [hne] at hcarriage
        revert hcarriage
        cases x.carriage <;> cases w.carriage <;> decide
      rw [hmine, hw, Option.some.injEq] at hx
      exact hdiffers hx.symm

theorem yieldsTo_iff : s.yieldsTo w v = true ↔ workClassCode w.cls < workClassCode v.cls
    ∨ (w.cls = v.cls ∧ ¬s.arb.waiting.head? = some w) := by
  by_cases heq : w.cls = v.cls
  · rw [yieldsTo_equal hw hv hne heq, heq]
    exact ⟨fun h => .inr ⟨rfl, h⟩, fun h => h.elim (fun h => absurd h (Nat.lt_irrefl _)) And.right⟩
  · have hcode : workClassCode w.cls ≠ workClassCode v.cls := mt workClassCode_injective heq
    rw [State.yieldsTo]
    by_cases hlt : workClassCode w.cls < workClassCode v.cls
    · rw [if_pos hlt]
      exact iff_of_true rfl (.inl hlt)
    · rw [if_neg hlt, if_pos (by omega)]
      exact iff_of_false Bool.false_ne_true fun h => h.elim hlt fun h => heq h.1

/-- A yield (R97): the carriage that must, is ordered out of the other's way. -/
theorem yieldFor_made {stalled : State → Prop}
    (hstalls : stalled ([w, v].foldl (fun t y => t.stallClaim y) s)) :
    let yields := freeOfOthers s v ∧ (workClassCode w.cls < workClassCode v.cls
      ∨ (w.cls = v.cls ∧ ¬s.arb.waiting.head? = some w))
    (yields → wayMade s (s.yieldFor w v) w.carriage v stalled)
      ∧ (¬yields → wayMade s (s.yieldFor w v) v.carriage w stalled) := by
  have hyields : (s.freeable v && s.yieldsTo w v) = true ↔ freeOfOthers s v
      ∧ (workClassCode w.cls < workClassCode v.cls ∨ (w.cls = v.cls ∧ ¬s.arb.waiting.head? = some w)) := by
    rw [Bool.and_eq_true, freeable_iff, yieldsTo_iff hw hv hne]
  refine ⟨fun h => ?_, fun h => ?_⟩
  · rw [State.yieldFor, if_pos (hyields.2 h)]
    exact makeWay_made hv hne hstalls
  · rw [State.yieldFor, if_neg (mt hyields.1 h)]
    exact makeWay_made hw (by rw [hne, other_other]) hstalls

end

end

/-- Settles O18: a claim is granted at once or waits; an examination grants what it can; a claim that only the
other carriage blocks waits on it, stalls, or has it ordered out of the way. -/
theorem claimGrantedOrWaits : Obligations.ClaimGrantedOrWaits := by
  unfold Obligations.ClaimGrantedOrWaits
  refine ⟨fun s c cur target hzone hplace => claimMove_cases s c cur target hzone hplace, fun s => ?_,
    fun s c w hclaim => ?_⟩
  · simp only [← claimGrantable_iff]
    exact grantClaims_cases s
  · obtain rfl := carriage_of_claimOf hclaim
    have hback : w.carriage = other (other w.carriage) := (other_other _).symm
    dsimp only
    refine ⟨helpClaim_none hclaim, fun hheld hfree => ⟨fun z hst hz =>
      helpClaim_stalls hclaim hheld hfree hst hz, fun hnotHeld hnotFaulted hwaits => ?_,
      fun hst hunordered => ?_, fun v hst hunordered hv => ?_⟩⟩
    · refine helpClaim_waits hclaim hheld hfree (immovable_eq_false hnotHeld hnotFaulted)
        (hwaits.imp_right fun ⟨hidle, hsawWait, hblocked, hclaiming⟩ => ⟨hclaiming, ?_⟩)
      exact movable_eq_false hidle hsawWait hblocked
    · have hstands : (s.sq (other w.carriage)).state ≠ .held
          ∧ (s.sq (other w.carriage)).state ≠ .faulted := by
        rcases hst with h | h | h <;> rw [h] <;> decide
      have hmakes := helpClaim_makesWay hclaim hheld hfree
        (immovable_eq_false hstands.1 hstands.2) (not_not.1 hunordered) hst
      rw [hmakes]
      exact makeWay_made hclaim hback fun z hz => stallClaim_eq hclaim hz
    · have hyields := helpClaim_yields hclaim hheld hfree (v := v)
        (immovable_eq_false (by rw [hst]; decide) (by rw [hst]; decide)) (not_not.1 hunordered) hst hv
      have hcarriage : v.carriage = other w.carriage := carriage_of_claimOf hv
      have hmade := yieldFor_made (stalled := fun u => ∀ x z, firstBlocker s w x → firstBlocker s v z →
        u = stalledAt (stalledAt s w x) v z) hclaim (by rw [hcarriage]; exact hv) hcarriage
          fun x z hx hz => stallClaims_both hclaim (by rw [hcarriage]; exact hv)
            (by rw [hcarriage]; cases w.carriage <;> decide) hx hz
      rw [hcarriage] at hmade
      rw [hyields]
      exact hmade

end Sys2Proof.Machine
end

section
/-! The host's closures: ZONE CLOSE and ZONE OPEN taken, refused, and waited for (O38). -/

namespace Sys2Proof.Machine

/-! ### The range of a request -/

section
variable {f l : Byte}

theorem readRange_good (h : f.toNat ≤ l.toNat ∧ l.toNat ≤ 15) :
    readRange 1 f l = .range ⟨f.toNat, l.toNat⟩ := by
  rw [readRange, if_neg (by omega), if_neg (by omega), if_neg (by omega)]

theorem readRange_badFirst (h : 15 < f.toNat) : readRange 1 f l = .bad 1 := if_pos h

theorem readRange_badLast (hf : f.toNat ≤ 15) (h : 15 < l.toNat ∨ l.toNat < f.toNat) :
    readRange 1 f l = .bad 2 := by
  rw [readRange, if_neg (by omega)]
  split
  · rfl
  · exact if_pos (by omega)

section
variable {s : State}

theorem doZoneClose_bad {i : Nat} (h : readRange 1 f l = .bad i) : s.doZoneClose f l = (s, .badValue i) := by
  rw [State.doZoneClose, h]

theorem doZoneOpen_bad {i : Nat} (h : readRange 1 f l = .bad i) : s.doZoneOpen f l = (s, .badValue i) := by
  rw [State.doZoneOpen, h]

theorem doZoneClose_good (h : f.toNat ≤ l.toNat ∧ l.toNat ≤ 15) : s.doZoneClose f l =
    if s.arb.host.awaiting.isSome then (s, .refuse .notNow 0)
    else if s.rangeClear (some ⟨f.toNat, l.toNat⟩) then (s.closeHost ⟨f.toNat, l.toNat⟩, .accept [0])
    else (({ s with arb := { s.arb with host := ⟨some ⟨f.toNat, l.toNat⟩, false⟩ } } : State).dueExam,
      .accept [1]) := by
  rw [State.doZoneClose, readRange_good h]

theorem doZoneOpen_good (h : f.toNat ≤ l.toNat ∧ l.toNat ≤ 15) : s.doZoneOpen f l =
    (((s.removeSource .host (inRange ⟨f.toNat, l.toNat⟩)).withdrawHost ⟨f.toNat, l.toNat⟩).dueExam,
      .accept [byte ((rangeZones ⟨f.toNat, l.toNat⟩).filter s.hostClosed).length]) := by
  rw [State.doZoneOpen, readRange_good h]

end

end

/-! ### The host's closure on the zones -/

/-- The host's closure is on the zones of the range, or off them. -/
def State.hostSet (s : State) (f l : Nat) (b : Bool) : Vector ZoneRec 16 :=
  Vector.ofFn fun z : Fin 16 =>
    if decide (f ≤ z.val ∧ z.val ≤ l) then
      { s.arb.zones[z] with sources := s.arb.zones[z].sources.set 6 b }
    else s.arb.zones[z]

section
variable {s : State}

theorem inRange_decide (f l z : Nat) : inRange ⟨f, l⟩ z = decide (f ≤ z ∧ z ≤ l) := by
  rw [Bool.eq_iff_iff, inRange_iff, decide_eq_true_eq]

theorem addSource_host (f l : Nat) : s.addSource .host (inRange ⟨f, l⟩)
    = { s with arb := { s.arb with zones := s.hostSet f l true } } := by
  simp only [State.addSource, State.mapZones, State.hostSet, inRange_decide]
  rfl

theorem removeSource_host (f l : Nat) : s.removeSource .host (inRange ⟨f, l⟩)
    = { s with arb := { s.arb with zones := s.hostSet f l false } } := by
  simp only [State.removeSource, State.mapZones, State.hostSet, inRange_decide]
  rfl

/-- The host's closing of a clear range (R102). -/
def State.hostCloses (s : State) (f l : Nat) : State :=
  { s with arb := { s.arb with zones := s.hostSet f l true, host := ⟨none, false⟩ } }

theorem closeHost_eq (f l : Nat) :
    s.closeHost ⟨f, l⟩ = (s.hostCloses f l).raise .zoneClosed .host f := by
  rw [State.closeHost, addSource_host]
  rfl

/-- The host's opening of a range (R103). -/
def State.hostOpens (s : State) (f l : Nat) : State :=
  { s with arb := { s.arb with
    zones := s.hostSet f l false
    host := ⟨none, s.arb.host.stalled && s.arb.host.awaiting = none⟩ } }

theorem opens_eq {f l : Nat} (hoverlap : ∀ r, s.arb.host.awaiting = some r → r.first ≤ l ∧ f ≤ r.last) :
    (s.removeSource .host (inRange ⟨f, l⟩)).withdrawHost ⟨f, l⟩ = s.hostOpens f l := by
  rw [removeSource_host, State.withdrawHost, State.hostOpens]
  dsimp only
  cases hhost : s.arb.host.awaiting with
  | none =>
    have hkept : s.arb.host = ⟨none, s.arb.host.stalled && decide ((none : Option ZoneRange) = none)⟩ := by
      rw [decide_eq_true rfl, Bool.and_true, ← hhost]
    exact congrArg (fun h => ({ s with
      arb := { s.arb with zones := s.hostSet f l false, host := h } } : State)) hkept
  | some r =>
    have hover := hoverlap r hhost
    have hshared : rangesOverlap r ⟨f, l⟩ = true := (rangesOverlap_iff _ _).2 hover
    refine (if_pos hshared).trans ?_
    rw [decide_eq_false (Option.some_ne_none r), Bool.and_false]

theorem hostOpens_noClaims {f l : Nat} (hwait : s.arb.waiting = [])
    (hgates : ∀ g : Gate, s.arb.gates[g].isAwaiting = false) : ((s.hostOpens f l).dueExam).noClaims = true := by
  have harb : ((s.hostOpens f l).dueExam).arb.gates = s.arb.gates := rfl
  refine (noClaims_iff _).2 ⟨hwait, ?_, ?_, rfl⟩
  · rw [harb]
    exact hgates 0
  · rw [harb]
    exact hgates 1

theorem hostClosed_count (f l : Nat) : ((rangeZones ⟨f, l⟩).filter s.hostClosed).length
    = ((List.finRange 16).filter fun z : Fin 16 =>
        decide (f ≤ z.val ∧ z.val ≤ l) && s.arb.zones[z].sources[6]).length := by
  have hclosed (z : Fin 16) : s.hostClosed z.val = s.arb.zones[z].sources[6] := dif_pos z.isLt
  have hrange : List.range 16 = (List.finRange 16).map Fin.val := by decide
  rw [rangeZones, List.filter_filter, hrange, List.filter_map, List.length_map]
  simp only [Function.comp_def, hclosed, inRange_decide, Bool.and_comm]

end

/-! ### Bad ranges, and a closing that waits already -/

section
variable {s : State} {f l : Byte} (htakes : s.takesAtOnce = true)
include htakes

theorem zoneClose_refuses_bad {i : Nat} (h : readRange 1 f l = .bad i) :
    refuses (.zoneClose f l) s 21 3 (byte i) :=
  refuses_of_handle (q := .zoneClose f l) htakes rfl (doZoneClose_bad h)

theorem zoneOpen_refuses_bad {i : Nat} (h : readRange 1 f l = .bad i) :
    refuses (.zoneOpen f l) s 22 3 (byte i) :=
  refuses_of_handle (q := .zoneOpen f l) htakes rfl (doZoneOpen_bad h)

section
variable (hgood : f.toNat ≤ l.toNat ∧ l.toNat ≤ 15)
include hgood

theorem zoneClose_refuses_awaiting (h : s.arb.host.awaiting ≠ none) :
    refuses (.zoneClose f l) s 21 5 0 :=
  refuses_of_handle (q := .zoneClose f l) (why := .notNow) (i := 0) htakes rfl
    ((doZoneClose_good hgood).trans (if_pos (Option.isSome_iff_ne_none.2 h)))

theorem zoneClose_closes (hhost : s.arb.host.awaiting = none)
    (hclear : s.rangeClear (some ⟨f.toNat, l.toNat⟩) = true) :
    accepts (.zoneClose f l) s ((s.hostCloses f.toNat l.toNat).raise .zoneClosed .host f.toNat) 21 [0] := by
  have hunmoved := (Unmoved.refl (s.hostCloses f.toNat l.toNat)).raise .zoneClosed .host f.toNat
  refine accepts_of_rested (q := .zoneClose f l) htakes rfl ?_ ?_ (hunmoved.waiting.trans (takesAtOnce_waiting htakes))
  · have hcloses := closeHost_eq (s := s.withRequest (.zoneClose f l)) f.toNat l.toNat
    refine ((doZoneClose_good (s := s.withRequest (.zoneClose f l)) hgood).trans ((if_neg ?_).trans (if_pos hclear))).trans ?_
    · rw [withRequest_arb, hhost]
      exact Bool.false_ne_true
    · rw [hcloses, ← raise_withRequest]
      rfl
  · have hrested := takesAtOnce_rested htakes
    exact hunmoved.rested hrested

theorem zoneOpen_opens (hwait : s.arb.waiting = []) (hgates : ∀ g : Gate, s.arb.gates[g].isAwaiting = false)
    (hoverlap : ∀ r, s.arb.host.awaiting = some r → r.first ≤ l.toNat ∧ f.toNat ≤ r.last) :
    accepts (.zoneOpen f l) s (s.hostOpens f.toNat l.toNat) 22
      [byte ((rangeZones ⟨f.toNat, l.toNat⟩).filter s.hostClosed).length] := by
  have hopens := opens_eq (s := s.withRequest (.zoneOpen f l)) hoverlap
  have htodo := takesAtOnce_todo htakes
  refine accepts_of_settle (q := .zoneOpen f l) htakes rfl (doZoneOpen_good hgood) ?_
    (takesAtOnce_waiting htakes)
  rw [hopens, settle_noClaims _ (hostOpens_noClaims (s := s.withRequest (.zoneOpen f l)) hwait hgates)]
  · have hnone : { (s.hostOpens f.toNat l.toNat).withRequest (.zoneOpen f l) with todo := s.todo }
        = (s.hostOpens f.toNat l.toNat).withRequest (.zoneOpen f l) := rfl
    rw [← hnone, htodo]
    rfl
  · exact congrArg Todo.blocked htodo
  · exact congrArg Todo.wait htodo

end

end

end Sys2Proof.Machine
end

section
/-! A closing of the host that waits: over carriages in motion, and over one that stands (O38). -/

namespace Sys2Proof.Machine

/-! ### A closing of the host alone -/

/-- The host's closing waits for its range to clear, and no other closing waits (R102). -/
structure HostAwaits (s : State) (r : ZoneRange) : Prop where
  gates : ∀ g : Gate, s.arb.gates[g].isAwaiting = false
  host : s.arb.host.awaiting = some r
  held : s.rangeClear (some r) = false

namespace HostAwaits
variable {s : State} {r : ZoneRange} (h : HostAwaits s r)
include h

theorem judgeClosings : s.judgeClosings = (s.clearOut .A).clearOut .B := by
  rw [State.judgeClosings, judgeGate_noClaims s 0 (h.gates 0), judgeGate_noClaims s 1 (h.gates 1),
    State.judgeHost, h.host]
  dsimp only
  rw [h.held]
  rfl

theorem closingsOver {c : Carriage} (hover : (s.heldZones c).any (inRange r) = true) :
    s.closingsOver c = [(.host, r)] := by
  simp only [State.closingsOver, State.awaitingRange, List.filterMap_cons, List.filterMap_nil,
    isAwaiting_range (h.gates 0), isAwaiting_range (h.gates 1), h.host, hover, if_true]

/-- A closing over carriages in motion waits (R105). -/
theorem judges_motion (hmoves : ∀ c, (s.sq c).state = .moving ∨ (s.sq c).state = .homing) :
    s.judgeClosings = s := by
  rw [h.judgeClosings, clearOut_moves (hmoves .A), clearOut_moves (hmoves .B)]

/-- A closing with one carriage in motion: the other is judged for a clear-out (R105). -/
theorem judges_one {c : Carriage} (hmoves : (s.sq (other c)).state = .moving)
    (hstays : ((s.clearOut c).sq (other c)).state = .moving) : s.judgeClosings = s.clearOut c := by
  rw [h.judgeClosings]
  cases c with
  | A => exact clearOut_moves (.inl hstays)
  | B => rw [clearOut_moves (s := s) (c := .A) (.inl hmoves)]

end HostAwaits

/-! ### Two examinations -/

/-- A step whose examination causes one more. -/
theorem settle_passes {s t u : State} (hdue : s.todo = { Todo.none with exam := true })
    (hpass : s.examPass = t) (hagain : t.todo = { Todo.none with exam := true }) (hlast : t.examPass = u)
    (hu : u.todo = Todo.none) : s.settle = u := by
  have hexam : s.examine = u := by
    have hfirst : s.examine = State.examineN 31 s.examPass := if_pos (by rw [hdue])
    have hsecond : State.examineN 31 t = State.examineN 30 t.examPass := if_pos (by rw [hagain])
    have hthird : State.examineN 30 u = u := if_neg (by rw [hu]; exact Bool.false_ne_true)
    rw [hfirst, hpass, hsecond, hlast, hthird]
  unfold State.settle
  unfold State.settleN
  rw [hexam]
  dsimp only
  rw [hu]
  rfl

/-! ### The target of a clear-out -/

theorem lastBelow : ∀ f < 16, ((List.range 16).filter fun z => decide (z < f)).getLast?
    = if 1 ≤ f then some (f - 1) else none := by decide

theorem firstAbove : ∀ l < 16, ((List.range 16).filter fun z => decide (l < z)).head?
    = if l < 15 then some (l + 1) else none := by decide

/-- The nearest zone beside a range on the home side of a carriage that stands in it (R105). -/
theorem clearOutTarget_eq (c : Carriage) {cur f l : Nat} (hcur : f ≤ cur ∧ cur ≤ l) (hl : l ≤ 15) :
    clearOutTarget c cur [⟨f, l⟩] = match c with
      | .A => if 1 ≤ f then some (f - 1) else none
      | .B => if l < 15 then some (l + 1) else none := by
  cases c with
  | A =>
    have hbelow : (fun z => decide (z < cur) && [(⟨f, l⟩ : ZoneRange)].all fun r => !inRange r z)
        = fun z => decide (z < f) := by
      funext z
      simp only [List.all_cons, List.all_nil, Bool.and_true, inRange_decide]
      rw [Bool.eq_iff_iff]
      simp only [Bool.and_eq_true, Bool.not_eq_true', decide_eq_true_eq, decide_eq_false_iff_not]
      omega
    exact (congrArg (fun p => ((List.range 16).filter p).getLast?) hbelow).trans (lastBelow f (by omega))
  | B =>
    have habove : (fun z => decide (cur < z) && [(⟨f, l⟩ : ZoneRange)].all fun r => !inRange r z)
        = fun z => decide (l < z) := by
      funext z
      simp only [List.all_cons, List.all_nil, Bool.and_true, inRange_decide]
      rw [Bool.eq_iff_iff]
      simp only [Bool.and_eq_true, Bool.not_eq_true', decide_eq_true_eq, decide_eq_false_iff_not]
      omega
    exact (congrArg (fun p => ((List.range 16).filter p).head?) habove).trans (firstAbove l (by omega))

/-- The zone a carriage is cleared out to, beside the range on its home side (R105). -/
def besideRange (c : Carriage) (f l : Nat) : Option Zone :=
  match c with
  | .A => if h : 1 ≤ f ∧ f ≤ 15 then some ⟨f - 1, by omega⟩ else none
  | .B => if h : l < 15 then some ⟨l + 1, by omega⟩ else none

theorem clearOutTarget_iff {c : Carriage} {cur f l : Nat} (hcur : f ≤ cur ∧ cur ≤ l) (hl : l ≤ 15) {z : Zone} :
    clearOutTarget c cur [⟨f, l⟩] = some z.val ↔ besideRange c f l = some z := by
  rw [clearOutTarget_eq c hcur hl]
  cases c with
  | A =>
    simp only [besideRange, Option.ite_none_right_eq_some, Option.dite_none_right_eq_some, Option.some.injEq,
      Fin.ext_iff]
    exact ⟨fun h => ⟨by omega, h.2⟩, fun ⟨h, e⟩ => ⟨h.1, e⟩⟩
  | B =>
    simp only [besideRange, Option.ite_none_right_eq_some, Option.dite_none_right_eq_some, Option.some.injEq,
      Fin.ext_iff]
    exact ⟨fun h => ⟨h.1, h.2⟩, fun ⟨h, e⟩ => ⟨h, e⟩⟩

end Sys2Proof.Machine
end

section
/-! A closing of the host over a carriage that stands: cleared out, or stalled (O38). -/

namespace Sys2Proof.Machine

/-! ### What a closing does to the carriage that stands in it -/

section
variable {s : State} {c : Carriage} {r : ZoneRange}

theorem stallClosing_host (h : s.arb.host.stalled = false) : s.stallClosing c (.host, r) = ({ s with
    arb := { s.arb with host := { s.arb.host with stalled := true } } } : State).raise .claimStall
      (.carriage c) r.first :=
  if_neg (by rw [State.closingStalled, h]; exact Bool.false_ne_true)

section
variable (hover : s.closingsOver c = [(.host, r)])
include hover

/-- A carriage that is HELD or FAULTED is not ordered out (R105, R117). -/
theorem clearOut_pinned (h : (s.sq c).state.immovable = true) :
    s.clearOut c = s.stallClosing c (.host, r) := by
  rw [State.clearOut, hover]
  exact if_pos h

/-- A carriage that stands idle or waits for a claim is ordered out (R105). -/
theorem clearOut_orders (hst : (s.sq c).state = .idle ∨ (s.sq c).state = .claiming)
    (hunordered : (s.arec c).ordered = none) : s.clearOut c = s.orderOut c [(.host, r)] := by
  have hstands : (decide ((s.sq c).state = .claiming) || s.movable c) = true := by
    rw [State.movable, hunordered]
    rcases hst with h | h <;> rw [h] <;> rfl
  have hordered : (s.arec c).ordered.isSome = false := by rw [hunordered]; rfl
  have hmovable : (s.sq c).state.immovable = false := by rcases hst with h | h <;> rw [h] <;> rfl
  rw [State.clearOut, hover]
  dsimp only
  rw [if_neg (Bool.eq_false_iff.1 hmovable), if_neg (Bool.eq_false_iff.1 hordered)]
  exact if_pos hstands

end

theorem orderOut_moves {cur : Nat} {t : State} (hcur : (s.arec c).zone = some cur)
    (hmoved : s.orderMove c .clearOut (clearOutTarget c cur [r]) = .moved t)
    (hhost : t.arb.host.stalled = false) : s.orderOut c [(.host, r)] = t := by
  have hkept : t.setClosingStall .host false = t := by
    have hsame : { t.arb.host with stalled := false } = t.arb.host := by rw [← hhost]
    exact congrArg (fun h => ({ t with arb := { t.arb with host := h } } : State)) hsame
  rw [State.orderOut, hcur]
  simp only [Option.getD_some, List.map_cons, List.map_nil, hmoved, List.foldl_cons, List.foldl_nil, hkept]

theorem orderOut_withheld {cur : Nat} (hcur : (s.arec c).zone = some cur)
    (hwithheld : s.orderMove c .clearOut (clearOutTarget c cur [r]) = .withheld) :
    s.orderOut c [(.host, r)] = (s.stallClosing c (.host, r)).renewClaim c := by
  rw [State.orderOut, hcur]
  simp only [Option.getD_some, List.map_cons, List.map_nil, hwithheld, List.foldl_cons, List.foldl_nil]

theorem renewClaim_reporting (u v : State) (c : Carriage) :
    (u.reporting v).renewClaim c = (u.renewClaim c).reporting v := by
  have hclaim : (u.reporting v).claimOf c = u.claimOf c := claimOf_congr (s := u) rfl c
  unfold State.renewClaim
  rw [hclaim]
  cases u.claimOf c <;> rfl

/-- The carriage's own waiting claim, if any, waits afresh (R94). -/
theorem renewClaim_own (h : s.arb.waiting = [] ∨ ∃ w, s.arb.waiting = [w] ∧ w.carriage = c) :
    s.renewClaim c = { s with
      arb := { s.arb with waiting := s.arb.waiting.map fun w => { w with stalled := false } } } := by
  rcases h with hnone | ⟨w, hone, hown⟩
  · have hsame : s.arb.waiting.map (fun w => { w with stalled := false }) = s.arb.waiting := by
      rw [hnone]
      rfl
    rw [State.renewClaim, claimOf_noWaiting hnone, hsame]
  · have hclaim : s.claimOf c = some w := by
      rw [State.claimOf, hone]
      exact List.find?_cons_of_pos (decide_eq_true hown)
    have hrenewed : (s.arb.waiting.filter fun x => x.carriage ≠ c) ++ [{ w with stalled := false }]
        = s.arb.waiting.map fun w => { w with stalled := false } := by
      rw [hone]
      simp [hown]
    rw [State.renewClaim, hclaim, ← hrenewed]

end

/-! ### A claim across a closing that waits -/

section
variable {s : State} {r : ZoneRange} {cur : Nat} (hhost : s.arb.host.awaiting = some r)
  (hin : inRange r cur = true)
include hhost hin

theorem awaited_host : s.awaited cur = true := by
  rw [State.awaited, hhost]
  exact Bool.or_eq_true_iff.2 (.inr hin)

/-- A claim from a zone of the range is not free (R91). -/
theorem not_free_of_awaited (hcur : cur < 16) {w : WaitingClaim} (hzone : (s.arec w.carriage).zone = some cur) :
    ¬freeOfOthers s w := by
  intro hfree
  have hspan : inRange (s.claimSpan w) cur = true := by
    rw [State.claimSpan, hzone, inRange_iff]
    exact ⟨min_le_left .., le_max_left ..⟩
  have hblocked := hfree cur hcur hspan
  rw [State.blockedHard, awaited_host hhost hin] at hblocked
  simp at hblocked

theorem not_grantable_of_awaited (hcur : cur < 16) {w : WaitingClaim}
    (hzone : (s.arec w.carriage).zone = some cur) : s.claimGrantable w = false := by
  rw [Bool.eq_false_iff, ne_eq, claimGrantable_iff]
  intro hall
  refine not_free_of_awaited hhost hin hcur hzone fun k hk hspan => ?_
  have hclaim := hall k hk hspan
  rw [State.claimable, Bool.and_eq_true, Bool.not_eq_true', Bool.not_eq_true'] at hclaim
  exact hclaim.2

end

end Sys2Proof.Machine
end

section
/-! The examinations of a closing of the host over a carriage that stands (O38). -/

namespace Sys2Proof.Machine

/-- The host's closing waits for its range (R102). -/
def State.awaitsHost (s : State) (r : ZoneRange) : State :=
  { s with arb := { s.arb with host := ⟨some r, false⟩ } }

/-- The host's closing has stalled, and a claim of the carriage that stands in its range waits afresh
(R105). -/
def State.stallsHost (s : State) (r : ZoneRange) : State :=
  { s with
    arb := { s.arb with
      host := ⟨some r, true⟩
      waiting := s.arb.waiting.map fun w => { w with stalled := false } } }

/-- The state an examination of the waiting closing judges. -/
theorem awaitsHost_exam {s : State} (htodo : s.todo = Todo.none) (r : ZoneRange) :
    ({ (s.awaitsHost r).dueExam with
      todo := { (s.awaitsHost r).dueExam.todo with exam := false } } : State) = s.awaitsHost r := by
  have hkept : ({ s.awaitsHost r with todo := s.todo } : State) = s.awaitsHost r := rfl
  rw [← hkept, htodo]
  rfl

theorem awaitsHost_due {s : State} (htodo : s.todo = Todo.none) (r : ZoneRange) :
    (s.awaitsHost r).dueExam.todo = { Todo.none with exam := true } :=
  congrArg (fun d : Todo => { d with exam := true }) htodo

/-- A closing over carriages in motion waits (R105). -/
theorem awaitsHost_waits {s : State} {r : ZoneRange} (htodo : s.todo = Todo.none)
    (hawaits : HostAwaits (s.awaitsHost r) r) (hwait : s.arb.waiting = [])
    (hmoves : ∀ c, (s.sq c).state = .moving ∨ (s.sq c).state = .homing) :
    (s.awaitsHost r).dueExam.settle = s.awaitsHost r :=
  settle_pass (awaitsHost_due htodo r) (examPass_judges hwait
    (by rw [awaitsHost_exam htodo, hawaits.judges_motion hmoves]) hwait) htodo

/-- A carriage stands in a range that the host closes, in the one zone it holds, and the other one
moves. -/
structure StandsOver (s : State) (r : ZoneRange) (c : Carriage) (cur : Nat) : Prop where
  todo : s.todo = Todo.none
  gates : ∀ g : Gate, s.arb.gates[g].isAwaiting = false
  held : s.heldZones c = [cur]
  inside : inRange r cur = true
  moves : (s.sq (other c)).state = .moving

theorem rangeClear_held {s : State} {r : ZoneRange} {c : Carriage} {cur : Nat} (hcur : cur < 16)
    (hheld : s.holder cur = some c) (hin : inRange r cur = true) : s.rangeClear (some r) = false := by
  have hholder : (decide (s.rangeHeld r = true)) = true := by
    rw [decide_eq_true_eq, State.rangeHeld, List.any_eq_true]
    exact ⟨cur, List.mem_range.2 hcur, by rw [hin, hheld]; rfl⟩
  rw [decide_eq_true_eq] at hholder
  rw [State.rangeClear, hholder]
  rfl

namespace StandsOver
variable {s : State} {r : ZoneRange} {c : Carriage} {cur : Nat} (h : StandsOver s r c cur)
include h

theorem lt : cur < 16 := (mem_heldZones.1 (by rw [h.held]; exact List.mem_singleton_self cur)).1

theorem holder : s.holder cur = some c :=
  (mem_heldZones.1 (by rw [h.held]; exact List.mem_singleton_self cur)).2

theorem awaits : HostAwaits (s.awaitsHost r) r :=
  ⟨h.gates, rfl, rangeClear_held (s := s.awaitsHost r) h.lt h.holder h.inside⟩

theorem closingsOver : (s.awaitsHost r).closingsOver c = [(.host, r)] := by
  refine h.awaits.closingsOver ?_
  have hheld : (s.awaitsHost r).heldZones c = [cur] := h.held
  rw [hheld, List.any_cons, h.inside]
  rfl

/-- No claim is granted across the range, as its carriage stands in it. -/
theorem grantClaims (hown : s.arb.waiting = [] ∨ ((s.arec c).zone = some cur
    ∧ ∃ w, s.arb.waiting = [w] ∧ w.carriage = c)) : (s.awaitsHost r).grantClaims = s.awaitsHost r := by
  refine grantClaims_none fun x hx => ?_
  change x ∈ s.arb.waiting at hx
  rcases hown with hnone | ⟨hzone, w, hone, hcarriage⟩
  · rw [hnone] at hx
    exact absurd hx List.not_mem_nil
  · rw [hone, List.mem_singleton] at hx
    subst hx
    exact not_grantable_of_awaited (s := s.awaitsHost r) rfl h.inside h.lt (by rw [hcarriage]; exact hzone)

/-- An examination of the closing judges the carriage that stands in its range alone. -/
theorem examPass {t : State} (hown : s.arb.waiting = [] ∨ ((s.arec c).zone = some cur
    ∧ ∃ w, s.arb.waiting = [w] ∧ w.carriage = c)) (ht : (s.awaitsHost r).clearOut c = t)
    (hstays : (t.sq (other c)).state = .moving) (hhelps : t.helpClaims = t) :
    (s.awaitsHost r).dueExam.examPass = t := by
  rw [State.examPass, awaitsHost_exam h.todo, h.grantClaims hown,
    h.awaits.judges_one h.moves (by rw [ht]; exact hstays), ht, hhelps]

end StandsOver

/-! ### A clear-out that is withheld -/

section
variable {s : State} {r : ZoneRange} {c : Carriage} {cur : Nat} (h : StandsOver s r c cur)
include h

theorem stallsHost_helps (hown : s.arb.waiting = [] ∨ ((s.arec c).zone = some cur
    ∧ ∃ w, s.arb.waiting = [w] ∧ w.carriage = c)) (kind src d) :
    ((s.stallsHost r).raise kind src d).helpClaims = (s.stallsHost r).raise kind src d := by
  have harb := raise_arb (s.stallsHost r) kind src d
  rcases hown with hnone | ⟨hzone, w, hone, hcarriage⟩
  · have hwaits : ((s.stallsHost r).raise kind src d).arb.waiting = [] := by
      rw [harb]
      exact congrArg (List.map _) hnone
    rw [State.helpClaims, hwaits]
    rfl
  · let x : WaitingClaim := { w with stalled := false }
    have hwaits : ((s.stallsHost r).raise kind src d).arb.waiting = [x] := by
      rw [harb]
      exact congrArg (List.map _) hone
    have hclaim : ((s.stallsHost r).raise kind src d).claimOf x.carriage = some x := by
      rw [State.claimOf, hwaits]
      exact List.find?_cons_of_pos (decide_eq_true rfl)
    have hx : (((s.stallsHost r).raise kind src d).arec x.carriage).zone = some cur := by
      rw [State.arec, harb]
      show (s.arec w.carriage).zone = some cur
      rw [hcarriage, hzone]
    have hawaits : ((s.stallsHost r).raise kind src d).arb.host.awaiting = some r := by
      rw [harb]
      rfl
    rw [State.helpClaims, hwaits]
    exact helpClaim_none hclaim fun hblocked => not_free_of_awaited hawaits h.inside h.lt hx hblocked.2

/-- A carriage that cannot be cleared out stalls the closing (R105). -/
theorem awaitsHost_stalls (hown : s.arb.waiting = [] ∨ ((s.arec c).zone = some cur
    ∧ ∃ w, s.arb.waiting = [w] ∧ w.carriage = c))
    (hstall : (s.awaitsHost r).clearOut c = (s.stallsHost r).raise .claimStall (.carriage c) r.first) :
    (s.awaitsHost r).dueExam.settle = (s.stallsHost r).raise .claimStall (.carriage c) r.first := by
  refine settle_pass (awaitsHost_due h.todo r) (h.examPass hown hstall ?_ (stallsHost_helps h hown ..)) ?_
  · rw [raise_sq]
    exact h.moves
  · exact ((Unmoved.refl (s.stallsHost r)).raise ..).todo.trans h.todo

omit h in
theorem stallClosing_awaitsHost : ((s.awaitsHost r).stallClosing c (.host, r)) = ({ s.awaitsHost r with
    arb := { s.arb with host := ⟨some r, true⟩ } } : State).raise .claimStall (.carriage c) r.first :=
  stallClosing_host (s := s.awaitsHost r) rfl

/-- A carriage that is HELD or FAULTED in the range (R105, R117). -/
theorem awaitsHost_pinned (hst : (s.sq c).state = .held ∨ (s.sq c).state = .faulted)
    (hwait : s.arb.waiting = []) :
    (s.awaitsHost r).dueExam.settle = (s.stallsHost r).raise .claimStall (.carriage c) r.first := by
  have hsame : ({ s.awaitsHost r with arb := { s.arb with host := ⟨some r, true⟩ } } : State)
      = s.stallsHost r := by
    rw [State.stallsHost, hwait, List.map_nil, ← hwait]
    rfl
  have himmovable : ((s.awaitsHost r).sq c).state.immovable = true := by
    change (s.sq c).state.immovable = true
    rcases hst with h | h <;> rw [h] <;> rfl
  refine awaitsHost_stalls h (.inl hwait) ?_
  rw [clearOut_pinned h.closingsOver himmovable, stallClosing_awaitsHost, hsame]

/-- A carriage that no clear-out can be granted to (R94, R105). -/
theorem awaitsHost_withheld (hst : (s.sq c).state = .idle ∨ (s.sq c).state = .claiming)
    (hunordered : (s.arec c).ordered = none) (hzone : (s.arec c).zone = some cur)
    (hown : s.arb.waiting = [] ∨ ∃ w, s.arb.waiting = [w] ∧ w.carriage = c)
    (hnone : ∀ z : Zone, clearOutTarget c cur [r] = some z.val →
      (s.awaitsHost r).spanClaimable c true (spanOf cur z.val) = false) :
    (s.awaitsHost r).dueExam.settle = (s.stallsHost r).raise .claimStall (.carriage c) r.first := by
  refine awaitsHost_stalls h (hown.imp_right fun hone => ⟨hzone, hone⟩) ?_
  rw [clearOut_orders h.closingsOver hst hunordered,
    orderOut_withheld (s := s.awaitsHost r) hzone (orderMove_withheld (s := s.awaitsHost r) hzone hnone),
    stallClosing_awaitsHost, ← raise_comm (f := fun u => u.renewClaim c) (renewClaim_reporting · · c)]
  exact congrArg (State.raise · .claimStall (.carriage c) r.first) (renewClaim_own hown)

end

/-! ### A clear-out that is granted -/

/-- A carriage cleared out of the host's range, with the notices left (R105): the closing waits on it. -/
def State.clearedOut (s : State) (r : ZoneRange) (c : Carriage) (cur : Nat) (z : Zone) (y : Nat) (d : Todo) :
    State :=
  { (s.awaitsHost r).sentAside c .clearOut cur z y with todo := d }

theorem sentAside_sq_other (s : State) (o : Carriage) (kind : MoveKind) (cur : Nat) (z : Zone) (y : Nat) :
    (s.sentAside o kind cur z y).sq (other o) = s.sq (other o) := by
  simp only [State.sentAside, State.movesAside, State.sq, get_set_other]

theorem sentAside_sq_self (s : State) (o : Carriage) (kind : MoveKind) (cur : Nat) (z : Zone) (y : Nat) :
    (s.sentAside o kind cur z y).sq o = { s.sq o with state := .moving, atInfeed := false } := by
  simp only [State.sentAside, State.movesAside, State.sq, get_set_self]

/-- The carriage keeps the zone it sets out from (R98). -/
theorem sentAside_holder (s : State) (o : Carriage) (kind : MoveKind) {cur : Nat} (hcur : cur < 16) (z : Zone)
    (y : Nat) : (s.sentAside o kind cur z y).holder cur = some o := by
  have hin : inRange (spanOf cur z.val) cur = true := by
    rw [inRange_iff]
    exact ⟨min_le_left .., le_max_left ..⟩
  rw [holder_val _ ⟨cur, hcur⟩]
  exact (holdZones_holder s o (inRange (spanOf cur z.val)) ⟨cur, hcur⟩).trans (if_pos hin)

theorem sentAside_unclaimed (s : State) (o : Carriage) (kind : MoveKind) (cur : Nat) (z : Zone) (y : Nat)
    (hown : s.arb.waiting = [] ∨ ∃ w, s.arb.waiting = [w] ∧ w.carriage = o) :
    (s.sentAside o kind cur z y).arb.waiting = [] := by
  have hwaits : (s.sentAside o kind cur z y).arb.waiting = s.arb.waiting.filter fun w => w.carriage ≠ o := by
    simp only [State.sentAside, State.movesAside, State.claimedAside]
  rw [hwaits]
  rcases hown with h | ⟨w, h, hown⟩
  · rw [h]
    rfl
  · rw [h]
    simp [hown]

section
variable {s : State} {r : ZoneRange} {c : Carriage} {cur y : Nat} {z : Zone} {d : Todo}

theorem clearedOut_sq_other : (s.clearedOut r c cur z y d).sq (other c) = s.sq (other c) :=
  sentAside_sq_other (s.awaitsHost r) c .clearOut cur z y

theorem clearedOut_sq_self : ((s.clearedOut r c cur z y d).sq c).state = .moving := by
  have hself := sentAside_sq_self (s.awaitsHost r) c .clearOut cur z y
  have hsame : (s.clearedOut r c cur z y d).sq c = ((s.awaitsHost r).sentAside c .clearOut cur z y).sq c := by
    simp only [State.clearedOut, State.sq]
  rw [hsame, hself]

theorem clearedOut_unclaimed (hown : s.arb.waiting = [] ∨ ∃ w, s.arb.waiting = [w] ∧ w.carriage = c) :
    (s.clearedOut r c cur z y d).arb.waiting = [] := by
  have hsame : (s.clearedOut r c cur z y d).arb = ((s.awaitsHost r).sentAside c .clearOut cur z y).arb := by
    simp only [State.clearedOut]
  rw [hsame]
  exact sentAside_unclaimed (s.awaitsHost r) c .clearOut cur z y hown

theorem clearedOut_examined (hd : { d with exam := false } = Todo.none) : ({ s.clearedOut r c cur z y d with
    todo := { (s.clearedOut r c cur z y d).todo with exam := false } } : State)
      = s.clearedOut r c cur z y Todo.none := by
  simp only [State.clearedOut, ← hd]

theorem clearedOut_ordered :
    orderedAside (s.awaitsHost r) (s.clearedOut r c cur z y d) c .clearOut cur z y := by
  have hordered := sentAside_ordered (s := s.awaitsHost r) (o := c) (kind := .clearOut) (cur := cur) (y := y)
    (z := z) (s.sq (other c)).latched Todo.none
  obtain ⟨hzones, hrec, hclaim, hseq, hport⟩ := hordered
  refine ⟨hzones, hrec, hclaim, ?_, hport⟩
  rw [← hseq]
  simp only [State.clearedOut, State.nudged, State.sq, get_other_set]

variable (h : StandsOver s r c cur)
include h

theorem clearedOut_awaits : HostAwaits (s.clearedOut r c cur z y d) r := by
  refine ⟨h.gates, rfl, rangeClear_held (c := c) h.lt ?_ h.inside⟩
  exact sentAside_holder (s.awaitsHost r) c .clearOut h.lt z y

/-- A cleared out carriage is left to its move. -/
theorem clearedOut_judges : (s.clearedOut r c cur z y d).judgeClosings = s.clearedOut r c cur z y d := by
  refine (clearedOut_awaits h).judges_motion fun e => .inl ?_
  rcases eq_or_ne e c with rfl | hne
  · exact clearedOut_sq_self
  · have he : e = other c := by
      revert hne
      cases e <;> cases c <;> decide
    rw [he, clearedOut_sq_other]
    exact h.moves

variable (hstands : standsIn s c cur y) (hst : (s.sq c).state = .idle ∨ (s.sq c).state = .claiming)
  (hunordered : (s.arec c).ordered = none)
  (htarget : clearOutTarget c cur [r] = some z.val)
  (hspan : (s.awaitsHost r).spanClaimable c true (spanOf cur z.val) = true)
include hstands hst hunordered htarget hspan

theorem clearOut_clears : (s.awaitsHost r).clearOut c
    = s.clearedOut r c cur z y { Todo.none with exam := true } := by
  have hmoves : ((s.awaitsHost r).sq (other c)).state = .moving := h.moves
  obtain ⟨l, k, hmoved, htodo⟩ := orderMove_moves (s := s.awaitsHost r) (kind := .clearOut) hstands hspan
  have hk : k = { Todo.none with exam := true } := by
    rw [htodo (by rw [hmoves]; rfl)]
    exact congrArg (fun d : Todo => { d with exam := true }) h.todo
  have hstanding : (((s.awaitsHost r).sentAside c .clearOut cur z y).sq (other c)).state ≠ .held := by
    rw [sentAside_sq_other, hmoves]
    exact CarState.noConfusion
  rw [nudged_standing hstanding, hk, ← htarget] at hmoved
  rw [clearOut_orders h.closingsOver hst hunordered]
  exact orderOut_moves (s := s.awaitsHost r) hstands.1 hmoved rfl

/-- A carriage is cleared out of a range that the host closes (R94, R98, R105). -/
theorem awaitsHost_clears (hown : s.arb.waiting = [] ∨ ∃ w, s.arb.waiting = [w] ∧ w.carriage = c) :
    (s.awaitsHost r).dueExam.settle = s.clearedOut r c cur z y Todo.none := by
  have hpass : (s.awaitsHost r).dueExam.examPass
      = s.clearedOut r c cur z y { Todo.none with exam := true } := by
    refine h.examPass (hown.imp_right fun hone => ⟨hstands.1, hone⟩)
      (clearOut_clears h hstands hst hunordered htarget hspan) ?_ ?_
    · rw [clearedOut_sq_other]
      exact h.moves
    · rw [State.helpClaims, clearedOut_unclaimed hown]
      rfl
  have hunclaimed : (s.clearedOut r c cur z y Todo.none).arb.waiting = [] := clearedOut_unclaimed hown
  have hjudged := clearedOut_judges (z := z) (y := y) (d := Todo.none) h
  exact settle_passes (awaitsHost_due h.todo r) hpass rfl
    (examPass_judges (clearedOut_unclaimed hown) (by rw [clearedOut_examined rfl, hjudged]) hunclaimed) rfl

end

end Sys2Proof.Machine
end

section
/-! ZONE CLOSE and ZONE OPEN (O38). -/

namespace Sys2Proof.Machine

/-! ### ZONE CLOSE of a range that is not clear -/

section
variable {s : State} {f l : Byte}

theorem rangeClear_bytes : s.rangeClear (some ⟨f.toNat, l.toNat⟩) = true
    ↔ (∀ z : Fin 16, decide (f.toNat ≤ z.val ∧ z.val ≤ l.toNat) = true → s.arb.zones[z].holder = none)
      ∧ (s.sq .A).state ≠ .homing ∧ (s.sq .B).state ≠ .homing := by
  rw [rangeClear_iff, State.clearOf]
  simp only [Option.some.injEq, forall_eq', inRange_decide]

variable (htakes : s.takesAtOnce = true) (hgood : f.toNat ≤ l.toNat ∧ l.toNat ≤ 15)
  (hhost : s.arb.host.awaiting = none) (hclear : s.rangeClear (some ⟨f.toNat, l.toNat⟩) = false)
include htakes hgood hhost hclear

/-- A closing of a range that is not clear waits, and an examination judges it (R102). -/
theorem zoneClose_awaits {u : State}
    (hsettle : ((s.withRequest (.zoneClose f l)).awaitsHost ⟨f.toNat, l.toNat⟩).dueExam.settle
      = u.withRequest (.zoneClose f l)) (hwait : u.link.waiting = []) :
    accepts (.zoneClose f l) s u 21 [1] := by
  refine accepts_of_settle (q := .zoneClose f l) htakes rfl ?_ hsettle hwait
  refine (doZoneClose_good (s := s.withRequest (.zoneClose f l)) hgood).trans ((if_neg ?_).trans
    (if_neg (Bool.eq_false_iff.1 hclear)))
  rw [withRequest_arb, hhost]
  exact Bool.false_ne_true

theorem zoneClose_motion (hwait : s.arb.waiting = []) (hgates : ∀ g : Gate, s.arb.gates[g].isAwaiting = false)
    (hmoves : ∀ c, (s.sq c).state = .moving ∨ (s.sq c).state = .homing) :
    accepts (.zoneClose f l) s (s.awaitsHost ⟨f.toNat, l.toNat⟩) 21 [1] :=
  zoneClose_awaits htakes hgood hhost hclear
    (awaitsHost_waits (s := s.withRequest (.zoneClose f l)) (takesAtOnce_todo (s := s) htakes) ⟨hgates, rfl, hclear⟩
      hwait hmoves)
    (takesAtOnce_waiting htakes)

omit hhost hclear in
theorem zoneClose_stalls {c : Carriage}
    (hsettle : ((s.withRequest (.zoneClose f l)).awaitsHost ⟨f.toNat, l.toNat⟩).dueExam.settle
      = ((s.withRequest (.zoneClose f l)).stallsHost ⟨f.toNat, l.toNat⟩).raise .claimStall (.carriage c) f.toNat)
    (hhost : s.arb.host.awaiting = none) (hclear : s.rangeClear (some ⟨f.toNat, l.toNat⟩) = false) :
    accepts (.zoneClose f l) s ((s.stallsHost ⟨f.toNat, l.toNat⟩).raise .claimStall (.carriage c) f.toNat)
      21 [1] := by
  refine zoneClose_awaits htakes hgood hhost hclear (hsettle.trans ?_) ?_
  · exact raise_withRequest (s.stallsHost ⟨f.toNat, l.toNat⟩) (.zoneClose f l) _ _ _
  · exact ((Unmoved.refl (s.stallsHost ⟨f.toNat, l.toNat⟩)).raise ..).waiting.trans
      (takesAtOnce_waiting htakes)

end

theorem clearedOut_withRequest (s : State) (q : Request) (r : ZoneRange) (c : Carriage) (cur : Nat) (z : Zone)
    (y : Nat) (d : Todo) :
    (s.withRequest q).clearedOut r c cur z y d = (s.clearedOut r c cur z y d).withRequest q := rfl

/-- What a clear-out leaves. -/
theorem clearedOut_leaves (s : State) (r : ZoneRange) (c : Carriage) (cur : Nat) (z : Zone) (y : Nat) (d : Todo) :
    (s.clearedOut r c cur z y d).link = s.link ∧ (s.clearedOut r c cur z y d).arb.host = ⟨some r, false⟩
      ∧ (s.clearedOut r c cur z y d).stackRecs = s.stackRecs
      ∧ (s.clearedOut r c cur z y d).queue = s.queue ∧ (s.clearedOut r c cur z y d).events = s.events := by
  simp only [State.clearedOut, State.sentAside, State.movesAside, State.claimedAside, State.awaitsHost,
    and_self]

theorem StandsOver.withRequest {s : State} {r : ZoneRange} {c : Carriage} {cur : Nat} (h : StandsOver s r c cur)
    (q : Request) : StandsOver (s.withRequest q) r c cur :=
  ⟨h.todo, h.gates, h.held, h.inside, h.moves⟩

theorem SameRail.spanClaimable {s u : State} (h : SameRail s u) (c : Carriage) (b : Bool) (r : ZoneRange) :
    u.spanClaimable c b r = s.spanClaimable c b r := by
  rw [State.spanClaimable, State.spanClaimable]
  exact congrArg (List.all (rangeZones r)) (funext fun z => h.claimable c b z)

/-! ### ZONE CLOSE over a carriage that stands -/

/-- The state in which a carriage that stands in the host's range is judged: a claim of its own waits
afresh (R94, R105). -/
def State.hostOver (s : State) (r : ZoneRange) : State :=
  { s with
    arb := { s.arb with
      host := ⟨some r, false⟩
      waiting := s.arb.waiting.map fun w => { w with stalled := false } } }

theorem hostOver_ordered (s : State) (r : ZoneRange) (c : Carriage) (cur : Nat) (z : Zone) (y : Nat) :
    orderedAside (s.hostOver r) (s.clearedOut r c cur z y Todo.none) c .clearOut cur z y := by
  obtain ⟨hzones, hrec, hclaim, hseq, hport⟩ :=
    clearedOut_ordered (s := s) (r := r) (c := c) (cur := cur) (z := z) (y := y) (d := Todo.none)
  exact ⟨hzones, hrec, hclaim, hseq, hport⟩

section
variable {s : State} {f l : Byte} {c : Carriage} {cur y : Nat} (htakes : s.takesAtOnce = true)
  (hgood : f.toNat ≤ l.toNat ∧ l.toNat ≤ 15) (hhost : s.arb.host.awaiting = none)
  (hover : StandsOver s ⟨f.toNat, l.toNat⟩ c cur)
include htakes hgood hhost hover

omit htakes hgood hhost in
theorem StandsOver.notClear : s.rangeClear (some ⟨f.toNat, l.toNat⟩) = false :=
  rangeClear_held hover.lt hover.holder hover.inside

omit htakes hgood hhost in
theorem hostOver_target (hl : l.toNat ≤ 15) {z : Zone} :
    clearOutTarget c cur [⟨f.toNat, l.toNat⟩] = some z.val ↔ besideRange c f.toNat l.toNat = some z :=
  clearOutTarget_iff ((inRange_iff ..).1 hover.inside) hl

/-- A carriage that can be cleared out of the range leaves it (R94, R98, R105). -/
theorem zoneClose_clears {z : Zone}
    (hfree : ((s.sq c).state = .idle ∧ s.arb.waiting = [])
      ∨ ((s.sq c).state = .claiming ∧ ∃ w, s.arb.waiting = [w] ∧ w.carriage = c))
    (hunordered : (s.arec c).ordered = none) (hstands : standsIn s c cur y)
    (htarget : besideRange c f.toNat l.toNat = some z)
    (hspan : (s.hostOver ⟨f.toNat, l.toNat⟩).spanClaimable c true (spanOf cur z.val) = true) :
    accepts (.zoneClose f l) s (s.clearedOut ⟨f.toNat, l.toNat⟩ c cur z y Todo.none) 21 [1] := by
  have hsame : SameRail ((s.withRequest (.zoneClose f l)).awaitsHost ⟨f.toNat, l.toNat⟩)
      (s.hostOver ⟨f.toNat, l.toNat⟩) := ⟨rfl, rfl, rfl, rfl, rfl⟩
  have hwaiting : (s.clearedOut ⟨f.toNat, l.toNat⟩ c cur z y Todo.none).link.waiting = [] := by
    obtain ⟨hlink, -⟩ := clearedOut_leaves s ⟨f.toNat, l.toNat⟩ c cur z y Todo.none
    rw [hlink]
    exact takesAtOnce_waiting htakes
  refine zoneClose_awaits htakes hgood hhost hover.notClear ?_ hwaiting
  have hst : (s.sq c).state = .idle ∨ (s.sq c).state = .claiming := hfree.imp And.left And.left
  have hown : s.arb.waiting = [] ∨ ∃ w, s.arb.waiting = [w] ∧ w.carriage = c := hfree.imp And.right And.right
  rw [hsame.spanClaimable] at hspan
  rw [← clearedOut_withRequest]
  exact awaitsHost_clears (hover.withRequest _) hstands hst hunordered
    ((hostOver_target hover hgood.2).2 htarget) hspan hown

/-- A carriage that cannot be cleared out of the range stalls the closing (R105, R117). -/
theorem zoneClose_blocked
    (h : ((((s.sq c).state = .idle ∧ s.arb.waiting = [])
        ∨ ((s.sq c).state = .claiming ∧ ∃ w, s.arb.waiting = [w] ∧ w.carriage = c))
          ∧ (s.arec c).ordered = none ∧ (s.arec c).zone = some cur
          ∧ ∀ z : Zone, ¬(besideRange c f.toNat l.toNat = some z
            ∧ (s.hostOver ⟨f.toNat, l.toNat⟩).spanClaimable c true (spanOf cur z.val) = true))
      ∨ (((s.sq c).state = .held ∨ (s.sq c).state = .faulted) ∧ s.arb.waiting = [])) :
    accepts (.zoneClose f l) s ((s.stallsHost ⟨f.toNat, l.toNat⟩).raise .claimStall (.carriage c) f.toNat)
      21 [1] := by
  refine zoneClose_stalls htakes hgood ?_ hhost hover.notClear
  rcases h with ⟨hfree, hunordered, hzone, hnone⟩ | ⟨hst, hwait⟩
  · have hsame : SameRail ((s.withRequest (.zoneClose f l)).awaitsHost ⟨f.toNat, l.toNat⟩)
        (s.hostOver ⟨f.toNat, l.toNat⟩) := ⟨rfl, rfl, rfl, rfl, rfl⟩
    refine awaitsHost_withheld (hover.withRequest _) (hfree.imp And.left And.left) hunordered hzone
      (hfree.imp And.right And.right) fun z htarget => ?_
    rw [← hsame.spanClaimable, Bool.eq_false_iff]
    exact fun hspan => hnone z ⟨(hostOver_target hover hgood.2).1 htarget, hspan⟩
  · exact awaitsHost_pinned (hover.withRequest _) hst hwait

end

/-- Settles O38: a clear range is closed at once, another waits; a carriage that stands in it is cleared out
or stalls the closing; the opening removes the host's closure and withdraws its closing. -/
theorem hostClosesAndOpens : Obligations.HostClosesAndOpens := by
  unfold Obligations.HostClosesAndOpens
  intro s f l htakes
  refine ⟨fun hf => ⟨zoneClose_refuses_bad htakes (readRange_badFirst hf),
      zoneOpen_refuses_bad htakes (readRange_badFirst hf)⟩,
    fun hf hl => ⟨zoneClose_refuses_bad htakes (readRange_badLast hf hl),
      zoneOpen_refuses_bad htakes (readRange_badLast hf hl)⟩,
    fun hgood hhost => zoneClose_refuses_awaiting htakes hgood hhost,
    fun hgood hhost hclear => zoneClose_closes htakes hgood hhost (rangeClear_bytes.2 hclear),
    fun hgood hhost hclear hwait hgates hmoves => zoneClose_motion htakes hgood hhost
      (Bool.eq_false_iff.2 (mt rangeClear_bytes.1 hclear)) hwait hgates hmoves,
    fun c cur y hgood hhost hgates hheld hin hmoves _ => ?_,
    fun hgood hwait hgates hoverlap => ?_⟩
  · have hover : StandsOver s ⟨f.toNat, l.toNat⟩ c cur :=
      ⟨takesAtOnce_todo htakes, hgates, hheld, (inRange_decide ..).trans hin, hmoves⟩
    intro q free pinned s1 beside granted
    have hbeside : beside = besideRange c f.toNat l.toNat := by
      cases c <;> rfl
    refine ⟨fun z hfree _ hunordered hstands hgranted => ?_, fun h => ?_⟩
    · obtain ⟨-, hhosts, hstacks, hqueue, hevents⟩ :=
        clearedOut_leaves s ⟨f.toNat, l.toNat⟩ c cur z y Todo.none
      refine ⟨s.clearedOut ⟨f.toNat, l.toNat⟩ c cur z y Todo.none,
        zoneClose_clears htakes hgood hhost hover hfree hunordered hstands (hbeside ▸ hgranted.1) hgranted.2,
        hostOver_ordered s _ c cur z y, hhosts, clearedOut_sq_other, hstacks, hqueue, hevents⟩
    · refine zoneClose_blocked htakes hgood hhost hover (h.imp_left fun ⟨hfree, hunordered, hzone, hnone⟩ =>
        ⟨hfree, hunordered, hzone, fun z hgranted => hnone z ⟨hbeside ▸ hgranted.1, hgranted.2⟩⟩)
  · rw [← hostClosed_count]
    exact zoneOpen_opens htakes hgood hwait hgates hoverlap

end Sys2Proof.Machine
end
